-- ==== Sys2Proof/Word.lean ====
section
/-! DEFINITION. The plainest types of the model: bytes, byte strings, sparse tables and memories.
The operations over them stand in Sys2Proof/Machine/Bits.lean and Sys2Proof/Machine/Ops.lean. -/

namespace Sys2Proof

/-- One byte. -/
abbrev Byte := BitVec 8

/-- A string of bytes, first byte first. -/
abbrev Bytes := List Byte

/-- A sparse table: (key, value) pairs with strictly rising keys. -/
abbrev Tbl (α : Type) := List (Nat × α)

/-- A byte memory: (address, byte) cells, addresses strictly rising, no cell holding 0, which an unlisted address reads as. -/
abbrev Mem := List Host.Cell

end Sys2Proof
end

