-- ==== Sys2Proof/Syntax.lean ====
section
/-! DEFINITION. The commands of the block: one constructor per row of the specification's table of operations and events.
An operand holds what comes from outside the block with the command: a written value, a received frame, a reading. -/

namespace Sys2Proof

/-- A request handed whole to the firmware of a Kiosk (05_mailbox_protocol.md, Table 5-6): the calling function,
the header's VERSION and SEQUENCE, the payload, and the time in ns that the firmware takes to answer. -/
structure Msg where
  /-- Function index of the Kiosk (R127: the caller is the Kiosk alone). -/
  func : Nat
  /-- VERSION of the header. -/
  version : Nat
  /-- SEQUENCE of the header. -/
  seq : BitVec 32
  /-- Payload bytes; their number is the header's LENGTH. -/
  payload : Bytes := []
  /-- Time from taking the request to publishing its response, in ns. -/
  dt : Nat := 0
  deriving DecidableEq, Repr

/-- What stage 2 finds in one flash slot (R55, R57): whether the flash answers, the header with its section table, and
whether the public key's hash and the signature verify. -/
structure SlotFacts where
  /-- The flash answers reads of the slot. -/
  answers : Bool := true
  /-- Header bytes from offset 0x000, section table included. -/
  header : Bytes := []
  /-- SHA-384 of PUBKEY equals the fused hash (check 4). -/
  keyOk : Bool := true
  /-- SIGNATURE verifies under PUBKEY (check 5). -/
  sigOk : Bool := true
  deriving DecidableEq, Repr

/-- What the configuration section of the booted image sets (R55, R59, R415). -/
structure ImageConfig where
  /-- Domains the section leaves off, bit n for PDn. -/
  offMask : Nat := 0
  /-- Die links that train, bit n for DIE n. -/
  linksUp : Nat := 0x3F
  /-- UPL_q_CFG by uplink port. -/
  uplCfg : List (BitVec 32) := []
  /-- UPL_LANEl_CFG by uplink lane. -/
  laneCfg : List (BitVec 32) := []
  deriving DecidableEq, Repr

/-- What the receiver finds in a decoded upstream codeword, in line order (R229 to R231). -/
inductive CwItem where
  /-- An allocation of the burst begins: its Alloc-ID, and BUFOCC of a valid status report. -/
  | alloc (id : Nat) (report : Option Nat)
  /-- An XGEM header: its offset from the start of the microframe in line bits divided by 64, its word, and whether its HEC passes. -/
  | header (pos : Nat) (word : BitVec 64) (hecOk : Bool)
  /-- Bytes of the frame that is open. -/
  | bytes (b : Bytes)
  /-- The end of the burst. -/
  | burstEnd
  deriving DecidableEq, Repr

/-- A mirror record, by content (R451, R453, R454, R457). -/
inductive Rec where
  /-- A mirrored command: opcode, fields, payload. -/
  | command (op : Nat) (args : List Nat) (body : Bytes)
  /-- R454: a mirrored item of a bulk copy, as the command that sets it: opcode, payload. -/
  | item (op : Nat) (body : Bytes)
  /-- R452: the standby is demoted. -/
  | demote
  /-- R446: the tick of a planned switch. -/
  | switch (tick : Nat)
  /-- R453: a line key under an index, wrapped; rings of channels count from 0x10000. -/
  | key (who idx alg : Nat) (wrapped : Bytes)
  /-- R453: the switch frame of a roll. -/
  | roll (who fs : Nat)
  /-- A registry entry. -/
  | entry (onu : Nat) (fields : List Nat)
  /-- An entry of a rule bank (0 A, 1 B), of kind 0 rule or 1 pattern. -/
  | rule (bank kind index : Nat) (body : Bytes)
  /-- The rule epoch. -/
  | epoch (n : Nat)
  /-- R454: the standby asks for a bulk copy. -/
  | request
  /-- R454: the bulk copy is complete. -/
  | bulkDone
  /-- R450: the standby asks for a channel's sequence numbers. -/
  | snapRequest (ch : Nat)
  /-- R450: next sequence numbers of a channel's upstream flows. -/
  | snapshot (ch : Nat) (seqs : List (Nat × Nat))
  deriving DecidableEq, Repr

/-- The commands. -/
inductive Instr where
  /-- R43. Rise of SYS_RESET_N samples the straps, sets the adaptive rails to 0.75 V over AVSBus and runs the first rail check before start-up. -/
  | sysResetNRise (straps : Nat) (testEn avs0 avs1 : Bool) (rails : List Nat)
  /-- R64. Assertion of SYS_RESET_N resets the device and abandons any start-up in progress. -/
  | sysResetNAssert
  /-- R43. Every 1 ms the device rechecks its rails and begins start-up when every rail is in range. -/
  | railCheck (rails : List Nat)
  /-- R49. Stage 1 ends when every fuse word is shadowed, or start-up stops on an uncorrectable fuse word. -/
  | fuseReadDone (chanEn : Nat) (extEn : Bool) (corrected : Nat) (keyHashOk uncorrectable : Bool) (fused : List Nat)
  /-- R50. Memory repair, self-test and ECC initialisation complete, marking failed dies or stopping start-up for the Polder. -/
  | memoryInitDone (failed : Nat)
  /-- R58. Stage 2 completes loading and checking a slot and applying its configuration. -/
  | imageLoadDone (flashOk : Bool) (dir0 dir1 : Bytes) (slotA slotB : SlotFacts) (config : ImageConfig)
  /-- R61. The firmware reports ready; DEV_READY rises and configuration requests complete successfully. -/
  | firmwareReady (recA recB : Option Nat) (recOk : Bool) (lastLog : Option Nat)
  /-- R60. The firmware does not report ready within 60 ms; the slot fails and the fallback slot is loaded if allowed. -/
  | firmwareReadyTimeout
  /-- R94. Assertion of PCIE_PERST_N resets the PCIe controller and runs the disable sequence on every function. -/
  | pciePerstNAssert
  /-- R63. Release of PCIE_PERST_N starts link training. -/
  | pciePerstNRelease
  /-- R94. A hot reset runs the disable sequence on every function and resets the PCIe controller. -/
  | pcieHotReset
  /-- R94. Link Disable runs the disable sequence on every function. -/
  | pcieLinkDisable
  /-- R94. Loss of the data link runs the disable sequence on every function. -/
  | pcieDataLinkLoss
  /-- R90. A function-level reset starts the disable sequence and returns the function's configuration space to reset values. -/
  | functionLevelReset (func : Nat)
  /-- R90. Clearing Bus Master Enable starts the disable sequence of the function. -/
  | busMasterEnableClear (func : Nat)
  /-- R90. Entry to D3hot starts the disable sequence of the function. -/
  | d3hotEntry (func : Nat)
  /-- R90. Clearing VF Enable starts the disable sequence of every virtual function. -/
  | vfEnableClear
  /-- R70. Setting VF Enable enables the virtual functions, or none when NumVFs exceeds 62. -/
  | vfEnableSet (numVfs : Nat)
  /-- R90. Rings and page are scrubbed, QUIESCENT reads 1 and PF0 vector 44 is raised. -/
  | disableSequenceDone (func : Nat)
  /-- R7. A host write to a register without a row of its own stores, clears or ignores bits by access type. -/
  | registerWrite (func bar off : Nat) (data : Bytes) (whole : Bool)
  /-- R9. A read of an RC field returns the value and clears it. -/
  | readClearRegisterRead (func bar off len be : Nat)
  /-- R11. A read of the low word of a 64-bit pair latches the high word for the reading function. -/
  | lowWordRead (func bar off : Nat)
  /-- R541. A write of the low word of a writable 64-bit value is held per pair and function. -/
  | wideLowWordWrite (func bar off : Nat) (word : BitVec 32)
  /-- R541. A write of the high word combines with the held low word and the value takes effect. -/
  | wideHighWordWrite (func bar off : Nat) (word : BitVec 32)
  /-- R86. A held access completes normally when its domain comes up within 20 µs. -/
  | heldAccessComplete (func : Nat)
  /-- R86. A held access not served within 20 µs completes with 0xFFFF_FFFF and is logged with cause 0x1. -/
  | heldAccessTimeout (func : Nat)
  /-- R100. The host publishes requests by writing the request doorbell, or the write is rejected with DB_ERROR. -/
  | kioskReqTailWrite (func : Nat) (word : BitVec 32)
  /-- R101. The host consumes responses by writing the response doorbell, or the write is rejected. -/
  | kioskRspHeadWrite (func : Nat) (word : BitVec 32)
  /-- R124. Writing RING_RESET discards pending requests and starts the ring reset of the Kiosk. -/
  | ringReset (func : Nat)
  /-- R124. The Kiosk clears its rings and positions, clears RING_FAULT and RESET_BUSY, and becomes un-negotiated. -/
  | ringResetDone (func : Nat)
  /-- R117. The firmware takes one complete request from a Kiosk in its round when the response ring has room and the budget allows. -/
  | kioskTakeRequest (dt : Nat)
  /-- R110. Negotiates the protocol level of the Kiosk and returns the firmware interface version. -/
  | hello (m : Msg)
  /-- R141. Returns option set, failed dies, die IDs, BOOT_SEQ, uptime and booted slot. -/
  | sysGetInfo (m : Msg)
  /-- R141. Replaces the Kiosk's event subscription mask and returns the granted bits. -/
  | sysSubscribe (m : Msg)
  /-- R141. Returns the data received. -/
  | sysEcho (m : Msg)
  /-- R141. Orders a planned Pavilion restart into the running image. -/
  | sysRestart (m : Msg)
  /-- R488. Requests a power state change, started, queued or replacing the queued request. -/
  | powerSetState (m : Msg)
  /-- R142. Returns the power state, running and queued requests, last wake and domains on. -/
  | powerGetState (m : Msg)
  /-- R492. Writes the wake enable mask and the WAKE pin polarities. -/
  | powerSetWake (m : Msg)
  /-- R142. Returns the voltage and current of the 18 rails. -/
  | powerGetRails (m : Msg)
  /-- R143. Sets mode, upstream rate, wavelengths and PON_ID of an OFF channel and its defaults. -/
  | chanConfig (m : Msg)
  /-- R181. Orders a channel state transition at the next frame boundary, waiting for TUNED when needed. -/
  | chanSetState (m : Msg)
  /-- R182. TUNED not reached within 19.5 ms; CHAN_SET_STATE answers TIMEOUT with no change. -/
  | chanTuneTimeout (func : Nat)
  /-- R143. Returns the configuration, state, tree, ONU count and overruns of a channel. -/
  | chanGet (m : Msg)
  /-- R143. Creates a tree of 1, 2 or 4 channels meeting the tree rule. -/
  | treeCreate (m : Msg)
  /-- R184. Deletes a tree whose ONUs are all absent and whose channels are not in SERVICE. -/
  | treeDelete (m : Msg)
  /-- R143. Returns the channels, identity and ONU count of a tree. -/
  | treeGet (m : Msg)
  /-- R213. Returns link and fault status, temperature and TX power of an optical engine. -/
  | engineGet (m : Msg)
  /-- R214. Runs one I2C read or write transaction to an optical engine. -/
  | engineI2c (m : Msg)
  /-- R144. Returns ONUs of a tree from START whose state is in STATE_MASK. -/
  | onuList (m : Msg)
  /-- R144. Authorises a DISCOVERED or QUARANTINED ONU, fixing its tenant and registration ID. -/
  | onuAuthorise (m : Msg)
  /-- R244. Suspends or resumes an ONU. -/
  | onuSuspend (m : Msg)
  /-- R144. Deactivates an ONU and deletes its flows, allocations and entry. -/
  | onuDeregister (m : Msg)
  /-- R144. Returns the registry entry of an ONU. -/
  | onuGet (m : Msg)
  /-- R263. Starts a wavelength migration of an OPERATING ONU to another channel of its tree. -/
  | onuMigrate (m : Msg)
  /-- R247. Sets the discovery bucket rate of a tree. -/
  | onuDiscLimit (m : Msg)
  /-- R144. Sends an OMCI message to an OPERATING ONU. -/
  | omciSend (m : Msg)
  /-- R144. Returns a received OMCI message by its handle. -/
  | omciRecv (m : Msg)
  /-- R144. A receive handle becomes invalid 1 s after its OMCI_RX event. -/
  | omciHandleExpiry (handle : Nat)
  /-- R303. Creates a service flow after the checks of Table 12-1. -/
  | flowCreate (m : Msg)
  /-- R145. Deletes a flow, discarding and counting the frames it still holds. -/
  | flowDelete (m : Msg)
  /-- R145. Returns the parameters and tenant of a flow. -/
  | flowGet (m : Msg)
  /-- R273. Creates or replaces an upstream allocation. -/
  | allocSet (m : Msg)
  /-- R146. Deletes an allocation no flow names. -/
  | allocDelete (m : Msg)
  /-- R146. Returns the parameters and mean reported and granted bytes of an allocation. -/
  | allocGet (m : Msg)
  /-- R290. Sets, replaces or cancels the schedule hint series of an allocation. -/
  | dbaHint (m : Msg)
  /-- R146. Sets weighted or strict-priority surplus sharing for a tree. -/
  | dbaPolicy (m : Msg)
  /-- R200. Starts a roll of a unicast or broadcast line key. -/
  | keyRoll (m : Msg)
  /-- R147. Returns the key index, algorithm, roll state, roll count and superframe basis of a line key. -/
  | keyGet (m : Msg)
  /-- R147. Sets the line-key algorithm and maximum life of a channel. -/
  | keyPolicy (m : Msg)
  /-- R310. Runs ECDH P-384 and stores a transport key for the calling function. -/
  | keyExchange (m : Msg)
  /-- R312. Unwraps a key into a slot of the caller's crypto page with a new epoch. -/
  | pageKeyUnwrap (m : Msg)
  /-- R331. Writes or empties a rule entry of the inactive bank on every datapath die. -/
  | ruleWrite (m : Msg)
  /-- R329. Writes or empties a payload pattern of the inactive bank. -/
  | patternWrite (m : Msg)
  /-- R148. Returns a rule or pattern entry of a bank. -/
  | ruleRead (m : Msg)
  /-- R148. Copies the active bank into the inactive bank. -/
  | ruleCopy (m : Msg)
  /-- R335. Orders a bank swap at the next tick edge and answers after SWAP_DONE. -/
  | ruleSwap (m : Msg)
  /-- R148. Returns the active bank, epoch and swap count. -/
  | ruleStatus (m : Msg)
  /-- R341. Sets the rate and burst of an exception class bucket or the total bucket. -/
  | excClassSet (m : Msg)
  /-- R148. Returns the bucket settings and passed and dropped counts of an exception class. -/
  | excClassGet (m : Msg)
  /-- R349. Adds a prefix or replaces its next hop in the trie. -/
  | routeAdd (m : Msg)
  /-- R349. Deletes a prefix from the trie. -/
  | routeDelete (m : Msg)
  /-- R349. Applies up to 72 route additions and deletions all or none. -/
  | routeBatch (m : Msg)
  /-- R149. Returns whether a prefix exists and its next hop. -/
  | routeGet (m : Msg)
  /-- R351. Creates, replaces or deletes a next-hop handle. -/
  | nhSet (m : Msg)
  /-- R149. Returns valid exact-match entries or open trie restore records from an index. -/
  | emRead (m : Msg)
  /-- R362. Restores an invalidated exact-match slot or installs a trie replacement subtree. -/
  | emRestore (m : Msg)
  /-- R358. Sets the aging scan period of a die or of every die. -/
  | ageSet (m : Msg)
  /-- R397. Sets the rate, burst and debt handling of a hierarchy node. -/
  | shaperSet (m : Msg)
  /-- R396. Returns the rate, burst and tokens of a node. -/
  | shaperGet (m : Msg)
  /-- R401. Sets the rate and burst of an upstream flow policer. -/
  | policerSet (m : Msg)
  /-- R397. Sets the priority and weight of an ONU or flow node. -/
  | schedSet (m : Msg)
  /-- R379. Sets the reserved minimum and quota of a buffer owner in a pool. -/
  | bufQuotaSet (m : Msg)
  /-- R370. Returns reservation, quota, use and peak of an owner and resets the peak. -/
  | bufQuotaGet (m : Msg)
  /-- R404. Writes entries of the pending gate list of a subport. -/
  | gateWrite (m : Msg)
  /-- R404. Schedules the pending gate list to take effect at a computed change time. -/
  | gateCommit (m : Msg)
  /-- R407. Marks the preemptable classes of a subport. -/
  | preemptSet (m : Msg)
  /-- R151. Sets the pair identity and enables protection. -/
  | redConfig (m : Msg)
  /-- R458. Returns own and peer roles, mirror versions and switch count. -/
  | redGet (m : Msg)
  /-- R446. Runs a planned switch of activity to the ready standby. -/
  | redSwitch (m : Msg)
  /-- R454. Discards the standby's mirrored state and restarts the bulk copy. -/
  | redResync (m : Msg)
  /-- R453. Unwraps and loads the pair key under PF0's transport key. -/
  | redPairKey (m : Msg)
  /-- R424. Selects PTP domain A or B at the next tick edge. -/
  | timeSelect (m : Msg)
  /-- R152. Returns the selected domain, lock states, tick number and uptime. -/
  | timeGet (m : Msg)
  /-- R152. Sets the PTP domain and step mode of a subport. -/
  | ptpPortSet (m : Msg)
  /-- R205. Enables or disables EXT_TOD on a channel or on every channel. -/
  | todSet (m : Msg)
  /-- R429. Selects the subport recovered clock for a SyncE output. -/
  | synceSet (m : Msg)
  /-- R228. Returns the burst measurement accumulator of an ONU. -/
  | measOnu (m : Msg)
  /-- R153. Returns the error, rogue and overrun counts of a channel. -/
  | measChan (m : Msg)
  /-- R516. Starts a reflectometry run on a tree at the next tick edge. -/
  | otdrStart (m : Msg)
  /-- R153. Returns the state and progress of a reflectometry run. -/
  | otdrStatus (m : Msg)
  /-- R153. Returns the events of the last reflectometry run. -/
  | otdrRead (m : Msg)
  /-- R504. Returns the 16 temperatures of a die. -/
  | sensorRead (m : Msg)
  /-- R507. Returns event-log entries from an index. -/
  | logRead (m : Msg)
  /-- R512. Starts an update of the slot that did not boot and begins its erase. -/
  | updBegin (m : Msg)
  /-- R512. Accepts the next bytes of the update image into the programming buffer. -/
  | updWrite (m : Msg)
  /-- R511. Starts verification of the received image and, with ACTIVATE, its activation. -/
  | updCommit (m : Msg)
  /-- R154. Returns the update state, result and bytes received. -/
  | updStatus (m : Msg)
  /-- R514. Activates the other slot through a planned restart. -/
  | updRollback (m : Msg)
  /-- R299. Binds a tenant to a virtual function. -/
  | tenantBind (m : Msg)
  /-- R300. Unbinds a tenant, zeroing the function's transport key and crypto slots. -/
  | tenantUnbind (m : Msg)
  /-- R140. Sets the quotas and command budget of a tenant. -/
  | tenantSetQuota (m : Msg)
  /-- R155. Returns the binding, use and quotas of a tenant. -/
  | tenantGet (m : Msg)
  /-- R155. Grants or withdraws the counter window of a tenant's function. -/
  | counterGrant (m : Msg)
  /-- R166. At each T0 the tick number advances and the work of Table 7-1 commits in order. -/
  | tickEdge (late : List Nat)
  /-- R335. When no packet of the old epoch remains, or at T0 + 4 µs with drops, SWAP_DONE is set. -/
  | swapDrainEnd
  /-- R161. The time unit lengthens one tick to align TICK_NUM to the selected locked domain. -/
  | alignmentStep
  /-- R161. Writing TICK_CTRL.ALIGN_REQ requests a further alignment step. -/
  | alignReq
  /-- R164. A Dike whose frame starts drift more than 4 ns in 1 s sets REF_MISMATCH and logs one event. -/
  | frameDriftCheck (die drift : Nat)
  /-- R210. Every 128 ticks the device requests telemetry and repeats laser and tuning state. -/
  | bclStateRefresh (engine : Nat)
  /-- R211. A telemetry frame from an engine is checked and its records are taken. -/
  | bclTelemetryFrame (engine : Nat) (intact : Bool) (flags : Nat) (records : List (BitVec 32))
  /-- R212. Three ticks without an intact telemetry frame take the link down, set LINK_LOST and log. -/
  | bclLinkDown (engine : Nat)
  /-- R212. A link not up within 128 ticks of its start counts as lost once. -/
  | bclLinkUpTimeout (engine : Nat)
  /-- R35. A reference clock is detected lost and the device acts as Table 2-5 states. -/
  | refclkLoss (clock : Nat)
  /-- R35. A lost PON or uplink reference clock returns and the Dike lines or Sluice ports restart. -/
  | refclkReturn (clock : Nat)
  /-- R425. Each 1 s window the device measures SYS_REFCLK against TIME_REFCLK. -/
  | ptpRefDiffMeasure (diff : BitVec 32)
  /-- R21. A flit failing its CRC is replayed with every later flit. -/
  | dieLinkFlitCrcFail (link : Nat) (atPolder same : Bool) (replayed : Nat)
  /-- R21. A retrain completes and the link carries traffic again. -/
  | dieLinkRetrainDone (link : Nat) (ok : Bool)
  /-- R22. Three failed retrains declare the link failed, stop the die's traffic and raise the failure flag. -/
  | dieLinkFailed (link : Nat)
  /-- R18. A frame received on an uplink is timestamped and spread to an ingress pipeline, or dropped on input overrun. -/
  | uplinkFrameRx (sp : Nat) (frame : Bytes) (overrun : Bool) (fecCorr fecUncorr : Nat)
  /-- R224. A burst locks with its delimiter in the search window and is measured. -/
  | burstLocked (channel onu mf lock : Nat) (offset : Int) (collision : Option Nat)
  /-- R224. No delimiter appears in the search window and the burst counts as missed. -/
  | burstMissed (channel onu : Nat)
  /-- R225. A burst outside its window is discarded and counted against its ONU. -/
  | burstOutsideWindow (channel onu : Nat)
  /-- R226. A burst found in a quiet window is handed to the ranging engine with its arrival time. -/
  | quietWindowBurst (channel win : Nat) (offset : Int)
  /-- R231. A decoded upstream codeword delivers its XGEM frame parts, decrypting and delineating them. -/
  | codewordDecoded (channel info corrected : Nat) (uncorrectable : Bool) (items : List CwItem)
  /-- R234. A poisoned mark reaching the Polder drops the frame or ends it with a complemented FCS. -/
  | poisonedTailArrival (die src : Nat)
  /-- R235. A reassembly context not completed within 16 ticks is discarded and counted. -/
  | reassemblyTimeout (onu xgem : Nat)
  /-- R236. A condition of Table 9-4 is declared, its bit set, counted and LINE_FAULT written. -/
  | rogueDetect (channel kind onu : Nat)
  /-- R245. A serial number arriving on a tree is handled by the first matching row of Table 10-5. -/
  | serialNumberRx (channel : Nat) (serial : BitVec 64)
  /-- R244. An ONU 8 s in DISCOVERED without authorisation is quarantined. -/
  | discoveryHoldExpiry (onu : Nat)
  /-- R261. A ranging response sets EQD and Ranging_Time is sent. -/
  | rangingResponse (onu : Nat)
  /-- R261. An activation step exhausts its limit and the entry moves to DISCOVERED or QUARANTINED. -/
  | activationStepTimeout (onu : Nat)
  /-- R261. The ONU's registration ID is compared with REG_ID. -/
  | registrationRx (onu : Nat) (regId : Bytes)
  /-- R196. An EXT_CAPS answer sets the ONU's CAPS bits. -/
  | extCapsRx (onu caps tuneDs tuneUs tuneMs : Nat)
  /-- R244. Every activation step is done and the ONU becomes OPERATING or SUSPENDED. -/
  | activationComplete (onu : Nat)
  /-- R244. A Dying_Gasp takes the ONU to DISCOVERED with cause 0x08. -/
  | dyingGasp (onu : Nat)
  /-- R262. At the end of each block of 128 locked bursts the mean OFFSET may update EQD. -/
  | eqdDriftBlock (onu : Nat)
  /-- R259. A spread-sequence integration ends and up to 4 detections are acknowledged. -/
  | spreadIntegrationEnd (channel : Nat) (detections : List (Nat × Nat))
  /-- R263. An EXT_TUNE_RESP advances, completes or rolls back a migration. -/
  | extTuneRespRx (onu seq code : Nat) (offset : Int)
  /-- R263. No answer to EXT_TUNE by Fm + 4 resends it, and after three sends ends the migration with RESULT 2. -/
  | extTuneRespTimeout (onu : Nat)
  /-- R263. No arrival by Fs + 8 × ROLLBACK_MS returns the ONU to the old channel or ends the migration. -/
  | migrationRollbackExpiry (onu : Nat)
  /-- R264. The old placement's fence token releases frames waiting in the reorder stage. -/
  | fenceTokenArrival (die : Nat) (onu : Option Nat)
  /-- R324. Results waiting 20 µs for fence tokens are released and later old results discarded. -/
  | fenceWaitTimeout (die : Nat) (onu : Option Nat)
  /-- R199. A line-key roll starts on MAX_LIFE_S expiry or a basis of 2^47. -/
  | keyRollStart (onu channel : Nat)
  /-- R200. The key request is repeated 100 ms apart, and after the last repeat the roll fails. -/
  | keyRequestRepeat (onu channel : Nat)
  /-- R201. A failed roll starts again 10 s later. -/
  | keyRollRetry (onu channel : Nat)
  /-- R200. The ONU's new key is loaded into the index not in use and the switch frame chosen. -/
  | onuKeyRx (onu : Nat) (key : Bytes)
  /-- R200. After frame Fs + 64 the old index is rejected, zeroed and the roll completes. -/
  | oldKeyExpiry (onu channel : Nat)
  /-- R333. A recirculated packet re-enters the spread stage for its next pass. -/
  | recirculatePass (die : Nat)
  /-- R323. A missing sequence number for 2 µs releases waiting packets and is counted. -/
  | reorderTimeout (die src : Nat)
  /-- R337. A stored fragment decision expires 2 ms after creation. -/
  | fragmentDecisionExpiry (die : Nat)
  /-- R338. A fragment held 500 µs goes to exception class 3. -/
  | fragmentHoldTimeout (die : Nat)
  /-- R355. The learn engine takes a queued learn request and refreshes, moves or inserts the key. -/
  | learnRequest (die : Nat)
  /-- R358. The scanner visits a slot, marking or removing its entry. -/
  | agingVisit (die : Nat) (hit : Bool)
  /-- R360. The scrubber reads each table word every 2 s, correcting single-bit errors. -/
  | eccScrub (mem die index : Nat) (uncorrectable : Bool) (vrf af len pfx stage : Nat)
  /-- R376. A request held on an empty pool is granted when a buffer becomes available. -/
  | heldBufferGrant (pool : Nat)
  /-- R376. A die-link request held beyond HOLD × 100 ns is dropped and counted. -/
  | bufferHoldExpiry (die : Nat)
  /-- R381. A buffer is freed, or a double or foreign free is rejected and latched. -/
  | bufferFree (pool index tag : Nat)
  /-- R382. Each second unreferenced allocated buffers are found and freed after two sweeps. -/
  | bufferReclaimSweep
  /-- R385. The controller reads the next Basin bytes of a spilled queue into the staging area. -/
  | basinStageRead (kind index cls : Nat) (bad : Option (Nat × Nat))
  /-- R387. A stack ordered off holds no page, or 1 s passes, and remaining packets are dropped. -/
  | basinStackDrainEnd (stack : Nat)
  /-- R392. When a framer has room the traffic manager selects a frame through the hierarchy and charges the shapers. -/
  | downstreamSelect (channel pos space : Nat)
  /-- R406. The MAC starts the highest-priority frame that fits its open gate run. -/
  | uplinkFrameStart (sp : Nat)
  /-- R403. The gate list advances to its next entry at an entry boundary. -/
  | gateEntryChange (sp : Nat)
  /-- R404. At the change time the scheduled gate list replaces the list in force. -/
  | gateListChange (sp : Nat)
  /-- R407. The preemption verify exchange completes, or is retried every 10 ms. -/
  | preemptVerify (sp : Nat) (answered : Bool)
  /-- R416. A subport completes training and goes link-up. -/
  | uplinkLinkUp (sp deskew inverted : Nat) (miswire : Bool)
  /-- R415. A subport goes link-down. -/
  | uplinkLinkDown (sp signal locked : Nat)
  /-- R417. A periodic lane check detects, or after two clean checks clears, a lane fault. -/
  | laneFaultCheck (lane fault : Nat)
  /-- R415. Clearing EN takes the port's subports down and drops their queued frames. -/
  | uplCfgEnClear (port : Nat)
  /-- R415. A MODE write while EN is 0 changes the split and loads the timestamp corrections. -/
  | uplCfgModeWrite (port mode : Nat)
  /-- R431. A read of UPL_TSF_s_HEAD moves the oldest timestamp entry into the readout registers. -/
  | tsfHeadRead (sp : Nat)
  /-- R429. A SyncE output returns after its subport has held the link for 10 ms. -/
  | synceOutputReturn (sluice : Nat)
  /-- R430. A read of PTP_x_NOW_FRAC latches the domain's nanoseconds and seconds. -/
  | ptpNowFracRead (domain : Nat)
  /-- R423. Writing LOAD sets the domain's counter to SET_SEC and SET_NS. -/
  | ptpLoad (domain : Nat)
  /-- R423. Writing the high word of PTP_x_STEP adds the signed step to the domain. -/
  | ptpStep (domain : Nat) (high : BitVec 32)
  /-- R422. A new INCR takes effect with its high word, clamped to ±1,000 ppm. -/
  | ptpIncrWrite (domain : Nat) (high : BitVec 32)
  /-- R426. Writing ARM arms a compare unit with its target, or disarms it. -/
  | cmpArm (unit : Nat) (word : BitVec 32)
  /-- R427. A compare unit fires, pulses its output and raises its vector. -/
  | compareFire (unit : Nat)
  /-- R314. Writing START begins a cipher operation of the page or sets START_ERR while busy. -/
  | cryptoStart (func : Nat)
  /-- R318. Writing a CLEAR bit empties a key slot, after any running operation. -/
  | cryptoClear (func slots : Nat)
  /-- R317. A cipher operation completes, updating result, output and DONE in one clock. -/
  | cryptoOperationDone (func : Nat)
  /-- R321. Zeroise of one page aborts its operation and empties its slots. -/
  | cryptoZeroisePage (func : Nat)
  /-- R321. Zeroise of every page aborts their operations and empties every slot. -/
  | cryptoZeroiseAll
  /-- R466. Setting EN starts a channel reading descriptors from DMA_CHn_DESC, or sets CFG_ERR. -/
  | dmaEnable (channel : Nat)
  /-- R472. Clearing EN stops the channel at once and it reads DISABLED within 2 µs. -/
  | dmaDisable (channel : Nat)
  /-- R471. RESUME restarts a halted channel from DMA_CHn_DESC. -/
  | dmaResume (channel : Nat)
  /-- R466. KICK makes a waiting channel read its descriptor again. -/
  | dmaKick (channel : Nat)
  /-- R466. A channel reads a descriptor and uses it if OWN is set, or waits. -/
  | dmaDescriptorFetch (channel : Nat) (desc : Bytes) (more : Nat)
  /-- R465. The channel writes back a completed descriptor and follows NEXT. -/
  | dmaDescriptorComplete (channel : Nat) (data : Bytes)
  /-- R469. A bus error halts the channel, latches the address and writes back the descriptor with ERR. -/
  | dmaBusError (channel addr : Nat) (write last ecc : Bool) (count : Nat)
  /-- R468. A withdrawn unit ends the current descriptor with CODE 5. -/
  | dmaUnitWithdrawn (channel written : Nat)
  /-- R478. FREEZE stops counting on every die. -/
  | perfFreezeSet
  /-- R478. A snapshot trigger captures every counter into the shadow bank. -/
  | perfSnap
  /-- R478. CLEAR zeroes every performance counter. -/
  | perfClear
  /-- R478. An edge on PERF_FREEZE freezes counting or triggers a snapshot by PIN_MODE. -/
  | perfFreezePin (high : Bool)
  /-- R478. A snapshot completes, PERF_SNAP_SEQ increments and SNAP_DONE is set. -/
  | perfSnapDone
  /-- R479. At each window end a bandwidth monitor publishes the window's byte and frame totals. -/
  | bwWindowEnd (monitor : Nat)
  /-- R481. A traced packet's slot closes and its record is offered to the trace requester. -/
  | traceSlotClose (slot : Nat)
  /-- R482. Writing CW_CTRL.SNAP requests a counter window capture at the next T0. -/
  | cwSnap (func : Nat)
  /-- R482. The counter window records are filled, READY is set and the function's vector raised. -/
  | cwReady (func : Nat)
  /-- R297. A write of a select register loads the named object's state into its readout registers. -/
  | selectRegisterWrite (addr : Nat) (word : BitVec 32)
  /-- R488. Writing POWER_REQ with GO submits a power state request. -/
  | powerReqGo (state : Nat)
  /-- R490. After the 1 ms drain queues are served or discarded and domains switch off. -/
  | powerDrainEnd
  /-- R484. A domain completes its bring-up. -/
  | domainUp (domain : Nat)
  /-- R486. The Pavilion writes back the kept objects of a domain that came up. -/
  | domainRestore (domain : Nat)
  /-- R496. A regulator acknowledges a voltage step and the next step proceeds. -/
  | avsAck (bus : Nat) (ok : Bool)
  /-- R496. A step not acknowledged within 1 ms is repeated, and a second failure sets AVS_ERR. -/
  | avsTimeout (bus : Nat)
  /-- R490. A change completes, CUR_STATE updates, POWER_DONE is written and latched wakes and the queued request run. -/
  | powerChangeDone
  /-- R493. An enabled wake source acts or is latched while a change runs. -/
  | wakeEvent (source channel : Nat) (high : Bool)
  /-- R497. Every 100 ms the device may trim an adaptive rail by one step. -/
  | railTrim (rail mv : Nat)
  /-- R504. Every 1 ms the hub samples every sensor and evaluates alarms and thermal limits. -/
  | sensorSample (temps : List Nat) (rails : List (Nat × Nat))
  /-- R537. A die whose sensors read 102 °C or less for 1 s leaves throttling. -/
  | throttleExit (die : Nat)
  /-- R538. A stack at 90 °C or less for 1 s places pages again. -/
  | hbmHotExit (stack : Nat)
  /-- R501. A lockstep mismatch stops both cores, raises the failure flag and starts an unplanned restart. -/
  | lockstepMismatch
  /-- R501. Watchdog expiry starts an unplanned Pavilion restart. -/
  | watchdogExpiry
  /-- R501. An uncorrectable Pavilion SRAM error restarts the Pavilion or un-negotiates Kiosks. -/
  | pavilionSramUncorrectable (kind : Nat) (kiosks : List Nat)
  /-- R125. The Pavilion finishes running requests and restarts, keeping Kiosk state. -/
  | plannedRestart
  /-- R502. The restarted firmware restores Kiosk state, answers interrupted requests and sets FW_READY. -/
  | restartComplete (result fwIfVer imageVer : Nat)
  /-- R503. No ready within 2 s, or three restarts in 60 s, declares the Pavilion failed. -/
  | pavilionFailed
  /-- R508. Pending log entries are written to flash within their bound, retried on failure. -/
  | logFlashFlush (ok : Bool)
  /-- R513. Verification of the update slot ends in VERIFIED, ACTIVATING or IDLE. -/
  | updateVerifyDone (result : Nat)
  /-- R514. Activation writes the directory and performs a planned restart into the target slot. -/
  | updateActivate
  /-- R520. A reflectometry run completes and is compared with the previous run. -/
  | otdrRunDone (tree : Nat) (events : List (Nat × Nat × Nat))
  /-- R519. A run is abandoned on channel, tree, domain, role or restart change. -/
  | otdrRunAbandon (tree : Nat)
  /-- R523. An isolation round ends and halves the candidate set or concludes. -/
  | rogueRoundEnd (die : Nat) (energy : Bool)
  /-- R521. A periodic pin check detects or clears a pin fault. -/
  | pinFaultCheck (group idx : Nat) (fault : Bool)
  /-- R436. Every 1,000 ns the device sends a heartbeat on HB_OUT and the mirror link. -/
  | heartbeatSend
  /-- R437. A valid heartbeat arrives on HB_IN or the mirror link. -/
  | heartbeatRx (path width flags : Nat) (phase : Int)
  /-- R438. A path with no valid heartbeat for 3,250 ns is lost. -/
  | heartbeatPathLoss (path : Nat)
  /-- R440. When its cause ends the device clears FLAG_OUT and resumes standby heartbeats. -/
  | failureFlagEnd
  /-- R435. ARB_GRANT changes level, enabling formation or takeover from STANDBY_SYNCING. -/
  | arbGrantChange (high : Bool)
  /-- R435. With ARB_GRANT high and no ACTIVE claim for 10 µs the device becomes ACTIVE. -/
  | formation
  /-- R444. After the 16-tick watch a muted ACTIVE device resumes or enters STANDBY_SYNCING. -/
  | watchEnd (energy : Bool)
  /-- R455. A standby meeting every condition enters STANDBY_READY. -/
  | standbyReadyEntry (peerEnable peerKey peerAligned tickEqual : Bool)
  /-- R455. A channel DIVERGED for 1 ms returns the standby to STANDBY_SYNCING. -/
  | divergedTimeout (channel : Nat)
  /-- R456. All eight lanes locked and deskewed for 1 ms bring the mirror link up and start version negotiation. -/
  | mirrorLinkUp (pair low high laneMap : Nat)
  /-- R456. A lane losing lock takes the mirror link down and it retrains. -/
  | mirrorLinkDown (lock : Nat)
  /-- R457. A mirror record is accepted or discarded on CRC and applied to mirrored state. -/
  | mirrorRecordRx (number : Nat) (crcOk : Bool) (record : Rec)
  /-- R457. An acknowledgement releases records and lets mirrored commands be answered. -/
  | mirrorAckRx (number : Nat)
  /-- R457. No acknowledgement for 20 µs replays every unacknowledged record. -/
  | mirrorReplayTimeout
  /-- R452. No acknowledgement within 200 µs stops mirroring and sends DEMOTE. -/
  | mirrorAckTimeout
  /-- R454. The standby's bulk copy of mirrored state completes. -/
  | bulkCopyDone
  /-- R446. The standby acknowledges a SWITCH record and prepares for the switch tick. -/
  | switchRecordRx (number tick : Nat)
  /-- R446. At T0(s) − 300 ns and T0(s) the devices exchange transmission and roles. -/
  | plannedSwitchEdge
  /-- R448. A timing sample updates RED_CHi_SKEW and may set SKEW_VALID. -/
  | timingSampleRx (channel : Nat) (offset : Int)
  /-- R450. A census confirms or rejects the standby's held frames of a microframe. -/
  | censusRx (channel mf count crc : Nat)
  /-- R450. No census within 3 ticks discards the held frames. -/
  | censusTimeout (channel : Nat)
  /-- R447. A burst in a microframe not addressed by own maps is found by energy and received. -/
  | listenModeBurst (channel onu mf : Nat) (found : Bool)
  /-- R42. Input power fails and the rails fall in any order, taking the device to Off and losing log entries not yet in flash. -/
  | inputPowerFail
  /-- R92. The host sets Bus Master Enable, and a quiescent function may issue DMA requests and MSI-X messages again. -/
  | busMasterEnableSet (func : Nat) (msixEn fmask : Bool) (mps : Nat)
  /-- R92. A function returns from D3hot to D0, undoing the D3hot trigger of its disable sequence. -/
  | d0Entry (func : Nat)
  /-- R63. At t = 0.3 ms the PCIe controller and PHY leave reset and, if PCIE_PERST_N is already high, link training starts. -/
  | pcieControllerRelease
  /-- R63. PCIe link training completes and requests can reach the device. -/
  | pcieLinkUp
  /-- R159. At t = 0.1 ms PD00 leaves reset, TICK_NUM and UPTIME_NS start at 0 and the fuse controller begins reading. -/
  | pd00LeavesReset (clocks : Nat)
  /-- R484. A Basin stack begins to place pages 2 ms after its domain's bring-up. -/
  | stackPlacesPages (stack : Nat)
  /-- R23. A failed die-link lane is replaced by a spare, setting DEGRADED and updating SPARE_USED and SPARE_LEFT. -/
  | spareLaneReplace (link : Nat)
  /-- R320. The TRNG fails a health test, clearing TRNG_OK and incrementing CRYPTO_ENG_TRNG_FAIL. -/
  | trngHealthFail
  /-- R439. An uncorrectable error in Belvedere or mirror state raises the failure flag, mutes the device and enters STANDBY_SYNCING. -/
  | belvedereStateUncorrectable
  /-- R415. Setting UPL_q_CFG.EN lets the port's subports train with their partners. -/
  | uplCfgEnSet (port : Nat)
  deriving DecidableEq, Repr

end Sys2Proof
end

