-- ==== Sys2Proof/Decode.lean ====
section
/-! DEFINITION. Commands that a word spells. The table of operations gives no row any bits (every row's field list is empty),
so no word spells a command.
Choices and readings: log entry 10. -/

namespace Sys2Proof

/-- The command that a word of `nbits` bits spells: none, for the table gives bits to no row. -/
def decodeTableWord (_nbits _w : Nat) : Option Instr := none

end Sys2Proof
end

