-- ==== Sys2Proof/Machine/Bits.lean ====
section
/-! DEFINITION. Bit fields, byte order, signed numbers, checksums and sparse tables: the plain operations the meanings are written with.
Choices and readings: log entries 6 and 20. -/

namespace Sys2Proof.Machine

/-- Bit `i` of `n`. -/
def bit (n i : Nat) : Bool := n / 2 ^ i % 2 == 1

/-- The `w`-bit field of `n` whose lowest bit is `lo`. -/
def fld (n lo w : Nat) : Nat := n / 2 ^ lo % 2 ^ w

/-- `n` with bit `i` set or cleared. -/
def withBit (n i : Nat) (b : Bool) : Nat :=
  if bit n i == b then n else if b then n + 2 ^ i else n - 2 ^ i

/-- 1 for true, 0 for false. -/
def nb (b : Bool) : Nat := if b then 1 else 0

/-- A 32-bit word. -/
abbrev W32 := BitVec 32

/-- The low 32 bits of a number. -/
def w32 (n : Nat) : W32 := BitVec.ofNat 32 n

/-- The low 64 bits of a number. -/
def w64 (n : Nat) : BitVec 64 := BitVec.ofNat 64 n

/-- Saturation of a count. -/
def sat (top n : Nat) : Nat := if n > top then top else n

/-- Two's complement value of a `w`-bit field. -/
def signed (w n : Nat) : Int :=
  let m := n % 2 ^ w
  if m < 2 ^ (w - 1) then (m : Int) else (m : Int) - (2 ^ w : Nat)

/-- The `w`-bit two's complement field of a signed number. -/
def field (w : Nat) (i : Int) : Nat := (i % ((2 ^ w : Nat) : Int)).toNat

/-- A signed number held in `w` bits, saturating. -/
def satInt (w : Nat) (i : Int) : Int :=
  let hi : Int := ((2 ^ (w - 1) : Nat) : Int) - 1
  let lo : Int := -((2 ^ (w - 1) : Nat) : Int)
  if i > hi then hi else if i < lo then lo else i

/-- `k` bytes of `n`, least significant first. -/
def le : Nat → Nat → Bytes
  | 0, _ => []
  | k + 1, n => BitVec.ofNat 8 n :: le k (n / 256)

/-- The number whose bytes, least significant first, are given. -/
def ofLe : Bytes → Nat
  | [] => 0
  | b :: bs => b.toNat + 256 * ofLe bs

/-- `k` bytes of `n`, most significant first. -/
def be (k n : Nat) : Bytes := (le k n).reverse

/-- The number whose bytes, most significant first, are given. -/
def ofBe (bs : Bytes) : Nat := ofLe bs.reverse

/-- `len` bytes from offset `off`, padded with zero bytes at the end. -/
def slice (bs : Bytes) (off len : Nat) : Bytes :=
  let t := (bs.drop off).take len
  t ++ List.replicate (len - t.length) 0

/-- Little-endian number of `len` bytes at `off`. -/
def leAt (bs : Bytes) (off len : Nat) : Nat := ofLe (slice bs off len)

/-- Big-endian number of `len` bytes at `off`. -/
def beAt (bs : Bytes) (off len : Nat) : Nat := ofBe (slice bs off len)

/-- Ceiling division. -/
def ceilDiv (a b : Nat) : Nat := if b = 0 then 0 else (a + b - 1) / b

/-- Division rounding half up, for signed numerators. -/
def roundDiv (a : Int) (b : Nat) : Int :=
  if b = 0 then 0 else (2 * a + b) / (2 * (b : Int))

/-- One step of a reflected CRC: `poly` is the reflected polynomial. -/
def crcBits (poly : Nat) : Nat → Nat → Nat
  | 0, c => c
  | k + 1, c => crcBits poly k (if c % 2 = 1 then Nat.xor (c / 2) poly else c / 2)

/-- CRC-32 (IEEE 802.3 polynomial, reflected). -/
def crc32 (bs : Bytes) : Nat :=
  Nat.xor (bs.foldl (fun c b => crcBits 0xEDB88320 8 (Nat.xor c b.toNat)) 0xFFFFFFFF) 0xFFFFFFFF

/-- Exclusive or of byte strings, as long as the shorter. -/
def xorBytes (a b : Bytes) : Bytes := List.zipWith (fun x y => x ^^^ y) a b

/-- The value under a key. -/
def Tbl.get? {α : Type} : Tbl α → Nat → Option α
  | [], _ => none
  | (k, v) :: t, key => if k = key then some v else Tbl.get? t key

/-- The value under a key, or the value an unlisted key has. -/
def Tbl.look {α : Type} (dflt : α) (t : Tbl α) (key : Nat) : α := (Tbl.get? t key).getD dflt

/-- Remove a key. -/
def Tbl.erase {α : Type} : Tbl α → Nat → Tbl α
  | [], _ => []
  | (k, v) :: t, key => if k = key then Tbl.erase t key else (k, v) :: Tbl.erase t key

/-- Insert or replace, keeping the keys rising. -/
def Tbl.set {α : Type} : Tbl α → Nat → α → Tbl α
  | [], key, x => [(key, x)]
  | (k, v) :: t, key, x =>
    if key < k then (key, x) :: (k, v) :: t
    else if k = key then (key, x) :: t
    else (k, v) :: Tbl.set t key x

/-- Insert or replace in a table whose unlisted keys read `dflt`: storing that value removes the entry. -/
def Tbl.put {α : Type} [DecidableEq α] (dflt : α) (t : Tbl α) (key : Nat) (x : α) : Tbl α :=
  if x = dflt then Tbl.erase t key else Tbl.set t key x

/-- Change the value under a key of a table whose unlisted keys read `dflt`. -/
def Tbl.upd {α : Type} [DecidableEq α] (dflt : α) (t : Tbl α) (key : Nat) (f : α → α) : Tbl α :=
  Tbl.put dflt t key (f (Tbl.look dflt t key))

/-- Change an existing entry; nothing where the key is unlisted. -/
def Tbl.modify {α : Type} (t : Tbl α) (key : Nat) (f : α → α) : Tbl α :=
  match Tbl.get? t key with
  | some v => Tbl.set t key (f v)
  | none => t

/-- Keep the entries whose key passes. -/
def Tbl.keep {α : Type} (p : Nat → Bool) (t : Tbl α) : Tbl α := t.filter (fun e => p e.1)

/-- The keys, rising. -/
def Tbl.keys {α : Type} (t : Tbl α) : List Nat := t.map Prod.fst

/-- Every value passed through a function. -/
def Tbl.mapVals {α : Type} (t : Tbl α) (f : Nat → α → α) : Tbl α := t.map (fun e => (e.1, f e.1 e.2))

/-- Every value passed through a function, in a table whose unlisted keys read `dflt`. -/
def Tbl.mapPut {α : Type} [DecidableEq α] (dflt : α) (t : Tbl α) (f : Nat → α → α) : Tbl α :=
  (Tbl.mapVals t f).filter (fun e => decide (e.2 ≠ dflt))

/-- Strictly rising keys. -/
def Tbl.rising {α : Type} : Tbl α → Bool
  | [] => true
  | [_] => true
  | (k, _) :: (j, w) :: t => decide (k < j) && Tbl.rising ((j, w) :: t)

/-- The canonical form of a table whose unlisted keys read `dflt`. -/
def Tbl.wf {α : Type} [DecidableEq α] (dflt : α) (t : Tbl α) : Bool :=
  Tbl.rising t && t.all (fun e => decide (e.2 ≠ dflt))

/-- The canonical form of a memory: rising addresses, no cell holding the 0 that an unlisted address reads as. -/
def Memory.wf (m : Mem) : Bool := Tbl.wf (0 : Byte) m

/-- Read one byte. -/
def Mem.byte (m : Mem) (a : Nat) : Byte := Tbl.look (0 : Byte) m a

/-- Write one byte, keeping the canonical form. -/
def Mem.poke (m : Mem) (a : Nat) (b : Byte) : Mem := Tbl.put (0 : Byte) m a b

/-- Read `n` bytes from `a`. -/
def Mem.read (m : Mem) (a n : Nat) : Bytes := (List.range n).map (fun i => Mem.byte m (a + i))

/-- Write a string of bytes from `a`. -/
def Mem.write (m : Mem) (a : Nat) : Bytes → Mem
  | [] => m
  | b :: bs => Mem.write (Mem.poke m a b) (a + 1) bs

/-- First position of a list element that passes. -/
def findIdx {α : Type} (p : α → Bool) (l : List α) : Option Nat :=
  let i := l.findIdx p
  if i < l.length then some i else none

/-- Number of list elements that pass. -/
def countP {α : Type} (p : α → Bool) (l : List α) : Nat := (l.filter p).length

/-- The element at an index, or a default. -/
def nth {α : Type} (dflt : α) (l : List α) (i : Nat) : α := l.getD i dflt

/-- The list with one element replaced. -/
def setAt {α : Type} (l : List α) (i : Nat) (x : α) : List α := l.set i x

/-- The list with one element changed. -/
def modAt {α : Type} (l : List α) (i : Nat) (f : α → α) : List α := l.modify i f

end Sys2Proof.Machine
end

