-- ==== Sys2Proof/Machine/Cipher.lean ====
section
/-! DEFINITION. The cryptographic algorithms that the specification names by standard (R310, R311, R314): AES (FIPS 197),
CTR (SP 800-38A), GCM (SP 800-38D), SHA-384 (FIPS 180-4) and the curve P-384 (SP 800-186). PRESUMED from those standards (log entry 20).
Choices and readings: log entry 20. -/

namespace Sys2Proof.Machine

/-! ## AES -/

/-- Multiplication of a byte by x in GF(2^8). -/
def xtime (a : Nat) : Nat := Nat.xor (2 * a) (a / 128 * 0x11B)

/-- Multiplication in GF(2^8): the multiples of the first factor by the powers of x in the second. -/
def gfMul (a b : Nat) : Nat :=
  let a1 := xtime a
  let a2 := xtime a1
  let a3 := xtime a2
  let a4 := xtime a3
  let a5 := xtime a4
  let a6 := xtime a5
  Nat.xor (Nat.xor (Nat.xor (b % 2 * a) (b / 2 % 2 * a1)) (Nat.xor (b / 4 % 2 * a2) (b / 8 % 2 * a3)))
    (Nat.xor (Nat.xor (b / 16 % 2 * a4) (b / 32 % 2 * a5)) (Nat.xor (b / 64 % 2 * a6) (b / 128 % 2 * xtime a6)))

/-- The tables of FIPS 197, figures 7 and 14, as eight rows of 32 bytes: the substitution and its inverse. -/
def sbox : List Nat := [
    0x637c777bf26b6fc53001672bfed7ab76ca82c97dfa5947f0add4a2af9ca472c0,
    0xb7fd9326363ff7cc34a5e5f171d8311504c723c31896059a071280e2eb27b275,
    0x09832c1a1b6e5aa0523bd6b329e32f8453d100ed20fcb15b6acbbe394a4c58cf,
    0xd0efaafb434d338545f9027f503c9fa851a3408f929d38f5bcb6da2110fff3d2,
    0xcd0c13ec5f974417c4a77e3d645d197360814fdc222a908846eeb814de5e0bdb,
    0xe0323a0a4906245cc2d3ac629195e479e7c8376d8dd54ea96c56f4ea657aae08,
    0xba78252e1ca6b4c6e8dd741f4bbd8b8a703eb5664803f60e613557b986c11d9e,
    0xe1f8981169d98e949b1e87e9ce5528df8ca1890dbfe6426841992d0fb054bb16]
def invSbox : List Nat := [
    0x52096ad53036a538bf40a39e81f3d7fb7ce339829b2fff87348e4344c4dee9cb,
    0x547b9432a6c2233dee4c950b42fac34e082ea16628d924b2765ba2496d8bd125,
    0x72f8f66486689816d4a45ccc5d65b6926c704850fdedb9da5e154657a78d9d84,
    0x90d8ab008cbcd30af7e45805b8b34506d02c1e8fca3f0f02c1afbd0301138a6b,
    0x3a9111414f67dcea97f2cfcef0b4e67396ac7422e7ad3585e2f937e81c75df6e,
    0x47f11a711d29c5896fb7620eaa18be1bfc563e4bc6d279209adbc0fe78cd5af4,
    0x1fdda8338807c731b11210592780ec5f60517fa919b54a0d2de57a9f93c99cef,
    0xa0e03b4dae2af5b0c8ebbb3c83539961172b047eba77d626e169146355210c7d]

/-- An entry of a table. -/
def boxAt (t : List Nat) (a : Nat) : Nat := nth 0 t (a / 32) / 2 ^ (8 * (31 - a % 32)) % 256

/-- The AES substitution. -/
def subByte (a : Nat) : Nat := boxAt sbox a

/-- The inverse substitution. -/
def invSubByte (a : Nat) : Nat := boxAt invSbox a

/-- Byte-wise exclusive or. -/
def xorNats (a b : List Nat) : List Nat := List.zipWith Nat.xor a b

/-- Key expansion: `n` further words after the given ones, newest first; `i` is the number of the next word. -/
def aesExpandAux (nk : Nat) : Nat → Nat → Nat → List (List Nat) → List (List Nat)
  | 0, _, _, ws => ws
  | n + 1, i, rcon, ws =>
    let prev := ws.headD []
    let back := nth [] ws (nk - 1)
    let t :=
      if i % nk = 0 then
        match prev.map subByte with
        | a :: r => xorNats (r ++ [a]) [rcon, 0, 0, 0]
        | [] => []
      else if nk > 6 && i % nk = 4 then prev.map subByte
      else prev
    aesExpandAux nk n (i + 1) (if i % nk = 0 then xtime rcon else rcon) (xorNats back t :: ws)

/-- Four-byte groups. -/
def words4 : Nat → List Nat → List (List Nat)
  | 0, _ => []
  | k + 1, l => l.take 4 :: words4 k (l.drop 4)

/-- Sixteen-byte groups. -/
def blocks16 : Nat → List Nat → List (List Nat)
  | 0, _ => []
  | k + 1, l => l.take 16 :: blocks16 k (l.drop 16)

/-- Round keys of 16 bytes, first round first. -/
def aesKeys (key : List Nat) : List (List Nat) :=
  let nk := key.length / 4
  let total := 4 * (nk + 7)
  let ws := (aesExpandAux nk (total - nk) nk 1 (words4 nk key).reverse).reverse
  blocks16 (nk + 7) (ws.foldr (fun w acc => w ++ acc) [])

/-- ShiftRows on a column-major state. -/
def shiftRows (s : List Nat) : List Nat := (List.range 16).map fun i => nth 0 s ((i + 4 * (i % 4)) % 16)

/-- InvShiftRows. -/
def invShiftRows (s : List Nat) : List Nat := (List.range 16).map fun i => nth 0 s ((i + 12 * (i % 4)) % 16)

/-- MixColumns with the first row of coefficients. -/
def mixWith (c0 c1 c2 c3 : Nat) (s : List Nat) : List Nat :=
  (List.range 16).map fun i =>
    let b := i / 4 * 4
    let g := fun k => nth 0 s (b + (i + k) % 4)
    [gfMul c1 (g 1), gfMul c2 (g 2), gfMul c3 (g 3)].foldl Nat.xor (gfMul c0 (g 0))

/-- Encryption rounds after the first key addition. -/
def aesRounds : List (List Nat) → List Nat → List Nat
  | [], s => s
  | [k], s => xorNats (shiftRows (s.map subByte)) k
  | k :: ks, s => aesRounds ks (xorNats (mixWith 2 3 1 1 (shiftRows (s.map subByte))) k)

/-- AES encryption of one block under expanded keys. -/
def aesBlock (ks : List (List Nat)) (b : List Nat) : List Nat :=
  match ks with
  | [] => b
  | k :: rest => aesRounds rest (xorNats b k)

/-- Decryption rounds, keys in reverse order. -/
def aesInvRounds : List (List Nat) → List Nat → List Nat
  | [], s => s
  | [k], s => xorNats ((invShiftRows s).map invSubByte) k
  | k :: ks, s => aesInvRounds ks (mixWith 14 11 13 9 (xorNats ((invShiftRows s).map invSubByte) k))

/-- AES decryption of one block under expanded keys. -/
def aesInvBlock (ks : List (List Nat)) (b : List Nat) : List Nat :=
  match ks.reverse with
  | [] => b
  | k :: rest => aesInvRounds rest (xorNats b k)

/-- Bytes as numbers. -/
def nats (b : Bytes) : List Nat := b.map BitVec.toNat

/-- Numbers as bytes. -/
def bytesOf (l : List Nat) : Bytes := l.map (BitVec.ofNat 8)

/-- AES encryption of a 16-byte block. -/
def aesEnc (key block : Bytes) : Bytes := bytesOf (aesBlock (aesKeys (nats key)) (nats block))

/-! ## Counter mode and GCM -/

/-- Keystream blocks from a nonce and a first block counter. -/
def keystream (ks : List (List Nat)) (nonce : List Nat) : Nat → Nat → List Nat
  | 0, _ => []
  | k + 1, c => aesBlock ks (nonce ++ nats (be 4 c)) ++ keystream ks nonce k (c + 1)

/-- Counter mode: counter block nonce ‖ counter, incremented per block. -/
def aesCtr (key nonce : Bytes) (first : Nat) (data : Bytes) : Bytes :=
  bytesOf (List.zipWith Nat.xor (nats data) (keystream (aesKeys (nats key)) (nats nonce) (ceilDiv data.length 16) first))

/-- Multiplication in GF(2^128) of GCM: `k` bits of `x`, most significant first. -/
def ghashMul : Nat → Nat → Nat → Nat → Nat
  | 0, _, _, z => z
  | k + 1, x, v, z =>
    let z := if bit x k then Nat.xor z v else z
    ghashMul k x (if v % 2 = 1 then Nat.xor (v / 2) (0xE1 * 2 ^ 120) else v / 2) z

/-- GHASH over `n` blocks. -/
def ghash (h : Nat) : Nat → Bytes → Nat → Nat
  | 0, _, y => y
  | n + 1, b, y => ghash h n (b.drop 16) (ghashMul 128 (Nat.xor y (ofBe (b.take 16))) h 0)

/-- Zero padding to a whole number of blocks. -/
def pad16 (b : Bytes) : Bytes := b ++ List.replicate ((16 - b.length % 16) % 16) 0

/-- GCM tag of a ciphertext under a 96-bit nonce. -/
def gcmTag (key nonce aad cipher : Bytes) : Bytes :=
  let ks := aesKeys (nats key)
  let h := ofBe (bytesOf (aesBlock ks (List.replicate 16 0)))
  let text := pad16 aad ++ pad16 cipher ++ be 8 (8 * aad.length) ++ be 8 (8 * cipher.length)
  let s := ghash h (text.length / 16) text 0
  be 16 (Nat.xor s (ofBe (bytesOf (aesBlock ks (nats nonce ++ [0, 0, 0, 1])))))

/-- GCM encryption: ciphertext and tag. -/
def gcmEnc (key nonce aad data : Bytes) : Bytes × Bytes :=
  let c := aesCtr key nonce 2 data
  (c, gcmTag key nonce aad c)

/-! ## Key wrap (R311) -/

/-- One unwrap step of block `i` (from `n` down to 1) in round `j`. -/
def unwrapRow (ks : List (List Nat)) (n j : Nat) : Nat → Nat → List Nat → Nat × List Nat
  | 0, a, r => (a, r)
  | i + 1, a, r =>
    let b := aesInvBlock ks (nats (be 8 (Nat.xor a (n * j + (i + 1))) ++ be 8 (nth 0 r i)))
    unwrapRow ks n j i (ofBe (bytesOf (b.take 8))) (setAt r i (ofBe (bytesOf (b.drop 8))))

/-- Rounds 5 down to 0. -/
def unwrapRounds (ks : List (List Nat)) (n : Nat) : Nat → Nat → List Nat → Nat × List Nat
  | 0, a, r => (a, r)
  | j + 1, a, r =>
    let (a, r) := unwrapRow ks n j n a r
    unwrapRounds ks n j a r

/-- R311: the inverse construction; the key if the recovered value of a is right. -/
def keyUnwrap (tk wrapped : Bytes) : Option Bytes :=
  let n := wrapped.length / 8 - 1
  let r := (List.range n).map fun i => beAt wrapped (8 * (i + 1)) 8
  let (a, r) := unwrapRounds (aesKeys (nats tk)) n 6 (beAt wrapped 0 8) r
  if a = 0xA6A6A6A6A6A6A6A6 then some (r.foldr (fun x acc => be 8 x ++ acc) []) else none

/-- One wrap step of block `i`, from 1 to `n`. -/
def wrapRow (ks : List (List Nat)) (n j : Nat) : Nat → Nat → List Nat → Nat × List Nat
  | 0, a, r => (a, r)
  | k + 1, a, r =>
    let i := n - k
    let b := aesBlock ks (nats (be 8 a ++ be 8 (nth 0 r (i - 1))))
    wrapRow ks n j k (Nat.xor (ofBe (bytesOf (b.take 8))) (n * j + i)) (setAt r (i - 1) (ofBe (bytesOf (b.drop 8))))

/-- R311: wrap a key under a transport key. -/
def keyWrap (tk key : Bytes) : Bytes :=
  let n := key.length / 8
  let ks := aesKeys (nats tk)
  let r0 := (List.range n).map fun i => beAt key (8 * i) 8
  let (a, r) := (List.range 6).foldl (fun (s : Nat × List Nat) j => wrapRow ks n j n s.1 s.2) (0xA6A6A6A6A6A6A6A6, r0)
  be 8 a ++ r.foldr (fun x acc => be 8 x ++ acc) []

/-! ## SHA-384 -/

/-- Integer `e`-th root by bits: the largest r with r^e ≤ n. -/
def rootBits (e n : Nat) : Nat → Nat → Nat
  | 0, r => r
  | k + 1, r => rootBits e n k (if (r + 2 ^ k) ^ e ≤ n then r + 2 ^ k else r)

/-- Smallest divisor test below `k + 2`. -/
def isPrime (n : Nat) : Bool := decide (2 ≤ n) && (List.range n).all fun k => decide (k < 2) || n % k != 0

/-- The first 80 primes (FIPS 180-4 takes its constants from them). -/
def primes80 : List Nat := (List.range 410).filter isPrime

/-- The 80 round constants: the first 64 bits of the fractional parts of the cube roots of the first 80 primes. -/
def shaK : List Nat := primes80.map fun p => rootBits 3 (p * 2 ^ 192) 68 0 % 2 ^ 64

/-- The initial hash of SHA-384: fractional parts of the square roots of the ninth to sixteenth primes. -/
def sha384Init : List Nat := ((primes80.drop 8).take 8).map fun p => rootBits 2 (p * 2 ^ 128) 68 0 % 2 ^ 64

/-- Rotate a 64-bit word right. -/
def rotr64 (x k : Nat) : Nat := x / 2 ^ k + x * 2 ^ (64 - k) % 2 ^ 64

/-- The schedule's next words, newest first. -/
def shaSchedule : Nat → List Nat → List Nat
  | 0, w => w
  | k + 1, w =>
    let a := nth 0 w 1
    let b := nth 0 w 14
    let s1 := Nat.xor (Nat.xor (rotr64 a 19) (rotr64 a 61)) (a / 64)
    let s0 := Nat.xor (Nat.xor (rotr64 b 1) (rotr64 b 8)) (b / 128)
    shaSchedule k (((s1 + nth 0 w 6 + s0 + nth 0 w 15) % 2 ^ 64) :: w)

/-- One round over the eight working variables. -/
def shaRound (v : List Nat) (kw : Nat) : List Nat :=
  match v with
  | [a, b, c, d, e, f, g, h] =>
    let s1 := Nat.xor (Nat.xor (rotr64 e 14) (rotr64 e 18)) (rotr64 e 41)
    let ch := Nat.xor (Nat.land e f) (Nat.land (2 ^ 64 - 1 - e) g)
    let t1 := h + s1 + ch + kw
    let s0 := Nat.xor (Nat.xor (rotr64 a 28) (rotr64 a 34)) (rotr64 a 39)
    let maj := Nat.xor (Nat.xor (Nat.land a b) (Nat.land a c)) (Nat.land b c)
    [(t1 + s0 + maj) % 2 ^ 64, a, b, c, (d + t1) % 2 ^ 64, e, f, g]
  | _ => v

/-- One block of 128 bytes. -/
def shaBlock (ks : List Nat) (h : List Nat) (b : Bytes) : List Nat :=
  let w := (shaSchedule 64 ((List.range 16).map fun i => beAt b (8 * i) 8).reverse).reverse
  let v := (List.zipWith (fun k w => k + w) ks w).foldl shaRound h
  List.zipWith (fun x y => (x + y) % 2 ^ 64) h v

/-- Every block. -/
def shaBlocks (ks : List Nat) : Nat → Bytes → List Nat → List Nat
  | 0, _, h => h
  | n + 1, b, h => shaBlocks ks n (b.drop 128) (shaBlock ks h (b.take 128))

/-- SHA-384. -/
def sha384 (m : Bytes) : Bytes :=
  let z := (240 - (m.length + 1) % 128) % 128
  let b := m ++ [0x80] ++ List.replicate z 0 ++ be 16 (8 * m.length)
  let h := shaBlocks shaK (b.length / 128) b sha384Init
  ((h.take 6).foldr (fun x acc => be 8 x ++ acc) [])

/-! ## P-384 -/

namespace P384
/-- Field prime. -/
def p : Nat := 2 ^ 384 - 2 ^ 128 - 2 ^ 96 + 2 ^ 32 - 1
/-- Curve coefficient b; a is −3. -/
def b : Nat := 0xb3312fa7e23ee7e4988e056be3f82d19181d9c6efe8141120314088f5013875ac656398d8a2ed19d2a85c8edd3ec2aef
/-- Group order. -/
def n : Nat := 0xffffffffffffffffffffffffffffffffffffffffffffffffc7634d81f4372ddf581a0db248b0a77aecec196accc52973
/-- Base point. -/
def gx : Nat := 0xaa87ca22be8b05378eb1c71ef320ad746e1d3b628ba79b9859f741e082542a385502f25dbf55296c3a545e3872760ab7
def gy : Nat := 0x3617de4a96262c6f5d9e98bf9292dc29f8f41dbd289a147ce9da3113b5f0b8c00a60b1ce1d7e819d7a431d7c90ea0e5f

/-- A point lies on the curve. -/
def onCurve (x y : Nat) : Bool := decide (x < p) && decide (y < p) && (y * y) % p == (x * x % p * x + (p - 3) * x + b) % p

/-- Power modulo p, `k` bits of the exponent. -/
def powMod : Nat → Nat → Nat → Nat
  | 0, _, _ => 1
  | k + 1, a, e => (if e % 2 = 1 then a else 1) * powMod k (a * a % p) (e / 2) % p

/-- Inverse modulo p. -/
def inv (a : Nat) : Nat := powMod 384 (a % p) (p - 2)

/-- Addition of affine points; none is the point at infinity. -/
def add : Option (Nat × Nat) → Option (Nat × Nat) → Option (Nat × Nat)
  | none, q => q
  | q, none => q
  | some (x1, y1), some (x2, y2) =>
    if x1 = x2 && (y1 + y2) % p = 0 then none
    else
      let l := if x1 = x2 then (3 * x1 * x1 + p - 3) * inv (2 * y1) % p else (y2 + p - y1) * inv (x2 + p - x1) % p
      let x3 := (l * l + 2 * p - x1 - x2) % p
      some (x3, (l * (x1 + p - x3) + p - y1) % p)

/-- Scalar multiplication, `k` bits of the scalar. -/
def mul : Nat → Nat → Option (Nat × Nat) → Option (Nat × Nat)
  | 0, _, _ => none
  | k + 1, e, q => add (if e % 2 = 1 then q else none) (mul k (e / 2) (add q q))

/-- Uncompressed form of a point. -/
def encode : Option (Nat × Nat) → Bytes
  | some (x, y) => 0x04 :: be 48 x ++ be 48 y
  | none => List.replicate 97 0
end P384

end Sys2Proof.Machine
end

