-- ==== Sys2Proof/Config.lean ====
section
/-! DEFINITION. What the specification leaves open: constants without a body, so that nothing can be proved of their values.
Each is applied to the number of draws made so far (`Dev.draws`) or to what the value depends on.
Choices and readings: log entries 2, 36, 37, 38, 39 and 40. -/

namespace Sys2Proof

/-- A free value: the `n`-th draw (log entry 2). -/
opaque Config.freeValue : Nat → Nat

/-- One random byte of the TRNG (R320): the `n`-th draw. -/
opaque Config.trngByte : Nat → Byte

/-- The fused 64-bit ID of a die (stage 1 of start-up), by DIE encoding. -/
opaque Config.dieId : Nat → BitVec 64

/-- The key stream of AES-128 counter mode on a line (ALG 0): key, direction, tick of the microframe, position, byte index. Its
counter block is laid out by the recommendation of the mode, which the specification does not repeat. -/
opaque Config.lineStream : Bytes → Nat → Nat → Nat → Nat → Byte

/-- The two bucket hashes of the exact-match tables (R352): way, seed and key to a bucket number, reduced by the caller. -/
opaque Config.emHash : Nat → Nat → Bytes → Nat

/-- The header error control of an 8-byte structure, over its bits 63:13 (R190): ITU-T G.9804.2 gives the code, not the specification. -/
opaque Config.hec : Nat → BitVec 13

/-- Sectors of the ring of entries in the flash log area (R508): the flash is at least 512 MiB (R53), and the board fixes its size. -/
opaque Config.logSectors : Nat

end Sys2Proof
end

