-- ==== Sys2Proof/Machine/Addr.lean ====
section
/-! DEFINITION. The PF0 BAR0 map (Table 4-5): where every register stands, what a write does to it, its reset value and its power domain.
Choices and readings: log entry 14. -/

namespace Sys2Proof.Machine

/-- Table 4-5: base of Dike `n`. -/
def dikeBase (n : Nat) : Nat := 0x1000000 + n * 0x800000

/-- Table 4-5: base of Sluice `n`. -/
def sluiceBase (n : Nat) : Nat := 0x3000000 + n * 0x800000

/-- A per-channel register: block offset in its Dike, stride, channel. -/
def chAddr (block stride c : Nat) : Nat := dikeBase (c / 128) + block + stride * (c % 128)

/-- A register of a datapath die that has one offset on Dikes and one on Sluices (DIE encoding). -/
def dieAddr (onDike onSluice die : Nat) : Nat := if die < 4 then dikeBase die + onDike else sluiceBase (die - 4) + onSluice

/-- A per-subport register of subport `s` = PORT × 8 + SUBPORT. -/
def subAddr (block stride s : Nat) : Nat := sluiceBase (s / 256) + block + stride * (s % 256)

/-- A per-port register of uplink port `p`. -/
def portAddr (off p : Nat) : Nat := sluiceBase (p / 32) + 0x100 * (p % 32) + off

namespace A

/-! GLOBAL (Table 4-6). -/
def globalId : Nat := 0x000
def globalCtrl : Nat := 0x004
def globalScratch : Nat := 0x008
def refclk : Nat := 0x100
def strapStatus : Nat := 0x104
def bootStatus : Nat := 0x108
def fuseStatus : Nat := 0x10C
def bootTime : Nat := 0x110
def daeAddr : Nat := 0x120
def daeInfo : Nat := 0x124
def daeCount : Nat := 0x128

/-! POWER (Table 20-8). -/
def powerReq : Nat := 0x100000
def powerReqMask : Nat := 0x100004
def powerWakeCfg : Nat := 0x100018
def powerWakeInfo : Nat := 0x100020
def powerTpThr : Nat := 0x100024
def powerCause : Nat := 0x100028
def powerIntEn : Nat := 0x10002C
def powerAvsStatus : Nat := 0x100030
def powerDiscard : Nat := 0x100060
def powerChanges : Nat := 0x100068
def powerLastUs : Nat := 0x100070

/-! TIME (Tables 7-3 and 17-5). -/
def ptpCtrl (x : Nat) : Nat := 0x200000 + 0x100 * x
def ptpIncr (x : Nat) : Nat := 0x200008 + 0x100 * x
def ptpNowFrac (x : Nat) : Nat := 0x200010 + 0x100 * x
def ptpNowNs (x : Nat) : Nat := 0x200014 + 0x100 * x
def ptpNowSec (x : Nat) : Nat := 0x200018 + 0x100 * x
def ptpSetNs (x : Nat) : Nat := 0x200020 + 0x100 * x
def ptpSetSec (x : Nat) : Nat := 0x200028 + 0x100 * x
def ptpStep (x : Nat) : Nat := 0x200030 + 0x100 * x
def ptpSteps (x : Nat) : Nat := 0x200038 + 0x100 * x
def ptpRefDiff : Nat := 0x200200
def cmpCtrl (m : Nat) : Nat := 0x201000 + 0x40 * m
def cmpStatus (m : Nat) : Nat := 0x201004 + 0x40 * m
def cmpTgtNs (m : Nat) : Nat := 0x201008 + 0x40 * m
def cmpTgtSec (m : Nat) : Nat := 0x201010 + 0x40 * m
def cmpPeriod (m : Nat) : Nat := 0x201018 + 0x40 * m
def cmpWidth (m : Nat) : Nat := 0x20101C + 0x40 * m
def cmpFired (m : Nat) : Nat := 0x201020 + 0x40 * m
def cmpMissed (m : Nat) : Nat := 0x201028 + 0x40 * m
def tickCtrl : Nat := 0x208000
def tickStatus : Nat := 0x208004
def tickNum : Nat := 0x208008
def tickPhaseErr : Nat := 0x208010
def tickAlarmNs : Nat := 0x208014
def uptimeNs : Nat := 0x208018
def tickSteps : Nat := 0x208020
def tickOvrTotal : Nat := 0x208024

/-! DMA (Table 19-5). -/
def dma (n off : Nat) : Nat := 0x300000 + 0x40 * n + off
def dmaCfg (n : Nat) : Nat := dma n 0x04
def dmaCause (n : Nat) : Nat := dma n 0x14
def dmaIntEn (n : Nat) : Nat := dma n 0x18
def dmaErrAddr (n : Nat) : Nat := dma n 0x20
def dmaDescs (n : Nat) : Nat := dma n 0x28
def dmaErrs (n : Nat) : Nat := dma n 0x30
def dmaUnitDrop (n : Nat) : Nat := dma n 0x38
def dmaUnserved : Nat := 0x300800

/-! PERF (Table 19-8). -/
def perfCfg (d j : Nat) : Nat := 0x400000 + 0x1000 * d + 0x10 * j
def perfFilt (d j : Nat) : Nat := perfCfg d j + 4
def perfOvf (d : Nat) : Nat := 0x400000 + 0x1000 * d + 0x700
def perfCtrl : Nat := 0x408000
def perfCause : Nat := 0x408008
def perfIntEn : Nat := 0x40800C
def perfSnapSeq : Nat := 0x408010
def perfSnapTick : Nat := 0x408018
def perfSnapMissed : Nat := 0x408020
def traceCfg : Nat := 0x40A000
def traceTagged : Nat := 0x40A008
def traceSkip : Nat := 0x40A010
def traceLost : Nat := 0x40A018
def bwCfg (m : Nat) : Nat := 0x409000 + 0x20 * m
def bwWin (m : Nat) : Nat := bwCfg m + 4
def bwBytes (m : Nat) : Nat := bwCfg m + 8
def bwFrames (m : Nat) : Nat := bwCfg m + 0x10
def bwPeak (m : Nat) : Nat := bwCfg m + 0x18

/-! BUFMGR (Table 15-6). -/
def bufCtrl : Nat := 0x500000
def bufCause : Nat := 0x500008
def bufIntEn : Nat := 0x50000C
def bufPool (n off : Nat) : Nat := 0x500100 + 0x20 * n + off
def bufWarn (n : Nat) : Nat := bufPool n 0x10
def bufDefq (n : Nat) : Nat := bufPool n 0x14
def bufOversize : Nat := 0x500200
def bufQuotaDrop : Nat := 0x500208
def bufTenantDrop : Nat := 0x500210
def bufHoldDrop : Nat := 0x500218
def bufEmptyFail : Nat := 0x500220
def bufDfree : Nat := 0x500228
def bufFfree : Nat := 0x500230
def bufReclaim : Nat := 0x500238
def basinDrop : Nat := 0x500240
def basinEccUncorr : Nat := 0x500248
def basinStackDrop : Nat := 0x500250
def bufErrAddr : Nat := 0x500300
def bufErrInfo : Nat := 0x500304
def bufErrOwner : Nat := 0x500308
def bufErrReq : Nat := 0x50030C
def bufOwnerSel : Nat := 0x500400
def bufOwnerCfg : Nat := 0x500404
def bufOwnerPages : Nat := 0x500408
def bufSpillProf (p : Nat) : Nat := 0x500500 + 4 * p

/-! CRYPTO engine (Table 12-11). -/
def cryptoEngStatus : Nat := 0x708000
def cryptoEngZeroise : Nat := 0x708004
def cryptoTrngFail : Nat := 0x708010

/-! MIRROR (Table 18-9). -/
def redCause : Nat := 0x800004
def redIntEn : Nat := 0x800008
def redPhase : Nat := 0x80000C
def redLvdsMiss : Nat := 0x800010
def redMirMiss : Nat := 0x800018
def redSwitches : Nat := 0x800020
def redDsDiscard : Nat := 0x800028
def mirLaneMap : Nat := 0x801004
def mirCrc : Nat := 0x801008
def mirReplay : Nat := 0x801010
def mirTx : Nat := 0x801018
def mirRx : Nat := 0x801020

/-! PAV (Tables 21-8 and 22-7). -/
def pavCfg : Nat := 0x900004
def pavCause : Nat := 0x900008
def pavIntEn : Nat := 0x90000C
def pavTempWarn : Nat := 0x900020
def pavTempCrit : Nat := 0x900024
def pavHbmWarn : Nat := 0x900028
def pavOtdrPilot : Nat := 0x900034
def pavOtdrReflThr : Nat := 0x900038
def rogueStatus (n : Nat) : Nat := 0x900040 + 4 * n
def pavGpioOut : Nat := 0x900050
def pavGpioOe : Nat := 0x900054
def pavGpioFault : Nat := 0x90005C
def pavFlashErr : Nat := 0x900068
def thermCause : Nat := 0x900104
def thermIntEn : Nat := 0x900108
def thermThrottleTicks : Nat := 0x900110

/-! Dike downstream line and BCL (Table 8-13); `e` is the engine 0 to 31. -/
def bclStatus (e : Nat) : Nat := dikeBase (e / 8) + 0x1000 + 4 * (e % 8)
def bclSkew (e : Nat) : Nat := dikeBase (e / 8) + 0x1020 + 4 * (e % 8)
def dsDelay (e : Nat) : Nat := dikeBase (e / 8) + 0x1040 + 4 * (e % 8)
def bclCrc (e : Nat) : Nat := dikeBase (e / 8) + 0x1080 + 8 * (e % 8)
def todSfc (n : Nat) : Nat := dikeBase n + 0x1100
def todSec (n : Nat) : Nat := dikeBase n + 0x1108
def todSub (n : Nat) : Nat := dikeBase n + 0x1110
def todStatus (n : Nat) : Nat := dikeBase n + 0x1118

/-! Dike receive quadrant (Tables 9-5 and 18-12). -/
def usCfg (c : Nat) : Nat := chAddr 0x200000 4 c
def usStatus (c : Nat) : Nat := chAddr 0x200400 4 c
def usBits (c : Nat) : Nat := chAddr 0x210000 0x40 c
def usPrefec (c : Nat) : Nat := chAddr 0x210008 0x40 c
def usCw (c : Nat) : Nat := chAddr 0x210010 0x40 c
def usCwUncorr (c : Nat) : Nat := chAddr 0x210018 0x40 c
def usBursts (c : Nat) : Nat := chAddr 0x210020 0x40 c
def usMissed (c : Nat) : Nat := chAddr 0x210028 0x40 c
def usPoisoned (c : Nat) : Nat := chAddr 0x210030 0x40 c
def usRogue (c : Nat) : Nat := chAddr 0x210038 0x40 c
def usCollide (c : Nat) : Nat := chAddr 0x21003C 0x40 c
def usOnuSel (n : Nat) : Nat := dikeBase n + 0x220000
def redChSkew (c : Nat) : Nat := chAddr 0x230004 0x20 c
def redCensusOk (c : Nat) : Nat := chAddr 0x230008 0x20 c
def redDiverge (c : Nat) : Nat := chAddr 0x230010 0x20 c
def redHoldDrop (c : Nat) : Nat := chAddr 0x230018 0x20 c
def redListenFail (c : Nat) : Nat := chAddr 0x231000 0x20 c

/-! Dike datapath: overruns (Table 7-6), DBA (11-7), ranging (10-13), policers (16-9). -/
def ovrPend (n j : Nat) : Nat := dikeBase n + 0x40F000 + 4 * j
def dbaPeak (n : Nat) : Nat := dikeBase n + 0x40F010
def ovrCnt (c : Nat) : Nat := chAddr 0x40F100 4 c
def dbaCfg (c : Nat) : Nat := chAddr 0x440000 4 c
def dbaGrants (c : Nat) : Nat := chAddr 0x450000 0x40 c
def dbaBytes (c : Nat) : Nat := chAddr 0x450008 0x40 c
def dbaPolls (c : Nat) : Nat := chAddr 0x450010 0x40 c
def dbaHintOk (c : Nat) : Nat := chAddr 0x450018 0x40 c
def dbaHintMiss (c : Nat) : Nat := chAddr 0x450020 0x40 c
def dbaFrag (c : Nat) : Nat := chAddr 0x450028 0x40 c
def dbaDefer (c : Nat) : Nat := chAddr 0x450030 0x40 c
def dbaIdle (c : Nat) : Nat := chAddr 0x450038 0x40 c
def dbaAllocSel (n : Nat) : Nat := dikeBase n + 0x460000
def rngCfg (c : Nat) : Nat := chAddr 0x480000 4 c
def rngReach (c : Nat) : Nat := chAddr 0x480200 4 c
def rngParam (c : Nat) : Nat := chAddr 0x480A00 4 c
def rngSnRx (c : Nat) : Nat := chAddr 0x490000 0x40 c
def rngDiscDrop (c : Nat) : Nat := chAddr 0x490008 0x40 c
def rngQw (c : Nat) : Nat := chAddr 0x490010 0x40 c
def rngQwNs (c : Nat) : Nat := chAddr 0x490018 0x40 c
def rngRangeFail (c : Nat) : Nat := chAddr 0x490020 0x40 c
def rngSpreadDet (c : Nat) : Nat := chAddr 0x490028 0x40 c
def rngEqdUpd (c : Nat) : Nat := chAddr 0x490030 0x40 c
def rngMigLate (c : Nat) : Nat := chAddr 0x490038 0x40 c
def polSel (n : Nat) : Nat := dikeBase n + 0x540000

/-! Every datapath die: classification (Table 13-9) and exact match (Table 14-9). -/
def cls (die off : Nat) : Nat := dieAddr 0x4C0000 0x400000 die + off
def clsCfg (die : Nat) : Nat := cls die 0
def em (die off : Nat) : Nat := dieAddr 0x500000 0x440000 die + off
def emCfg (die : Nat) : Nat := em die 0
def emScanMs (die : Nat) : Nat := em die 4

/-! Sluice (Tables 16-7 and 17-8). -/
def uplCfg (p : Nat) : Nat := portAddr 0x00 p
def uplStatus (p : Nat) : Nat := portAddr 0x04 p
def uplCause (p : Nat) : Nat := portAddr 0x08 p
def uplIntEn (p : Nat) : Nat := portAddr 0x0C p
def uplRxCorr (p : Nat) : Nat := portAddr 0x10 p
def uplTxCorr (p : Nat) : Nat := portAddr 0x14 p
def uplDeskew (p : Nat) : Nat := portAddr 0x18 p
def laneStatus (l : Nat) : Nat := sluiceBase (l / 128) + 0x10000 + 4 * (l % 128)
def laneCfg (l : Nat) : Nat := sluiceBase (l / 128) + 0x10200 + 4 * (l % 128)
def subPtpCfg (s : Nat) : Nat := subAddr 0x20000 0x80 s
def subRxFrames (s : Nat) : Nat := subAddr 0x20008 0x80 s
def subTxFrames (s : Nat) : Nat := subAddr 0x20010 0x80 s
def subFcsErr (s : Nat) : Nat := subAddr 0x20018 0x80 s
def subFecCorr (s : Nat) : Nat := subAddr 0x20020 0x80 s
def subFecUncorr (s : Nat) : Nat := subAddr 0x20028 0x80 s
def subInOverrun (s : Nat) : Nat := subAddr 0x20030 0x80 s
def subOversize (s : Nat) : Nat := subAddr 0x20038 0x80 s
def subCtrlDrop (s : Nat) : Nat := subAddr 0x20040 0x80 s
def subTxDrop (s : Nat) : Nat := subAddr 0x20048 0x80 s
def subOneStep (s : Nat) : Nat := subAddr 0x20050 0x80 s
def subTsfLost (s : Nat) : Nat := subAddr 0x20058 0x80 s
def tsfHead (s : Nat) : Nat := subAddr 0x30000 0x20 s
def gateHeld (s : Nat) : Nat := subAddr 0x480010 0x40 s
def gateOversize (s : Nat) : Nat := subAddr 0x480018 0x40 s
def gateResync (s : Nat) : Nat := subAddr 0x480020 0x40 s
def preemptFrags (s : Nat) : Nat := subAddr 0x480028 0x40 s

/-! POLDER: traffic manager (16-5), trie (14-11), classification (13-11), die links (1-5). -/
def tmCfg : Nat := 0x4B00000
def tmNodeSel : Nat := 0x4B00004
def trie (off : Nat) : Nat := 0x4C00000 + off
def clsDev (off : Nat) : Nat := 0x4D00000 + off
def excPassed (k : Nat) : Nat := clsDev (0x100 + 0x10 * k)
def excDropped (k : Nat) : Nat := clsDev (0x108 + 0x10 * k)
def excTotalPassed : Nat := clsDev 0x200
def dlink (n off : Nat) : Nat := 0x4E00000 + 0x40 * n + off

end A

/-- What a host write does to a stored 32-bit register, and its reset value (R7). -/
structure Desc where
  /-- Bits a write stores (RW). -/
  rw : Nat := 0
  /-- Bits a write of 1 clears (W1C). -/
  w1c : Nat := 0
  /-- Reset value. -/
  rst : Nat := 0
  /-- A read clears it to its reset value (RC). -/
  rc : Bool := false
  /-- A write takes effect at the next T0. -/
  edge : Bool := false

/-- A family of registers: first address, outer count and stride, inner count and stride. -/
structure Fam where
  /-- First address. -/
  base : Nat
  /-- Number of dies or blocks. -/
  outer : Nat := 1
  /-- Distance between them. -/
  ostride : Nat := 0x800000
  /-- Registers in each. -/
  count : Nat := 1
  /-- Distance between them. -/
  stride : Nat := 4
  /-- What they are. -/
  desc : Desc

/-- Whether an address is a register of the family. -/
def Fam.has (f : Fam) (a : Nat) : Bool :=
  let off := a - f.base
  let k := if f.outer ≤ 1 then 0 else off / f.ostride
  let r := off - k * f.ostride
  decide (f.base ≤ a) && decide (k < f.outer) && decide (r % f.stride = 0) && decide (r / f.stride < f.count)

/-- Every stored register that a write or a read changes, or that does not reset to 0 (tables of chapters 4, 7 to 10, 11, 13 to 22). -/
def regFams : List Fam :=
  [ { base := 0x000000, desc := { rst := 0x00B05120 } },
    { base := 0x000004, desc := { rw := 0x1 } },
    { base := 0x000008, desc := { rw := 0xFFFFFFFF } },
    { base := 0x000100, desc := { w1c := 0x03FF0000 } },
    { base := 0x000124, desc := { w1c := 0x1 } },
    { base := 0x000128, desc := { rc := true } },
    { base := 0x100000, desc := { rw := 0x3 } },
    { base := 0x100004, desc := { rw := 0x00FFFFFF } },
    { base := 0x100018, desc := { rw := 0xF7F, rst := 0xF7F } },
    { base := 0x100020, desc := { rst := 0xF } },
    { base := 0x100024, desc := { rw := 0xFF, rst := 0x84 } },
    { base := 0x100028, desc := { w1c := 0x1F } },
    { base := 0x10002C, desc := { rw := 0x1F } },
    { base := 0x200000, count := 2, stride := 0x100, desc := { rw := 0x1, w1c := 0xC } },
    { base := 0x200020, count := 2, stride := 0x100, desc := { rw := 0xFFFFFFFF } },
    { base := 0x201000, count := 4, stride := 0x40, desc := { rw := 0x1E, rst := 0x10 } },
    { base := 0x201004, count := 4, stride := 0x40, desc := { w1c := 0x6 } },
    { base := 0x201008, count := 4, stride := 0x40, desc := { rw := 0xFFFFFFFF } },
    { base := 0x201018, count := 4, stride := 0x40, desc := { rw := 0xFFFFFFFF, rst := 0x3B9ACA00 } },
    { base := 0x20101C, count := 4, stride := 0x40, desc := { rw := 0xFFFFFFFF, rst := 0x64 } },
    { base := 0x208000, desc := { rw := 0x1, rst := 0x1 } },
    { base := 0x208004, desc := { w1c := 0x3E0 } },
    { base := 0x208014, desc := { rw := 0xFFFFFFFF, rst := 0x64 } } ] ++
  [ { base := 0x300014, count := 32, stride := 0x40, desc := { w1c := 0xF } },
    { base := 0x300018, count := 32, stride := 0x40, desc := { rw := 0xF } },
    { base := 0x400000, outer := 7, ostride := 0x1000, count := 64, stride := 0x10, desc := { rw := 0x3FFFF } },
    { base := 0x400004, outer := 7, ostride := 0x1000, count := 64, stride := 0x10, desc := { rw := 0xFFFFFF } },
    { base := 0x400700, outer := 7, ostride := 0x1000, count := 2, desc := { w1c := 0xFFFFFFFF } },
    { base := 0x408000, desc := { rw := 0xFFFF0131, rst := 0x100 } },
    { base := 0x408008, desc := { w1c := 0x3 } },
    { base := 0x40800C, desc := { rw := 0x3 } },
    { base := 0x409000, count := 32, stride := 0x20, desc := { rw := 0x1FFF } },
    { base := 0x409004, count := 32, stride := 0x20, desc := { rw := 0xFFFFFFFF, rst := 0x3E8 } },
    { base := 0x40A000, desc := { rw := 0x7F1F, rst := 0x7F00 } },
    { base := 0x500000, desc := { rw := 0xFF03, rst := 0x1402, edge := true } },
    { base := 0x500008, desc := { w1c := 0x1FF } },
    { base := 0x50000C, desc := { rw := 0x1FF } },
    { base := 0x500110, desc := { rw := 0xFFFFFFFF, rst := 0x2000, edge := true } },
    { base := 0x500130, count := 2, stride := 0x20, desc := { rw := 0xFFFFFFFF, rst := 0x800, edge := true } },
    { base := 0x500170, desc := { rw := 0xFFFFFFFF, rst := 0xC0, edge := true } },
    { base := 0x500114, desc := { rw := 0xFFFFFFFF, rst := 0x1000, edge := true } },
    { base := 0x500134, count := 2, stride := 0x20, desc := { rw := 0xFFFFFFFF, rst := 0x400, edge := true } },
    { base := 0x500174, desc := { rw := 0xFFFFFFFF, rst := 0x80, edge := true } },
    { base := 0x500118, desc := { rst := 0x20000, rc := true } },
    { base := 0x500138, count := 2, stride := 0x20, desc := { rst := 0x8000, rc := true } },
    { base := 0x500178, desc := { rst := 0xC00, rc := true } },
    { base := 0x500304, desc := { w1c := 0x1 } },
    { base := 0x500400, desc := { rw := 0xFFFFFFFF } },
    { base := 0x500404, desc := { rw := 0xFFFFFF07, edge := true } },
    { base := 0x500500, count := 8, desc := { rw := 0xFFFF, rst := 0x100, edge := true } } ] ++
  [ { base := 0x800004, desc := { w1c := 0x3F } },
    { base := 0x800008, desc := { rw := 0x3F } },
    { base := 0x900004, desc := { rw := 0x707, rst := 0x303 } },
    { base := 0x900008, desc := { w1c := 0x1F } },
    { base := 0x90000C, desc := { rw := 0x1F } },
    { base := 0x900020, desc := { rw := 0xFFFF, rst := 0x3E8 } },
    { base := 0x900024, desc := { rw := 0xFFFF, rst := 0x44C } },
    { base := 0x900028, desc := { rw := 0xFFFF, rst := 0x352 } },
    { base := 0x900034, desc := { rw := 0x3F, rst := 0xA } },
    { base := 0x900038, desc := { rw := 0xFFFF, rst := 0xFDDA } },
    { base := 0x900040, count := 4, desc := { rst := 0xFFFF0000 } },
    { base := 0x900050, count := 2, desc := { rw := 0xFFFF } },
    { base := 0x90005C, desc := { w1c := 0xFFFF } },
    { base := 0x900104, desc := { w1c := 0x3 } },
    { base := 0x900108, desc := { rw := 0x3 } } ] ++
  [ { base := 0x1001000, outer := 4, count := 8, desc := { w1c := 0x6 } },
    { base := 0x1001020, outer := 4, count := 16, desc := { rw := 0xFFFF, edge := true } },
    { base := 0x1200000, outer := 4, count := 128, desc := { rw := 0xFFFFFF, rst := 0x00138408, edge := true } },
    { base := 0x1200400, outer := 4, count := 128, desc := { w1c := 0x2E } },
    { base := 0x1220000, outer := 4, desc := { rw := 0xFFFF } },
    { base := 0x140F000, outer := 4, count := 4, desc := { w1c := 0xFFFFFFFF } },
    { base := 0x140F010, outer := 4, desc := { rc := true } },
    { base := 0x1440000, outer := 4, count := 128, desc := { rw := 0x7DFFFF, rst := 0x00610208, edge := true } },
    { base := 0x1460000, outer := 4, desc := { rw := 0x01FF3FFF } },
    { base := 0x1480000, outer := 4, count := 128, desc := { rw := 0x3FFF7FFF, rst := 0x08386320, edge := true } },
    { base := 0x1480200, outer := 4, count := 128, desc := { rw := 0x03FF03FF, rst := 0x00C80000 } },
    { base := 0x1480A00, outer := 4, count := 128, desc := { rw := 0xFF0F073F, rst := 0x05020418, edge := true } },
    { base := 0x14C0000, outer := 4, desc := { rw := 0x30F, rst := 0xF, edge := true } },
    { base := 0x1500000, outer := 4, desc := { rw := 0x3, rst := 0x3 } },
    { base := 0x1500004, outer := 4, desc := { rw := 0xFFFFFFFF, rst := 0x249F0 } },
    { base := 0x1540000, outer := 4, desc := { rw := 0x1FFFFF } } ] ++
  [ { base := 0x3000000, outer := 2, count := 32, stride := 0x100, desc := { rw := 0xFFFF0007 } },
    { base := 0x3000008, outer := 2, count := 32, stride := 0x100, desc := { w1c := 0x1F } },
    { base := 0x300000C, outer := 2, count := 32, stride := 0x100, desc := { rw := 0x1F } },
    { base := 0x3000010, outer := 2, count := 32, stride := 0x100, desc := { rw := 0xFFFFFFFF } },
    { base := 0x3000014, outer := 2, count := 32, stride := 0x100, desc := { rw := 0xFFFFFFFF } },
    { base := 0x3010200, outer := 2, count := 128, desc := { rw := 0x1 } },
    { base := 0x3020000, outer := 2, count := 256, stride := 0x80, desc := { rw := 0x3, rst := 0x2 } },
    { base := 0x3400000, outer := 2, desc := { rw := 0x3FF, rst := 0xFF, edge := true } },
    { base := 0x3440000, outer := 2, desc := { rw := 0x3, rst := 0x3 } },
    { base := 0x3440004, outer := 2, desc := { rw := 0xFFFFFFFF, rst := 0x249F0 } },
    { base := 0x4B00000, desc := { rw := 0x3F, rst := 0x20, edge := true } },
    { base := 0x4B00004, desc := { rw := 0xFFFFFFFF } } ]

/-- The description of the register at an address; a register that nothing lists is read-only and resets to 0. -/
def descOf (a : Nat) : Desc :=
  match regFams.find? (fun f => f.has a) with
  | some f => f.desc
  | none => {}

/-- Power domain of a PF0 BAR0 address (Table 4-5); none in an unassigned range. -/
def domainOf (a : Nat) : Option Nat :=
  if a < 0x300000 then some 0
  else if a < 0x400000 then some 21
  else if a < 0x500000 then some 23
  else if a < 0x600000 then some 15
  else if a < 0x700000 then some 0
  else if a < 0x800000 then some 20
  else if a < 0x801000 then some 0
  else if a < 0x900000 then some 22
  else if a < 0xA00000 then some 0
  else if a < 0x1000000 then none
  else if a < 0x3000000 then
    let n := (a - 0x1000000) / 0x800000
    let o := (a - 0x1000000) % 0x800000
    if o < 0x200000 then some (1 + n) else if o < 0x400000 then some (5 + n) else some (9 + n)
  else if a < 0x4000000 then some (13 + (a - 0x3000000) / 0x800000)
  else if a < 0x4F00000 then some 15
  else if a < 0x5000000 then some (16 + (a - 0x4F00000) / 0x40000)
  else none

end Sys2Proof.Machine
end

