-- ==== Sys2Proof/Machine/State.lean ====
section
/-! DEFINITION. The state of the block as plain data: every register, ring, queue, table, mode and pin level that the
specification gives it, the queue of commands that wait, and the state right after reset.
Registers that are plain stored words (RW, W1C, RC and saturating counts) are held in `Dev.regs` under their PF0 BAR0
address, and 64-bit counters in `Dev.ctrs`; Sys2Proof/Machine/Addr.lean names every address, with its reset value.
Choices and readings: log entries 2, 3, 4, 5, 7, 8, 10, 15, 23, 31, 35 and 97. -/

namespace Sys2Proof.Machine

/-- Table 6-5, R181: a channel's state. Codes 0 OFF, 1 TOWPATH, 2 SERVICE. -/
inductive ChState where
  | off | towpath | service
  deriving DecidableEq, Repr

/-- R241, Table 6-5: an ONU's state, codes 0x00 to 0x06 in this order. -/
inductive OnuState where
  | absent | discovered | ranging | operating | suspended | quarantined | migrating
  deriving DecidableEq, Repr

/-- R434: protection role, codes 0x40 to 0x43 in this order. -/
inductive Role where
  | alone | active | syncing | ready
  deriving DecidableEq, Repr

/-- R483: the power states a request can name, codes 0 to 2. -/
inductive PState where
  | running | trimmed | dormant
  deriving DecidableEq, Repr

/-- R511: update states, codes 0x50 to 0x54. -/
inductive UpdState where
  | idle | receiving | verifying | verified | activating
  deriving DecidableEq, Repr

/-- R345: where a forwarded packet goes. -/
inductive Dest where
  | uplink (sp : Nat)
  | flow (f : Nat)
  | exc (cls : Nat)
  | none
  deriving DecidableEq, Repr

/-- R476: a DMA channel's STATE field. -/
inductive DmaState where
  | disabled | run | wait | fin | hold | halt
  deriving DecidableEq, Repr

/-- Start-up (03_startup.md). -/
structure Boot where
  /-- R40, R42: 1 while the rails are up; 0 in Off. -/
  railsUp : Bool := true
  /-- R43: level of SYS_RESET_N as the device last saw it. -/
  resetHigh : Bool := false
  /-- R43: waiting in reset for every rail to be in range. -/
  waitRails : Bool := false
  /-- R48: start-up has begun (t = 0 has passed). -/
  started : Bool := false
  /-- Table 3-1: PD00 has left reset (t = 0.1 ms). -/
  pd00 : Bool := false
  /-- R67 Table 3-9 STAGE. -/
  stage : Nat := 0
  /-- Table 3-8. -/
  failCode : Nat := 0
  /-- Table 3-6. -/
  slotA : Nat := 0
  /-- Table 3-6. -/
  slotB : Nat := 0
  /-- Table 3-9 SLOT_BOOTED (0 A, 1 B). -/
  slotBooted : Nat := 0
  /-- Table 3-9 FALLBACK. -/
  fallback : Bool := false
  /-- Table 3-9 DIE_FAIL, bit d for DIE d (7 bits). -/
  dieFail : Nat := 0
  /-- R32 STRAP_FLASH. -/
  strapFlash : Nat := 0
  /-- R32 STRAP_SLOT. -/
  strapSlot : Nat := 0
  /-- R32 STRAP_ROLE. -/
  strapRole : Nat := 0
  /-- R50: memory initialisation has ended. -/
  memDone : Bool := false
  /-- Table 3-3: slots this start-up has already tried. -/
  tried : List Nat := []
  /-- Table 3-3: the first slot of this start-up, once stage 2 has chosen it. -/
  firstSlot : Option Nat := none
  /-- R61: DEV_READY. -/
  devReady : Bool := false
  /-- R60: clock at which the firmware of the present slot started. -/
  stage3At : Nat := 0
  /-- Slot whose firmware runs: 0 A, 1 B. -/
  slot : Nat := 0
  /-- Table 3-11 READY_US. -/
  readyUs : Nat := 0
  /-- R352: number of the draw that seeds the hashes of the six dies. -/
  seed : Nat := 0
  /-- R54: the flash directory's copy 0 as last read or written. -/
  dir0 : Bytes := []
  /-- R54: the flash directory's copy 1 as last read or written. -/
  dir1 : Bytes := []
  /-- R35, R539: SYS_REFCLK was lost or the device has tripped; only SYS_RESET_N returns it to service. -/
  halted : Bool := false
  deriving DecidableEq, Repr

/-- Fuse shadow registers (R49, Table 3-10). -/
structure Fuses where
  /-- Table 3-10 CHAN_EN. -/
  chanEn : Nat := 0
  /-- Table 3-10 EXT_EN. -/
  extEn : Bool := false
  /-- Table 3-10 CORRECTED, saturating at 0xFF. -/
  corrected : Nat := 0
  /-- Table 3-10 KEY_HASH_OK. -/
  keyHashOk : Bool := false
  deriving DecidableEq, Repr

/-- What the booted image fixes (R55, Table 3-5, R415). -/
structure Image where
  /-- R55 FW_IF_VER, major in bits 31:16. -/
  fwIfVer : Nat := 0
  /-- R55 IMAGE_VER. -/
  imageVer : Nat := 0
  /-- Stage 3: domains the configuration section leaves off. -/
  offMask : Nat := 0
  /-- R415: UPL_q_CFG of the 64 ports. -/
  uplCfg : List (BitVec 32) := []
  /-- R415: UPL_LANEl_CFG of the 256 lanes. -/
  laneCfg : List (BitVec 32) := []
  deriving DecidableEq, Repr

/-- Pins and lines that the board drives (R30). -/
structure Pins where
  /-- R63 level of PCIE_PERST_N. -/
  perstHigh : Bool := false
  /-- R435 level of ARB_GRANT. -/
  arbGrant : Bool := false
  /-- R478 level of PERF_FREEZE. -/
  perfFreeze : Bool := false
  /-- R526 levels at GPIO[15:0]. -/
  gpioIn : BitVec 16 := 0
  deriving DecidableEq, Repr

/-- One PTP domain (R422 to R424). The counter is one number in units of 2^-32 ns. -/
structure Ptp where
  /-- R422: seconds, nanoseconds and fraction as one count of 2^-32 ns. -/
  count : Nat := 0
  /-- R422: INCR in force, 32.32 ns per clock. -/
  incr : Nat := 0x100000000
  deriving DecidableEq, Repr

/-- One compare unit (R426 to R428, Table 17-5). -/
structure Cmp where
  /-- CMP_m_CTRL.ARM. -/
  armed : Bool := false
  /-- Target in ns in use while armed (R427 moves it). -/
  target : Nat := 0
  /-- R426: the target lay in the past when it was set, so the firing is LATE. -/
  late : Bool := false
  deriving DecidableEq, Repr

/-- The time unit (07_tick_and_timebase.md, 17_uplinks_and_time.md). -/
structure Time where
  /-- R157, R175: time-unit clocks (ns) since PD00 left reset. -/
  now : Nat := 0
  /-- R175: what UPTIME_NS counts, before rounding to SYS_REFCLK clocks. -/
  uptime : Nat := 0
  /-- R175: the internal oscillator mark. -/
  oscMark : Bool := false
  /-- R157 TICK_NUM, 64 bits. -/
  tick : Nat := 0
  /-- R176: tick edges that have occurred since PD00 left reset. -/
  edges : Nat := 0
  /-- Clock of the last T0. -/
  edgeAt : Nat := 0
  /-- Clock of the next T0. -/
  nextAt : Nat := 7812
  /-- TICK_NUM that the next T0 will carry. -/
  nextTick : Nat := 1
  /-- R161: ALIGN_REQ written since the last step. -/
  alignReq : Bool := false
  /-- Table 7-5 ALIGNED. -/
  aligned : Bool := false
  /-- Table 7-5 ALIGN_PENDING. -/
  alignPending : Bool := false
  /-- R161: the tick now running is a lengthened one. -/
  stepping : Bool := false
  /-- R424: selected domain, 0 A, 1 B. -/
  selected : Nat := 0
  /-- R422: domain A. -/
  ptpA : Ptp := {}
  /-- R422: domain B. -/
  ptpB : Ptp := {}
  /-- R425: start of the running 1 s window. -/
  diffFrom : Nat := 0
  /-- R426: the four compare units. -/
  cmp : List Cmp := [{}, {}, {}, {}]
  deriving DecidableEq, Repr

/-- A host access that waits under R83, R86 or R88. -/
structure Held where
  /-- BAR of the function. -/
  bar : Nat
  /-- Offset within the BAR. -/
  off : Nat
  /-- Domain of its address. -/
  domain : Nat
  /-- The bytes of a write, none for a read. -/
  data : Option Bytes
  /-- R82: bytes of a read. -/
  len : Nat := 4
  /-- R82: byte enables of a read of 4 bytes. -/
  be : Nat := 0xF
  /-- Clock of its arrival (R86, R88). -/
  at' : Nat
  deriving DecidableEq, Repr

/-- A message the firmware has taken, or that waits for its second check (R113, R167). -/
structure Req where
  /-- Kiosk of the request. -/
  func : Nat
  /-- OPCODE. -/
  op : Nat
  /-- SEQUENCE. -/
  seq : BitVec 32
  /-- Payload fields after R130's layout, in order. -/
  args : List Nat
  /-- Payload bytes as received. -/
  body : Bytes := []
  /-- R167, R181: clock at or after which the T0 may take it. -/
  from' : Nat := 0
  /-- Clock at which the firmware took it. -/
  taken : Nat := 0
  deriving DecidableEq, Repr

/-- One Kiosk (05_mailbox_protocol.md). -/
structure Kiosk where
  /-- R96 request ring, 4 KiB. -/
  reqMem : Mem := []
  /-- R96 response ring, 4 KiB. -/
  rspMem : Mem := []
  /-- Table 5-1 KIOSK_REQ_TAIL. -/
  reqTail : BitVec 16 := 0
  /-- Table 5-1 KIOSK_REQ_HEAD. -/
  reqHead : BitVec 16 := 0
  /-- Table 5-1 KIOSK_RSP_TAIL. -/
  rspTail : BitVec 16 := 0
  /-- Table 5-1 KIOSK_RSP_HEAD. -/
  rspHead : BitVec 16 := 0
  /-- Table 5-2 READY. -/
  ready : Bool := false
  /-- Table 5-2 RESTARTING. -/
  restarting : Bool := false
  /-- Table 5-2 LEVEL; 0 is un-negotiated (NEGOTIATED 0). -/
  level : Nat := 0
  /-- Table 5-2 RING_FAULT. -/
  ringFault : Bool := false
  /-- Table 5-2 RESET_BUSY. -/
  resetBusy : Bool := false
  /-- Table 5-2 EXECUTING: the request taken and not yet answered. -/
  executing : Option Req := none
  /-- R90, R124: the response of the request in execution is to be discarded. -/
  discard : Bool := false
  /-- R126: an unplanned restart has cut the request in execution; it is answered after the restart. -/
  interrupted : Bool := false
  /-- Table 5-3 KIOSK_CAUSE. -/
  cause : BitVec 32 := 0
  /-- KIOSK_INT_EN. -/
  intEn : BitVec 32 := 0
  /-- Table 5-5 KIOSK_ERR_INFO. -/
  errInfo : BitVec 32 := 0
  /-- KIOSK_EVENT_LOST, saturating. -/
  eventLost : Nat := 0
  /-- R114 expected sequence. -/
  expected : BitVec 32 := 0
  /-- R122 event counter. -/
  eventSeq : BitVec 32 := 1
  /-- R123: the next event written carries FLAGS.LOST. -/
  lostFlag : Bool := false
  /-- R156 subscription mask. -/
  mask : Nat := 0
  /-- R118 budget tokens in units of 10^-9 command. -/
  tokens : Nat := 256000000000
  /-- R118: elapsed time at the last fill. -/
  filledAt : Nat := 0
  deriving DecidableEq, Repr

/-- One key slot of a crypto page (R312 to R318). alg 0 empty, 1 AES-128, 2 AES-256. -/
structure Slot where
  /-- CRYPTO_SLOT_STATE bits 2n+1:2n. -/
  alg : Nat := 0
  /-- CRYPTO_SLOT_STATE bit 16 + n. -/
  retired : Bool := false
  /-- CRYPTO_SLOTn_CTR. -/
  ctr : Nat := 0
  /-- CRYPTO_SLOTn_EPOCH. -/
  epoch : Nat := 0
  /-- The key itself, never readable. -/
  key : Bytes := []
  deriving DecidableEq, Repr

/-- R314: the copy that START takes, with the outcome its checks already fixed. -/
structure CryptoJob where
  /-- OP. -/
  op : Nat
  /-- SLOT. -/
  slot : Nat
  /-- Key in use. -/
  key : Bytes
  /-- Nonce, 12 bytes. -/
  nonce : Bytes
  /-- Expected tag for decryption. -/
  tag : Bytes
  /-- AAD. -/
  aad : Bytes
  /-- Input. -/
  data : Bytes
  deriving DecidableEq, Repr

/-- One crypto page (R313, Table 12-5). -/
structure Page where
  /-- CRYPTO_OP. -/
  op : BitVec 32 := 0
  /-- CRYPTO_LEN. -/
  len : BitVec 32 := 0
  /-- CRYPTO_INT_EN bit 0. -/
  intEn : Bool := false
  /-- Table 12-9 BUSY: the operation that runs. -/
  job : Option CryptoJob := none
  /-- Table 12-9 DONE. -/
  done : Bool := false
  /-- Table 12-9 START_ERR. -/
  startErr : Bool := false
  /-- Table 12-9 WRITE_ERR. -/
  writeErr : Bool := false
  /-- Table 12-9 RESULT. -/
  result : Nat := 0
  /-- CRYPTO_NONCE0 to 2. -/
  nonce : List (BitVec 32) := [0, 0, 0]
  /-- CRYPTO_TAG0 to 3. -/
  tag : List (BitVec 32) := [0, 0, 0, 0]
  /-- CRYPTO_OUT_LEN. -/
  outLen : Nat := 0
  /-- CRYPTO_OPS. -/
  ops : Nat := 0
  /-- CRYPTO_TAGFAIL. -/
  tagFail : Nat := 0
  /-- Eight key slots. -/
  slots : List Slot := [{}, {}, {}, {}, {}, {}, {}, {}]
  /-- R318: CLEAR and unwrap actions that wait for the running operation, oldest first. -/
  waiting : List (Nat × Slot) := []
  /-- AAD area, 1 KiB. -/
  aad : Mem := []
  /-- Input area, 7 KiB. -/
  inp : Mem := []
  /-- Output area, 7 KiB. -/
  outp : Mem := []
  deriving DecidableEq, Repr

/-- One counter window (R482, Table 19-11). -/
structure Window where
  /-- CW_STATUS.BUSY: a snapshot is pending or being filled. -/
  busy : Bool := false
  /-- R482: captured at a T0, records not yet filled. -/
  captured : Bool := false
  /-- CW_STATUS.READY. -/
  ready : Bool := false
  /-- CW_COUNT. -/
  count : Nat := 0
  /-- CW_TICK. -/
  tick : Nat := 0
  /-- CW_LISTi. -/
  list : Tbl (BitVec 32) := []
  /-- CW_RECi as the eight 8-byte values of Table 19-12. -/
  recs : Tbl (List Nat) := []
  deriving DecidableEq, Repr

/-- One PCIe function (04_host_interface.md). -/
structure Func where
  /-- VF k is enabled (R70); always true for PF0 and PF1. -/
  enabled : Bool := false
  /-- Configuration space: Bus Master Enable. -/
  busMaster : Bool := false
  /-- Configuration space: MSI-X Enable. -/
  msixEn : Bool := false
  /-- MSI-X capability: Function Mask. -/
  fmask : Bool := false
  /-- Configuration space: Max Payload Size of Device Control, in bytes (R82). -/
  mps : Nat := 128
  /-- Configuration space: the function is in D3hot. -/
  d3hot : Bool := false
  /-- R90: the disable sequence runs (QUIESCENT 0). -/
  disabling : Bool := false
  /-- R94, R90: the last trigger was a function-level reset (R473). -/
  byFlr : Bool := false
  /-- R298: tenant bound to this function, 0 none. -/
  tenant : Nat := 0
  /-- Table 4-10 COUNTER_GRANT. -/
  grant : Bool := false
  /-- R310 transport key. -/
  tk : Option Bytes := none
  /-- R78 MSI-X table words (mask bit in the control word), by byte offset. -/
  msix : Tbl (BitVec 32) := []
  /-- R80 MSI-X pending vectors. -/
  pba : List Nat := []
  /-- R11 latched high words by register-pair address. -/
  latch : Tbl (BitVec 32) := []
  /-- R541 held low words by register-pair address. -/
  low : Tbl (BitVec 32) := []
  /-- R86, R88 accesses held, oldest first; the first 16 are held, later ones wait in the port. -/
  held : List Held := []
  /-- The function's Kiosk. -/
  kiosk : Kiosk := {}
  /-- The function's crypto page. -/
  page : Page := {}
  /-- The function's counter window. -/
  cw : Window := {}
  deriving DecidableEq, Repr

/-- PCIe port (R63, R70, R94). -/
structure Pcie where
  /-- Controller and PHY out of reset (t = 0.3 ms). -/
  released : Bool := false
  /-- Link training has started. -/
  training : Bool := false
  /-- Link trained. -/
  linkUp : Bool := false
  /-- R61, R65: configuration requests complete successfully. -/
  cfgOk : Bool := false
  /-- SR-IOV VF Enable as it acts (R70). -/
  vfEnable : Bool := false
  /-- SR-IOV NumVFs. -/
  numVfs : Nat := 0
  deriving DecidableEq, Repr

/-- A line key with the ALG it was loaded under (R197). -/
structure LineKey where
  /-- 0 AES-128 CTR, 1 AES-256-GCM. -/
  alg : Nat
  /-- Key bytes, never readable. -/
  key : Bytes
  deriving DecidableEq, Repr

/-- A key ring: two indices, the one in use, and the roll (R197 to R201). -/
structure Keys where
  /-- Key under index 0b01. -/
  k1 : Option LineKey := none
  /-- Key under index 0b10. -/
  k2 : Option LineKey := none
  /-- Index in use, 1 or 2; 0 before the first key. -/
  active : Nat := 0
  /-- Frame at which the key in use took effect. -/
  fromFrame : Nat := 0
  /-- UPTIME_NS at which the key in use took effect. -/
  fromNs : Nat := 0
  /-- R200: a roll runs. -/
  rolling : Bool := false
  /-- R200: requests sent in this roll. -/
  sent : Nat := 0
  /-- R200: uptime of the last request. -/
  sentAt : Nat := 0
  /-- Table 8-9 step 4: switch frame Fs, once chosen. -/
  switchAt : Option Nat := none
  /-- Table 8-9 step 5: the roll has switched; the old index expires after Fs + 64. -/
  switched : Bool := false
  /-- R201: uptime at which a failed roll starts again. -/
  retryAt : Option Nat := none
  /-- KEY_GET ROLLS. -/
  rolls : Nat := 0
  /-- R200 step 2: first fragment of a 32-byte key. -/
  frag : Option Bytes := none
  /-- R453: number of the mirror record whose acknowledgement Fs waits for. -/
  await : Option Nat := none
  deriving DecidableEq, Repr

/-- A window or grant that the ranging engine has placed (R253, R261, R263, R267). Positions are absolute upstream units. -/
structure Win where
  /-- 0 serial-number quiet window, 1 ranging window, 2 arrival grant, 3 spread ACK slot. -/
  kind : Nat
  /-- ONU ID for kinds 1 and 2, spread code for kind 3. -/
  who : Nat
  /-- Absolute unit at which the grant stands. -/
  grant : Nat
  /-- First unit kept free. -/
  lo : Nat
  /-- First unit after the window. -/
  hi : Nat
  /-- EQD_PRE in use. -/
  eqdPre : Nat
  deriving DecidableEq, Repr

/-- One bandwidth-map entry before encoding (R281). -/
structure Entry where
  /-- ALLOC_ID. -/
  alloc : Nat
  /-- Granted ONU ID; 0x10000 for a serial-number grant. -/
  onu : Nat
  /-- DBRU. -/
  dbru : Bool := false
  /-- PLOAMU. -/
  ploamu : Bool := false
  /-- START; 0x3FFF continues the burst. -/
  start : Nat := 0x3FFF
  /-- GRANT in blocks. -/
  grant : Nat := 0
  /-- PROFILE. -/
  profile : Nat := 0
  /-- Placed by a hint (R290). -/
  hint : Bool := false
  /-- Placed by the ranging engine (R267). -/
  ranging : Bool := false
  deriving DecidableEq, Repr

/-- What a build has changed in one allocation, so that an overrun can discard it (R171). -/
structure Undo where
  /-- Key of the allocation. -/
  key : Nat
  /-- Fall of D. -/
  d : Int
  /-- Rise of OUT. -/
  out : Int
  /-- Fall of fc. -/
  fc : Int
  /-- Fall of ac. -/
  ac : Int
  /-- Fall of mc. -/
  mc : Int
  /-- Tick of the last grant before the build. -/
  last : Nat
  /-- Frame of the last grant before the build. -/
  lastFrame : Nat
  deriving DecidableEq, Repr

/-- One bandwidth map with the tick it is published at (R166, R270). -/
structure BMap where
  /-- Tick of publication. -/
  tick : Nat := 0
  /-- Entries in map order. -/
  entries : List Entry := []
  /-- R171: what the build changed in its allocations. -/
  undo : List Undo := []
  /-- R171: rotation start and the channel's DBA counters before the build. -/
  before : Nat × List Nat := (0, [])
  deriving DecidableEq, Repr

/-- A Basin page of a queue's chain (R384 to R386). -/
structure PageRef where
  /-- Position in the chain. -/
  idx : Nat
  /-- Stack that holds it. -/
  stack : Nat
  /-- Owner it is charged to. -/
  owner : Nat
  /-- R386: an uncorrectable word was read from it; it is retired when it is freed. -/
  bad : Bool := false
  deriving DecidableEq, Repr

/-- A packet inside the device (R322 to R408). -/
structure Pkt where
  /-- Bytes from the Ethernet header to the FCS, as they now stand. -/
  data : Bytes
  /-- Length under R367 as the packet reached the Polder. -/
  len : Nat := 0
  /-- Ingress die, DIE encoding; 6 for an injected packet. -/
  die : Nat := 0
  /-- Channel whose receiver took an upstream frame (R264). -/
  ch : Nat := 0
  /-- ONU ID on a Dike, PORT × 8 + SUBPORT on a Sluice (Table 19-4 SRC). -/
  src : Nat := 0
  /-- XGEM port of an upstream frame. -/
  xgem : Nat := 0
  /-- Upstream flow of the frame. -/
  upFlow : Option Nat := none
  /-- Sequence number of its source port (R322). -/
  seq : Nat := 0
  /-- Stamped bank epoch (R334). -/
  epoch : Nat := 0
  /-- Placement under which it entered the spread stage (R324). -/
  place : Nat := 0
  /-- Pass, 1 to 3 (R333). -/
  pass : Nat := 1
  /-- META of the previous pass (Table 13-5). -/
  metaVal : Nat := 0
  /-- Traffic class (Table 13-6). -/
  cls : Nat := 0
  /-- VRF (Table 13-6). -/
  vrf : Nat := 0
  /-- LOOKUP bits (Table 13-6). -/
  lookup : Nat := 0
  /-- Index of the deciding rule, if a rule decided. -/
  rule : Option Nat := none
  /-- Destination (R345). -/
  dest : Dest := .none
  /-- Next-hop rewrite (DMAC, VLAN) of R351, if a route gave the destination. -/
  rewrite : Option (Nat × Nat) := none
  /-- Table 19-4 BUILTIN and COPY: 0 an exception of the device itself, 1 a PUNT action, 2 a COPY action. -/
  raised : Nat := 0
  /-- This is the copy of a COPY action or of R327. -/
  copy : Bool := false
  /-- Injected by the host (Table 15-3 row 2). -/
  injected : Bool := false
  /-- Tick of the microframe that its grant addressed (R450). -/
  mf : Nat := 0
  /-- It has given up its sequence number (R323). -/
  loose : Bool := false
  /-- It has been counted in CLS_MALFORMED (R327). -/
  mal : Bool := false
  /-- The tail has arrived (R234). -/
  whole : Bool := true
  /-- R234 the tail carried a poisoned mark. -/
  poisoned : Bool := false
  /-- Buffer held: (pool, index). -/
  buf : Option (Nat × Nat) := none
  /-- Owner tag (Table 15-2). -/
  owner : Nat := 0
  /-- 0 SRAM head, 1 staged, 2 Basin (R383). -/
  seg : Nat := 0
  /-- R384: byte offset of its length word in its queue's chain of pages, when in the Basin. -/
  off : Nat := 0
  /-- R384: the pages it stands in, when in the Basin. -/
  pages : List PageRef := []
  /-- Receive timestamp (seconds, ns, fraction) of R419. -/
  ts : Option (Nat × Nat × Nat) := none
  /-- Transmit timestamp request tag (R420). -/
  tsTag : Option Nat := none
  /-- IEEE 802.1CB number (R449). -/
  rtag : Option Nat := none
  /-- R406: already counted in GATE_s_HELD. -/
  heldCounted : Bool := false
  /-- Trace slot (R481). -/
  trace : Option Nat := none
  deriving DecidableEq, Repr

/-- One PON channel (08_pon_channels.md). -/
structure Chan where
  /-- Table 6-3 MODE. -/
  mode : Nat := 0
  /-- Table 6-3 US_RATE. -/
  usRate : Nat := 0
  /-- DS_WL. -/
  dsWl : Nat := 0
  /-- US_WL. -/
  usWl : Nat := 0
  /-- PON_ID. -/
  ponId : Nat := 0
  /-- R181 STATE. -/
  state : ChState := .off
  /-- R182: identifier reached by TUNE_DONE downstream. -/
  dsDone : Option Nat := none
  /-- R182: identifier reached by TUNE_DONE upstream. -/
  usDone : Option Nat := none
  /-- Table 8-14 LASER_ON. -/
  laser : Bool := false
  /-- R487, R490: the channel sends Towpath frames although STATE is SERVICE. -/
  asTowpath : Bool := false
  /-- Tree of the channel. -/
  tree : Option Nat := none
  /-- R197 ALG of KEY_POLICY. -/
  alg : Nat := 0
  /-- R199 MAX_LIFE_S. -/
  maxLife : Nat := 0
  /-- R197 broadcast key. -/
  bcast : Keys := {}
  /-- R205 TOD_SET. -/
  tod : Bool := false
  /-- R166: map in force. -/
  map : BMap := {}
  /-- R166: map being built for the next tick. -/
  next : BMap := {}
  /-- R288 rotation start. -/
  rot : Nat := 0
  /-- R172: consecutive ticks overrun. -/
  ovrRun : Nat := 0
  /-- R172: overruns since the last TICK_OVERRUN event. -/
  ovrSince : Nat := 0
  /-- R172: uptime of the last TICK_OVERRUN event. -/
  ovrAt : Option Nat := none
  /-- R524: locked out by rogue isolation. -/
  locked : Bool := false
  /-- R524: the lockout takes effect at the next frame boundary. -/
  lockNext : Bool := false
  /-- R194: the frame whose first part the framer has sent: flow, packet, payload bytes sent. -/
  part : Option (Nat × Pkt × Nat) := none
  /-- R441: the lane is muted into electrical idle. -/
  muted : Bool := false
  /-- BCL (R208) RSSI request count, low 8 bits reported as SEQ. -/
  rssiReqs : Nat := 0
  /-- R492 source 6: consecutive Towpath RSSI records at or above the threshold. -/
  tpHits : Nat := 0
  deriving DecidableEq, Repr

/-- An upstream XGEM frame whose end has not been decoded yet (R230 to R232). -/
structure OpenFrame where
  /-- ONU of the burst. -/
  onu : Nat
  /-- Upstream microframe that the grant addressed. -/
  mf : Nat
  /-- XGEM port. -/
  xgem : Nat
  /-- PLI, bytes of payload. -/
  pli : Nat
  /-- LF. -/
  lf : Bool
  /-- Key index. -/
  idx : Nat
  /-- Key that the index selects, if it selects one. -/
  key : Option LineKey
  /-- Nonce of Table 8-8 with DIR = 1. -/
  nonce : Bytes
  /-- POSITION of the XGEM header. -/
  pos : Nat
  /-- Header bits 63:13, the additional authenticated data. -/
  hdr : Nat
  /-- The frame is discarded, and counted already. -/
  skip : Bool := false
  /-- Bytes received after the header: payload, padding and tag, as on the line. -/
  bytes : Bytes := []
  /-- Payload bytes that have gone on to the ingress pipelines. -/
  sent : Nat := 0
  deriving DecidableEq, Repr

/-- The receiver and ranging state of one channel (09_burst_receive.md, 10_discovery_ranging.md). -/
structure Recv where
  /-- R223: OFFSET of the last burst, signed. -/
  lastOffset : Int := 0
  /-- R236 kind 2: (ONU, edge) of bursts outside their window, newest first. -/
  outside : List (Nat × Nat) := []
  /-- R236 kind 3: consecutive ticks with a grant and no locked burst. -/
  lossRun : Nat := 0
  /-- R236: a burst has locked since the last T0. -/
  lockedNow : Bool := false
  /-- R231 the frame whose end has not been decoded. -/
  openF : Option OpenFrame := none
  /-- R230 delineation has stopped for the rest of the present allocation. -/
  stopped : Bool := false
  /-- R224, R237 the burst in decoding: (ONU, tick of the microframe its grant addressed, codewords decoded, first codeword of a collision). -/
  burst : Option (Nat × Nat × Nat × Option Nat) := none
  /-- R250 reach in use: (D_MIN, D_MAX) in m, fixed while a channel of the tree is not OFF. -/
  reach : Option (Nat × Nat) := none
  /-- R255 windows opened, modulo GEO_FULL_EVERY. -/
  sinceFull : Nat := 0
  /-- R253: serial-number windows whose delay has been announced and that wait for their frame: (frame, d_lo, d_hi), oldest first. -/
  wants : List (Nat × Nat × Nat) := []
  /-- R254 EQD_PRE of the last window. -/
  eqdPre : Nat := 0
  /-- R267 windows placed and not yet passed. -/
  wins : List Win := []
  /-- R226: bursts handed to the ranging engine: (window, offset from its grant in bits), oldest first. -/
  heard : List (Win × Int) := []
  /-- R209, R227: bursts whose RSSI record is awaited: (SEQ, ONU, edge of the lock), oldest first. -/
  rssi : List (Nat × Nat × Nat) := []
  /-- R259: tick at which the running integration began. -/
  integFrom : Nat := 0
  /-- R260: detections that await their ACK: (code, offset chips). -/
  acks : List (Nat × Nat) := []
  /-- R260: codes that receive no ACK in the next integration. -/
  noAck : List Nat := []
  /-- Table 18-5: RED_CHi_SKEW that takeovers have moved U(k) by, in upstream bits. -/
  shift : Int := 0
  deriving DecidableEq, Repr

/-- One tree (R183). -/
structure Tree where
  /-- CH0 to CHn in tree order. -/
  chans : List Nat
  /-- IDENT. -/
  ident : Nat
  /-- R185 IDENT_OK. -/
  identOk : Bool := true
  /-- R247 RATE. -/
  rate : Nat := 16
  /-- R247 tokens in units of 10^-9. -/
  tokens : Nat := 16000000000
  /-- R247: elapsed time at the last fill. -/
  filledAt : Nat := 0
  deriving DecidableEq, Repr

/-- MEAS_ONU accumulator (R227, R228). -/
structure Accum where
  /-- RX_POWER, 16-bit two's complement; 0x8000 none. -/
  rxPower : Nat := 0
  /-- LOCK, 0.1 ns. -/
  lock : Nat := 0
  /-- OFFSET, signed bits. -/
  offset : Int := 0
  /-- PRE_FEC_ERR. -/
  preFec : Nat := 0
  /-- BITS. -/
  bits : Nat := 0
  /-- BURSTS. -/
  bursts : Nat := 0
  /-- US_ONU_MISSED. -/
  missed : Nat := 0
  /-- US_ONU_WINDOW. -/
  window : Nat := 0
  /-- US_ONU_TAGFAIL1. -/
  tagFail1 : Nat := 0
  /-- US_ONU_TAGFAIL2. -/
  tagFail2 : Nat := 0
  deriving DecidableEq, Repr

/-- R263: a wavelength migration in progress. -/
structure Migr where
  /-- Old channel. -/
  old : Nat
  /-- Target channel. -/
  target : Nat
  /-- R263: MIGRATING has been entered (the migration has started at Fm). -/
  started : Bool := false
  /-- R263: edge count of the first T0 at which it may start. -/
  notBefore : Nat := 0
  /-- Fs. -/
  fs : Nat := 0
  /-- Frame by which EXT_TUNE_RESP is due. -/
  answerBy : Nat := 0
  /-- EXT_TUNE sends so far. -/
  sends : Nat := 0
  /-- EXT_TUNE_RESP with CODE 0 received. -/
  accepted : Bool := false
  /-- R263 last row: arrival grants stand on the old channel. -/
  rollback : Bool := false
  /-- Table 18-5: a takeover has placed arrival grants on both channels. -/
  both : Bool := false
  /-- Frame at which the present wait for an arrival ends. -/
  waitTo : Nat := 0
  /-- R267: frames whose arrival grant an overrun removed; they do not count against the limits. -/
  lost : Nat := 0
  deriving DecidableEq, Repr

/-- One registry entry with what the device keeps for its ONU (R241, Table 10-1). -/
structure Onu where
  /-- STATE. -/
  state : OnuState := .absent
  /-- SERIAL, 8 bytes read first byte most significant. -/
  serial : Nat := 0
  /-- TREE. -/
  tree : Nat := 0
  /-- CHANNEL. -/
  channel : Nat := 0
  /-- LINE_ID. -/
  lineId : Nat := 0
  /-- AUTH. -/
  auth : Bool := false
  /-- TENANT. -/
  tenant : Nat := 0
  /-- REG_ID, 36 bytes. -/
  regId : Bytes := []
  /-- CAPS. -/
  caps : Nat := 0
  /-- EQD. -/
  eqd : Nat := 0
  /-- HELD. -/
  held : Bool := false
  /-- R185: IDENT of the tree on which the ONU was authorised. -/
  ident : Nat := 0
  /-- R195 TUNE_DS mask of EXT_CAPS. -/
  tuneDs : Nat := 0
  /-- R195 TUNE_US mask of EXT_CAPS. -/
  tuneUs : Nat := 0
  /-- R195 TUNE_MS of EXT_CAPS. -/
  tuneMs : Nat := 0
  /-- R197 unicast line keys. -/
  keys : Keys := {}
  /-- R222 robust state. -/
  robust : Bool := false
  /-- R222: the robust state it takes at the next T0. -/
  robustNext : Bool := false
  /-- R222, R244 consecutive missed bursts. -/
  missRun : Nat := 0
  /-- R222 consecutive locked bursts. -/
  lockRun : Nat := 0
  /-- Table 9-2: the next service burst uses profile 1. -/
  profile1 : Bool := false
  /-- R262: bursts in the running block. -/
  blockN : Nat := 0
  /-- R262: sum of OFFSET in the running block. -/
  blockSum : Int := 0
  /-- R262: EQD that commits at the next T0. -/
  eqdNext : Option Nat := none
  /-- R244: uptime at which the entry became DISCOVERED with AUTH 0. -/
  since : Nat := 0
  /-- R261 Table 10-8: activation step, 1 to 5. -/
  step : Nat := 0
  /-- R261: tries or requests used in the step. -/
  tries : Nat := 0
  /-- R261: frame by which the step's answer is due. -/
  stepBy : Nat := 0
  /-- Table 10-9: window estimate from the last serial number: (0 quiet window, 1 spread slot; offset less EQD_PRE, in bits). -/
  est : Nat × Int := (0, 0)
  /-- R261: answer received in this tick, committed at the next T0. -/
  moveTo : Option (OnuState × Nat) := none
  /-- R244, R263: CHANNEL that the move sets, if it sets one. -/
  moveCh : Option Nat := none
  /-- R263 migration. -/
  migr : Option Migr := none
  /-- R263 SEQ of EXT_TUNE, modulo 256. -/
  tuneSeq : Nat := 0
  /-- Table 6-6 0x10: OMCI messages sent and not answered. -/
  omci : Nat := 0
  /-- R523: disabled by rogue isolation, grants withheld. -/
  rogueOff : Bool := false
  /-- R228 accumulator. -/
  acc : Accum := {}
  deriving DecidableEq, Repr

/-- A schedule-hint series (R290, R291). -/
structure Hint where
  /-- Tick of the next grant. -/
  tick : Nat
  /-- BYTES. -/
  bytes : Nat
  /-- PERIOD; 0 is a single grant. -/
  period : Nat
  /-- Grants left; none repeats until cancelled. -/
  left : Option Nat
  deriving DecidableEq, Repr

/-- One upstream allocation (11_dba.md). -/
structure Alloc where
  /-- ONU ID. -/
  onu : Nat
  /-- TYPE. -/
  type : Nat := 3
  /-- PRIO. -/
  prio : Nat := 0
  /-- FIXED, kbit/s. -/
  fixed : Nat := 0
  /-- ASSURED, kbit/s. -/
  assured : Nat := 0
  /-- MAX, kbit/s. -/
  max : Nat := 1024000
  /-- WEIGHT. -/
  weight : Nat := 1
  /-- MAX_WAIT, ticks. -/
  maxWait : Nat := 0
  /-- R278 demand D, bytes. -/
  d : Nat := 0
  /-- R278 OUT, bytes. -/
  out : Nat := 0
  /-- R278: grants not yet reported on, (upstream microframe addressed, bytes), newest first. -/
  granted : List (Nat × Nat) := []
  /-- R279 fc, 1/1,024 byte. -/
  fc : Nat := 0
  /-- R279 ac, 1/1,024 byte. -/
  ac : Nat := 0
  /-- R279 mc, 1/1,024 byte, signed. -/
  mc : Int := 0
  /-- Tick of the map that carried the last grant. -/
  last : Nat := 0
  /-- R280: upstream frame in which the allocation last had a grant, plus 1; 0 none yet. -/
  lastFrame : Nat := 0
  /-- R291 hint series. -/
  hint : Option Hint := none
  /-- R291: a replacing series, in force from its own TICK. -/
  hintNext : Option Hint := none
  /-- R146: reported bytes of the last 128 ticks: (edge count, bytes), newest first. -/
  reported : List (Nat × Nat) := []
  /-- R146: granted bytes of the last 128 ticks: (edge count, bytes), newest first. -/
  grantLog : List (Nat × Nat) := []
  /-- R276: elapsed edge at which it was created. -/
  born : Nat := 0
  deriving DecidableEq, Repr

/-- One service flow (R145, R303). -/
structure Flow where
  /-- ONU. -/
  onu : Nat
  /-- XGEM. -/
  xgem : Nat
  /-- ALLOC or 0xFFFF. -/
  alloc : Nat
  /-- CLASS. -/
  cls : Nat
  /-- DIR. -/
  dir : Nat
  /-- ENCRYPT. -/
  encrypt : Nat
  /-- Drop counter of R145 and of buffer admission (Table 19-12). -/
  dropped : Nat := 0
  /-- Poisoned count of R233. -/
  poisoned : Nat := 0
  /-- R449 next IEEE 802.1CB sequence number. -/
  rseq : BitVec 16 := 0
  deriving DecidableEq, Repr

/-- A shaped node (R390, R396). -/
structure Node where
  /-- PRIO. -/
  prio : Nat := 0
  /-- WEIGHT. -/
  weight : Nat := 1
  /-- RATE, kbit/s; 0xFFFFFFFF is unlimited. -/
  rate : Nat := 0xFFFFFFFF
  /-- BURST, bytes. -/
  burst : Nat := 65536
  /-- TOKENS, 1/1,024 byte, signed. -/
  tokens : Int := 67108864
  /-- Edge count at the last refill. -/
  edge : Nat := 0
  /-- R393 deficit, bytes. -/
  deficit : Nat := 0
  /-- R393: the child that took the last turn, by the PRIO of the children; the child's index plus 1. -/
  turns : Tbl Nat := []
  /-- TM_NODE_SENT. -/
  sent : Nat := 0
  deriving DecidableEq, Repr

/-- An upstream policer (R400). -/
structure Policer where
  /-- RATE. -/
  rate : Nat := 0xFFFFFFFF
  /-- BURST, bytes. -/
  burst : Nat := 65536
  /-- TOKENS, 1/1,024 byte. -/
  tokens : Nat := 67108864
  /-- Edge count at the last refill. -/
  edge : Nat := 0
  /-- POL_FLOW_PASSED. -/
  passed : Nat := 0
  /-- POL_FLOW_DROPPED. -/
  dropped : Nat := 0
  deriving DecidableEq, Repr

/-- A stored first-fragment decision (R337). -/
structure FragDec where
  /-- Key: source port, IP version, addresses, identification, protocol. -/
  key : List Nat
  /-- ACTION. -/
  action : Nat
  /-- EXC_CLASS. -/
  exc : Nat
  /-- Class. -/
  cls : Nat
  /-- FLOW. -/
  flow : Nat
  /-- VRF. -/
  vrf : Nat
  /-- LOOKUP bits. -/
  lookup : Nat
  /-- META. -/
  metaVal : Nat
  /-- Deciding rule. -/
  rule : Option Nat
  /-- Clock of its creation. -/
  born : Nat
  deriving DecidableEq, Repr

/-- The order state of one source port (R322 to R324). -/
structure Order where
  /-- Next number to assign. -/
  assign : Nat := 0
  /-- Next number to release. -/
  expect : Nat := 0
  /-- Finished packets that wait: (number, packet or given up, clock). -/
  done : List (Nat × Option Pkt × Nat) := []
  deriving DecidableEq, Repr

/-- A rule entry or empty (R331): the BODY bytes as written. -/
abbrev Body := Bytes

/-- One rule bank (R329, R330). -/
structure Bank where
  /-- Rule bodies by index. -/
  rules : Tbl Body := []
  /-- Payload patterns by index. -/
  patterns : Tbl Bytes := []
  deriving DecidableEq, Repr

/-- Device-wide classification state (Table 13-11). -/
structure Cls where
  /-- Bank A. -/
  bankA : Bank := {}
  /-- Bank B. -/
  bankB : Bank := {}
  /-- CLS_EPOCH. -/
  epoch : Nat := 0
  /-- CLS_SWAPS. -/
  swaps : Nat := 0
  /-- SWAP_PENDING. -/
  pending : Bool := false
  /-- DRAINING. -/
  draining : Bool := false
  /-- SWAP_DONE. -/
  done : Bool := true
  /-- R335: clock of the swap's T0. -/
  swapAt : Nat := 0
  /-- R335: tick of the swap. -/
  swapTick : Nat := 0
  /-- R335: the RULE_SWAP that is answered after SWAP_DONE. -/
  req : Option Req := none
  deriving DecidableEq, Repr

/-- One rogue isolation (R523). -/
structure Isolation where
  /-- Channel. -/
  channel : Nat
  /-- LINE_FAULT kind that started it. -/
  kind : Nat
  /-- Candidates C in LINE_ID order. -/
  cands : List Nat
  /-- Entries it has disabled. -/
  off : List Nat := []
  /-- Round. -/
  round : Nat := 0
  /-- Edge count at which the round began. -/
  from' : Nat := 0
  deriving DecidableEq, Repr

/-- Packets and tables of one datapath die (13, 14). -/
structure Die where
  /-- R337 first-fragment decisions, oldest first. -/
  frags : List FragDec := []
  /-- R338 holding area: (key, packet, arrival clock), in arrival order. -/
  holding : List (List Nat × Pkt × Nat) := []
  /-- R333 packets that await their next pass, oldest first. -/
  recirc : List Pkt := []
  /-- R324: placements so far. -/
  place : Nat := 0
  /-- R324: the wait for fence tokens has ended without them; results of an older placement are discarded. -/
  late : Bool := false
  /-- R322 order state by placement × 2^20 + source port. -/
  order : Tbl Order := []
  /-- R322 pipeline that takes the next packet. -/
  rot : Nat := 0
  /-- R324: results wait for fence tokens. -/
  fence : Bool := false
  /-- R264: fences of ONUs whose channel changed: (ONU, old channel, clock of the first waiting frame, the wait has ended without a token). -/
  onuFences : List (Nat × Nat × Option Nat × Bool) := []
  /-- R324: clock of the first waiting result. -/
  fenceAt : Option Nat := none
  /-- R324: released results of the new placement that wait. -/
  fenced : List Pkt := []
  /-- R353 exact-match entries by slot index. -/
  em : Tbl Bytes := []
  /-- R361 invalidated slots. -/
  emBad : List Nat := []
  /-- R355 learn requests, oldest first: (entry without index). -/
  learn : List Bytes := []
  /-- R356 moving-entry register: (entry, old index, new index). -/
  moving : Option (Bytes × Nat × Nat) := none
  /-- R358 next slot the scanner visits. -/
  scan : Nat := 0
  /-- R235 open reassembly contexts: (XGEM key, ONU, bytes, edge of opening, failed). -/
  reasm : List (Nat × Nat × Bytes × Nat × Bool) := []
  /-- R523 the running rogue isolation. -/
  rogue : Option Isolation := none
  /-- R523 triggers that wait: (channel, kind). -/
  rogueWait : List (Nat × Nat) := []
  deriving DecidableEq, Repr

/-- A trie restore record (R363, Table 14-8). -/
structure Restore where
  /-- WORD. -/
  word : Nat
  /-- VRF. -/
  vrf : Nat
  /-- AF. -/
  af : Nat
  /-- LEN. -/
  len : Nat
  /-- PREFIX, 128 bits left-aligned. -/
  pfx : Nat
  /-- STAGE. -/
  stage : Nat
  /-- OPENED_S. -/
  opened : Nat
  deriving DecidableEq, Repr

/-- One route; `hidden` marks a route of a replacement subtree (R363). -/
structure Route where
  /-- VRF. -/
  vrf : Nat
  /-- AF. -/
  af : Nat
  /-- LEN. -/
  len : Nat
  /-- PREFIX, 128 bits left-aligned. -/
  pfx : Nat
  /-- NEXTHOP. -/
  nh : Nat
  /-- R363 hidden. -/
  hidden : Bool := false
  deriving DecidableEq, Repr

/-- One next hop (R351). -/
structure NextHop where
  /-- PORT. -/
  port : Nat
  /-- SUBPORT. -/
  sub : Nat
  /-- DMAC, 6 bytes, first byte most significant. -/
  dmac : Nat
  /-- VLAN; 0xFFFF untagged. -/
  vlan : Nat
  /-- R361 invalidated. -/
  bad : Bool := false
  deriving DecidableEq, Repr

/-- The Polder's trie and next-hop table (R347 to R351, R363). -/
structure Trie where
  /-- Routes held. -/
  routes : List Route := []
  /-- Next hops by handle. -/
  nh : Tbl NextHop := []
  /-- Open restore records. -/
  restores : List Restore := []
  deriving DecidableEq, Repr

/-- One exception bucket (R341); class 16 is the total. Tokens in units of 10^-9 packet. -/
structure ExcBucket where
  /-- RATE. -/
  rate : Nat := 100000
  /-- BURST. -/
  burst : Nat := 1000
  /-- Tokens. -/
  tokens : Nat := 1000000000000
  /-- Elapsed time at the last fill. -/
  filledAt : Nat := 0
  deriving DecidableEq, Repr

/-- One buffer owner (R368, R370, R384). Lists are by pool 0 to 3. -/
structure Owner where
  /-- RESERVED. -/
  reserved : List Nat := [0, 0, 0, 0]
  /-- QUOTA. -/
  quota : List Nat := [4096, 1024, 1024, 128]
  /-- IN_USE. -/
  inUse : List Nat := [0, 0, 0, 0]
  /-- PEAK. -/
  peak : List Nat := [0, 0, 0, 0]
  /-- BUF_OWNER_CFG.SPILL_PROF. -/
  prof : Nat := 0
  /-- BUF_OWNER_CFG.BASIN_MAX. -/
  basinMax : Nat := 0
  /-- Basin pages held. -/
  pages : Nat := 0
  /-- R369: its entry is ABSENT and it waits for its last buffer. -/
  leaving : Bool := false
  deriving DecidableEq, Repr

/-- A buffer request held at step 6 (R376): requester 0 to 3 Dikes, 4 to 5 Sluices, 6 + n DMA channel n. -/
structure HeldBuf where
  /-- Requester. -/
  who : Nat
  /-- The packet that waits. -/
  pkt : Pkt
  /-- Pool. -/
  pool : Nat
  /-- Clock of its arrival. -/
  at' : Nat
  deriving DecidableEq, Repr

/-- The buffer manager and the Basin (15_buffers.md). -/
structure Buf where
  /-- R381 allocated buffers: pool × 2^20 + index to owner tag. -/
  alloc : Tbl Nat := []
  /-- R375 pools in WARNING. -/
  warn : List Bool := [false, false, false, false]
  /-- BUF_POOLn_LOW: lowest FREE since last read. -/
  low : List Nat := [131072, 32768, 32768, 3072]
  /-- Owners by tag. -/
  owners : Tbl Owner := []
  /-- R376 held requests, oldest first. -/
  held : List HeldBuf := []
  /-- R21, R376 packets in the link queues of the dies, behind a held one or during a retrain, oldest first. -/
  recvQ : List Pkt := []
  /-- R378 requester that last received a buffer, by pool and class (pool × 3 + class). -/
  lastGrant : Tbl Nat := []
  /-- Buffers that the egress still references: (pool, index). -/
  egress : List (Nat × Nat) := []
  /-- R382 buffers found unreferenced in the last sweep. -/
  orphans : List Nat := []
  /-- R384 Basin stacks that place pages. -/
  placing : List Bool := [false, false, false, false]
  /-- Pages used in each stack. -/
  used : List Nat := [0, 0, 0, 0]
  /-- Retired pages in each stack (R386). -/
  retired : List Nat := [0, 0, 0, 0]
  /-- R384 stack that takes the next page. -/
  rot : Nat := 0
  /-- Bytes in the staging area (R385). -/
  staged : Nat := 0
  /-- R387: clock at which a stack's switch-off was ordered. -/
  draining : Tbl Nat := []
  deriving DecidableEq, Repr

/-- A gate list (R403): entries (GATES, INTERVAL_NS), CYCLE_NS and BASE. -/
structure GateList where
  /-- Entries in order. -/
  entries : List (Nat × Nat)
  /-- CYCLE_NS. -/
  cycle : Nat
  /-- BASE. -/
  base : Nat
  deriving DecidableEq, Repr

/-- One uplink subport (16, 17). -/
structure Sub where
  /-- Link up (UPL_q_STATUS). -/
  up : Bool := false
  /-- MISWIRE (UPL_q_STATUS). -/
  miswire : Bool := false
  /-- R404 pending gate entries by index. -/
  pend : Tbl (Nat × Nat) := []
  /-- R404 scheduled list; a list with no entries removes the one in force. -/
  sched : Option GateList := none
  /-- GATE_s_CHANGE. -/
  change : Nat := 0
  /-- R403 list in force. -/
  force : Option GateList := none
  /-- R407 classes marked preemptable, in force. -/
  preempt : Nat := 0
  /-- R407 PREEMPT_ACTIVE: the verify exchange has been answered. -/
  verified : Bool := false
  /-- R407: clock at which the present verify try starts. -/
  verifyAt : Nat := 0
  /-- R402 class queues, by class. -/
  queues : Tbl (List Pkt) := []
  /-- R408 a preemptable frame cut at gate closure: (class, packet, bytes left). -/
  cut : Option (Nat × Pkt × Nat) := none
  /-- R402: clock up to which the MAC sends the frame it has started. -/
  busyTo : Nat := 0
  /-- R407: the preemptable frame being sent: (class, packet, bytes left at its start, clock of its start). -/
  air : Option (Nat × Pkt × Nat × Nat) := none
  /-- R420 transmit timestamp FIFO, oldest first: (tag, sec, ns, frac). -/
  fifo : List (Nat × Nat × Nat × Nat) := []
  /-- R431 readout registers: (sec, ns, frac). -/
  readout : Nat × Nat × Nat := (0, 0, 0)
  /-- R429: clock of the last link-up. -/
  upAt : Nat := 0
  deriving DecidableEq, Repr

/-- One uplink lane (R416, R417). -/
structure Lane where
  /-- SIGNAL. -/
  signal : Bool := false
  /-- LOCKED. -/
  locked : Bool := false
  /-- RX_INV. -/
  inv : Bool := false
  /-- FAULT code of Table 17-3. -/
  fault : Nat := 0
  /-- Consecutive clean checks while in fault. -/
  clean : Nat := 0
  deriving DecidableEq, Repr

/-- One SyncE output (R429). -/
structure SyncE where
  /-- ENABLE. -/
  enable : Bool := false
  /-- Selected local subport. -/
  sub : Nat := 0
  /-- ACTIVE. -/
  active : Bool := false
  deriving DecidableEq, Repr

/-- One optical engine (R207 to R214). -/
structure Engine where
  /-- LINK_UP. -/
  up : Bool := false
  /-- ENG_FAULT. -/
  fault : Bool := false
  /-- FAULT_CODE. -/
  code : Nat := 0
  /-- Consecutive intact telemetry frames, at most 4. -/
  good : Nat := 0
  /-- Edge count at the last intact telemetry frame. -/
  lastEdge : Nat := 0
  /-- Edge count at which command frames started; the link has not come up since. -/
  startEdge : Option Nat := none
  /-- R213 bit 2: a command frame failed at the engine since the last ENGINE_GET. -/
  cmdFail : Bool := false
  /-- R213 bit 3: a telemetry frame failed at the Dike since the last ENGINE_GET. -/
  telFail : Bool := false
  /-- Last TEMP record, none since the link came up. -/
  temp : Option Nat := none
  /-- Last TX_POWER record by channel index in the engine. -/
  txPower : Tbl Nat := []
  /-- Edge count of the last refresh under R210. -/
  refreshed : Nat := 0
  deriving DecidableEq, Repr

/-- One die link (R21 to R23). -/
structure DLink where
  /-- LINK_UP. -/
  up : Bool := false
  /-- RETRAINING. -/
  retraining : Bool := false
  /-- FATAL. -/
  fatal : Bool := false
  /-- SPARE_USED. -/
  spareUsed : Nat := 0
  /-- SPARE_LEFT. -/
  spareLeft : Nat := 0
  /-- R21: times in a row that the present flit has failed. -/
  fails : Nat := 0
  /-- R22: retrains in a row that failed. -/
  badTrains : Nat := 0
  /-- R23: a flit has been replayed since the last probe flit. -/
  replayed : Bool := false
  /-- LAT_LAST. -/
  latLast : Nat := 0
  /-- LAT_MAX. -/
  latMax : Nat := 0
  deriving DecidableEq, Repr

/-- Per-channel protection state (R447 to R450, Table 18-12). -/
structure RedCh where
  /-- R447: upstream microframes before this one were addressed by the old active's maps. -/
  listenTo : Nat := 0
  /-- R448 last samples, newest first, at most 16. -/
  samples : List Int := []
  /-- DIVERGED. -/
  diverged : Bool := false
  /-- Clock since which the channel is DIVERGED. -/
  divergedAt : Nat := 0
  /-- R450 numbered frames of each upstream microframe whose census is open: (microframe, (flow, sequence) in order). -/
  cens : List (Nat × List (Nat × Nat)) := []
  /-- R450 frames held by microframe: (tick, packets). -/
  heldF : List (Nat × List Pkt) := []
  deriving DecidableEq, Repr

/-- The Belvedere and the mirror link (18_redundancy.md). -/
structure Red where
  /-- R434 role. -/
  role : Role := .alone
  /-- RED_STATUS.PEER_ROLE; 4 failed or unknown. -/
  peer : Nat := 4
  /-- RED_STATUS.LAST_CAUSE. -/
  lastCause : Nat := 0
  /-- Clock of the start of the last valid HB_IN pulse. -/
  lvdsAt : Option Nat := none
  /-- Clock of the last valid mirror-link heartbeat. -/
  mirAt : Option Nat := none
  /-- R436: clock of the last heartbeat sent. -/
  sentAt : Nat := 0
  /-- Role code low bits of the previous mirror-link heartbeat. -/
  mirRole : Option Nat := none
  /-- R435: this device took over from its partner and has had no standby heartbeat since. -/
  tookOver : Bool := false
  /-- R435: clock of the last ACTIVE claim. -/
  claimAt : Option Nat := none
  /-- RED_STATUS.FLAG_OUT. -/
  flag : Bool := false
  /-- R439, R440: clock at which the flag was raised. -/
  flagAt : Nat := 0
  /-- R440: the flag's cause stops the device. -/
  flagStops : Bool := false
  /-- R440: causes of the flag that have not ended: 1 a Pavilion restart, 4 PD15 off. -/
  flagWait : Nat := 0
  /-- R438: the partner has been declared failed and not been heard since. -/
  failedPeer : Bool := false
  /-- Clock at which the present role began. -/
  since : Nat := 0
  /-- R459: a heartbeat over the Towpath lane asks for a wake. -/
  wake : Bool := false
  /-- R444: the watch, with the clock at which it ends. -/
  watch : Option Nat := none
  /-- RED_CONFIG PAIR_ID. -/
  pairId : Nat := 0
  /-- RED_CONFIG ENABLE. -/
  enable : Bool := false
  /-- R453 pair key. -/
  pairKey : Option Bytes := none
  /-- R446: planned switch: (request or none, tick s, acknowledged, swapped). -/
  planned : Option (Option Req × Nat × Bool × Bool) := none
  deriving DecidableEq, Repr

/-- The mirror link's own state (R456 to R459). -/
structure Mir where
  /-- MIR_STATUS.LINK_UP. -/
  up : Bool := false
  /-- MIR_STATUS.DESKEWED. -/
  deskewed : Bool := false
  /-- MIR_STATUS.LANE_LOCK. -/
  lock : Nat := 0
  /-- MIR_STATUS negotiated version, 0 none. -/
  version : Nat := 0
  /-- Partner's highest version. -/
  peerVer : Nat := 0
  /-- Partner's PAIR_ID. -/
  peerPair : Nat := 0
  /-- Number of the next record to send. -/
  nextTx : Nat := 0
  /-- Number of the next record expected. -/
  nextRx : Nat := 0
  /-- R457 records sent and not acknowledged, oldest first: (number, record, clock). -/
  store : List (Nat × Rec × Nat) := []
  /-- R452 mirrored commands that wait for their acknowledgement: (record number, request, status, detail, payload). -/
  waiting : List (Nat × Req × Nat × Nat × Bytes) := []
  /-- R457: clock of the last acknowledgement or first unacknowledged send. -/
  ackAt : Nat := 0
  /-- R454: the bulk copy is complete. -/
  bulk : Bool := false
  /-- R454: a bulk copy has been requested. -/
  copying : Bool := false
  /-- R452: mirroring has stopped. -/
  stopped : Bool := false
  /-- R454: records that arrived during the copy, oldest first. -/
  later : List Rec := []
  deriving DecidableEq, Repr

/-- One DMA channel (R463 to R475, Table 19-5). -/
structure Dma where
  /-- STATE. -/
  state : DmaState := .disabled
  /-- EN. -/
  en : Bool := false
  /-- DMA_CHn_DESC. -/
  desc : Nat := 0
  /-- HALT_CAUSE. -/
  haltCause : Nat := 0
  /-- ERR_DIR. -/
  errDir : Nat := 0
  /-- LAST_BEAT. -/
  lastBeat : Bool := false
  /-- COUNT. -/
  count : Nat := 0
  /-- The descriptor in use, 32 bytes. -/
  cur : Option Bytes := none
  /-- Address of the SOP descriptor of the packet in progress. -/
  sopAt : Option Nat := none
  /-- Bytes gathered for an injected packet. -/
  part : Bytes := []
  /-- The unit in transfer to the host. -/
  unit : Option Bytes := none
  /-- Bytes of the unit already written to the host. -/
  done : Nat := 0
  /-- The exception packet that the unit is, or the injected packet in progress with the buffer it holds (R467). -/
  pkt : Option Pkt := none
  /-- Status code the current packet's descriptors take (R467). -/
  code : Nat := 0
  /-- R466: DMA_CHn_DESC has been written since the end of the list. -/
  descNew : Bool := false
  deriving DecidableEq, Repr

/-- One performance counter with its shadow (R477, R478). -/
structure Perf where
  /-- PERF_d_j_VAL, 48 bits. -/
  val : Nat := 0
  /-- PERF_d_j_SNAP. -/
  snap : Nat := 0
  /-- The shadow bank, not yet swapped in. -/
  shadow : Nat := 0
  deriving DecidableEq, Repr

/-- One bandwidth monitor (R479). -/
structure BwMon where
  /-- Window totals being counted. -/
  curBytes : Nat := 0
  /-- Window totals being counted. -/
  curFrames : Nat := 0
  /-- Clock at which the running window began; none while none runs. -/
  winFrom : Option Nat := none
  deriving DecidableEq, Repr

/-- One trace slot in use (R481, Table 19-10). -/
structure Trace where
  /-- UPTIME_NS at stage 0. -/
  at' : Nat
  /-- SRC. -/
  src : Nat
  /-- DIE. -/
  die : Nat
  /-- PASSES. -/
  passes : Nat := 1
  /-- LEN. -/
  len : Nat := 0
  /-- FLOW. -/
  flow : Nat := 0xFFFFFFFF
  /-- DEST. -/
  dest : Nat := 0
  /-- CLASS. -/
  cls : Nat := 0
  /-- Stamps of stages 1 to 9, ns after stage 0. -/
  stamps : Tbl Nat := []
  /-- OUTCOME once the packet's way has ended: 0 sent, 1 dropped, 2 to PF1. -/
  ended : Option Nat := none
  deriving DecidableEq, Repr

/-- Counters, monitors and trace (19_dma_and_counters.md). -/
structure Meas where
  /-- PERF counters by DIE × 64 + j. -/
  perf : Tbl Perf := []
  /-- SNAP_BUSY. -/
  busy : Bool := false
  /-- Bandwidth monitors by m. -/
  bw : Tbl BwMon := []
  /-- Trace slots by slot number. -/
  slots : Tbl Trace := []
  deriving DecidableEq, Repr

/-- A power request (R488): target, OFF_MASK, source (0 register, 1 command). -/
structure PReq where
  /-- STATE. -/
  state : PState
  /-- OFF_MASK. -/
  mask : Nat
  /-- 0 register, 1 command. -/
  src : Nat
  /-- Wake source of the change, 0xFF none. -/
  wake : Nat := 0xFF
  deriving DecidableEq, Repr

/-- The running power change (R489 to R497). -/
structure Change where
  /-- The request. -/
  req : PReq
  /-- Domains to switch off. -/
  off : Nat
  /-- Domains to switch on. -/
  on : Nat
  /-- 1 turning off, 2 turning on. -/
  phase : Nat
  /-- Clock at which it started. -/
  from' : Nat
  /-- Clock of the frame boundary from which the channels concerned send Towpath frames (R490 step 2). -/
  tpAt : Nat := 0
  /-- Drain over (R490 step 3). -/
  drained : Bool := false
  /-- Clock at or after which the drain ends. -/
  drainAt : Nat := 0
  deriving DecidableEq, Repr

/-- One AVSBus rail move (R496, R497). -/
structure Avs where
  /-- Rail in the order of Table 20-6. -/
  rail : Nat
  /-- Target in mV. -/
  target : Nat
  /-- Voltage of the step now asked. -/
  step : Nat
  /-- The step has been repeated once. -/
  again : Bool := false
  /-- Clock of the write. -/
  at' : Nat := 0
  deriving DecidableEq, Repr

/-- Power control (20_power_management.md). -/
structure Power where
  /-- CUR_STATE. -/
  cur : PState := .running
  /-- Domains on (POWER_ON_MASK); bit 0 is PD00. -/
  on : Nat := 1
  /-- Domains whose bring-up has been ordered and has not completed. -/
  rising : Nat := 0
  /-- Bring-up start clock of a rising domain. -/
  riseAt : Tbl Nat := []
  /-- R484: clock at which a domain's bring-up completed. -/
  upAt : Tbl Nat := []
  /-- R487: the restore of R486 is still owed to these domains. -/
  owed : Nat := 0
  /-- The running change. -/
  run : Option Change := none
  /-- The queued request. -/
  queued : Option PReq := none
  /-- LAST_WAKE, 0xF none. -/
  lastWake : Nat := 0xF
  /-- POWER_RESUME: state and OFF_MASK. -/
  resume : PState × Nat := (.running, 0)
  /-- OFF_MASK of the present Trimmed state. -/
  offMask : Nat := 0
  /-- POWER_WAKE_LATCH. -/
  latch : BitVec 32 := 0
  /-- R494 channel of a latched source 6. -/
  latchCh : Nat := 0
  /-- POWER_AVS_SETr present setpoints in mV, r in the order of Table 20-6. -/
  set : List Nat := [750, 750, 750, 750, 750, 750, 750]
  /-- POWER_AVS_SETr.FUSED in mV, r in the order of Table 20-6. -/
  fused : List Nat := [750, 750, 750, 750, 750, 750, 750]
  /-- AVSBus moves in progress or waiting, oldest first. -/
  avs : List Avs := []
  /-- R497: clock of the last trim by rail. -/
  trimAt : Tbl Nat := []
  deriving DecidableEq, Repr

/-- One event-log entry (R506, Table 21-3). -/
structure LogEntry where
  /-- INDEX. -/
  index : Nat
  /-- BOOT_SEQ. -/
  boot : Nat
  /-- UPTIME_NS. -/
  uptime : Nat
  /-- PTP_SEC and PTP_NS when TOD_VALID. -/
  ptp : Option (Nat × Nat)
  /-- FLAGS bit 1 DOMAIN. -/
  domain : Nat
  /-- FLAGS bit 2 UPTIME_OSC. -/
  osc : Bool
  /-- SEVERITY. -/
  sev : Nat
  /-- SOURCE. -/
  source : Nat
  /-- CODE. -/
  code : Nat
  /-- REPEATS. -/
  repeats : Nat
  /-- DATA, at most 28 bytes; the rest is zero. -/
  data : Bytes
  deriving DecidableEq, Repr

/-- A reflectometry run or result of a tree (R516 to R520). -/
structure Otdr where
  /-- Run in progress: (first edge, SPAN_M, total ticks). -/
  run : Option (Nat × Nat × Nat) := none
  /-- A run has been ordered and starts at the next T0: (SPAN_M, AVG_TICKS). -/
  ordered : Option (Nat × Nat) := none
  /-- The run's channel, at tree position 0. -/
  channel : Nat := 0
  /-- R519: the role under which it was ordered. -/
  role : Role := .alone
  /-- R519: Pavilion restarts that had begun when it was ordered. -/
  restarts : Nat := 0
  /-- DONE_TICKS. -/
  done : Nat := 0
  /-- EVENTS. -/
  count : Nat := 0
  /-- Events of the last completed run: (DIST_DM, LOSS, REFL). -/
  events : List (Nat × Nat × Nat) := []
  /-- A run has completed on the tree. -/
  valid : Bool := false
  /-- R520: `prev` holds a completed run. -/
  prior : Bool := false
  /-- R520, R255: events of the last completed run before the present results were dropped. -/
  prev : List (Nat × Nat × Nat) := []
  deriving DecidableEq, Repr

/-- The update engine (R511 to R515). -/
structure Upd where
  /-- State. -/
  state : UpdState := .idle
  /-- RESULT. -/
  result : Nat := 0
  /-- Target slot. -/
  slot : Nat := 0
  /-- LEN of UPD_BEGIN. -/
  len : Nat := 0
  /-- RECEIVED. -/
  received : Nat := 0
  /-- ACTIVATE of the UPD_COMMIT that verifies. -/
  activate : Bool := false
  /-- R514: the directory names the target and the restart is owed. -/
  written : Bool := false
  deriving DecidableEq, Repr

/-- The Pavilion (21_management_and_faults.md). -/
structure Pav where
  /-- PAV_STATUS.LOCKSTEP_OK. -/
  lockstep : Bool := true
  /-- PAV_STATUS.RESTARTING. -/
  restarting : Bool := false
  /-- R125: a planned restart has been ordered; no new request is taken. -/
  ordered : Bool := false
  /-- R126: the running restart is unplanned. -/
  unplanned : Bool := false
  /-- PAV_STATUS.PAV_FAILED. -/
  failed : Bool := false
  /-- PAV_STATUS.BOOT_SEQ_STALE. -/
  stale : Bool := false
  /-- RESTART_COUNT. -/
  restarts : Nat := 0
  /-- Uptime at which the running restart began. -/
  restartAt : Nat := 0
  /-- Restarts that have begun since device reset, complete or not. -/
  begun : Nat := 0
  /-- R503 uptimes of the last unplanned restarts, newest first. -/
  recent : List Nat := []
  /-- PAV_BOOT_SEQ. -/
  bootSeq : Nat := 0
  /-- R510: the value is kept for this start-up. -/
  bootKept : Bool := false
  /-- PAV_LOG_NEXT. -/
  logNext : Nat := 0
  /-- R507 the SRAM ring, newest first, at most 16,384. -/
  log : List LogEntry := []
  /-- R508 entries not yet in flash: (index, due uptime). -/
  toFlash : List (Nat × Nat) := []
  /-- R508 entries that the flash log area holds, newest first. -/
  flash : List LogEntry := []
  /-- R508: uptime before which a failed write is not retried. -/
  flashAfter : Nat := 0
  /-- R504: clock of the last sample. -/
  sampleAt : Nat := 0
  /-- R509 merges: (code, source, first 8 DATA bytes, uptime written, merged count). -/
  merges : List (Nat × Nat × Bytes × Nat × Nat) := []
  /-- Rate limits of individual rules: key to the uptime of the last act. -/
  limits : List (List Nat × Nat) := []
  /-- R504 last sample by DIE × 16 + SENSOR, 16-bit two's complement, 0x8000 invalid. -/
  temps : Tbl Nat := []
  /-- R504 rails: (mV, 10 mA). -/
  rails : Tbl (Nat × Nat) := []
  /-- R505 sensors in alarm: (die, sensor, level). -/
  alarms : List (Nat × Nat × Nat) := []
  /-- R505 rails out of range since: (rail, uptime). -/
  railOut : List (Nat × Nat) := []
  /-- R504 sensors whose invalid reading has been logged. -/
  invalid : List (Nat × Nat) := []
  /-- R537 THROTTLED. -/
  throttled : Nat := 0
  /-- R537: THROTTLED from the next T0. -/
  throttleNext : Nat := 0
  /-- R537: uptime since which a throttled die reads 102.0 °C or less. -/
  cool : Tbl Nat := []
  /-- R538 HBM_HOT. -/
  hbmHot : Nat := 0
  /-- R538: uptime since which a hot stack reads 90.0 °C or less. -/
  hbmCool : Tbl Nat := []
  /-- R539 sensors above the trip limit at the last sample: (die, sensor). -/
  tripNear : List (Nat × Nat) := []
  /-- THERM_STATUS.TRIPPED. -/
  tripped : Bool := false
  /-- R361: uncorrectable words whose event the firmware still owes: (DIE, TABLE, INDEX, restore record). -/
  owed : List (Nat × Nat × Nat × Option Restore) := []
  /-- Pins in fault: (group of Table 21-7, pin in the group, consecutive clean checks). -/
  pinFaults : List (Nat × Nat × Nat) := []
  deriving DecidableEq, Repr

/-- Quota record of a tenant (R298). -/
structure Tenant where
  /-- ONUS. -/
  onus : Nat := 0
  /-- FLOWS. -/
  flows : Nat := 0
  /-- ALLOCS. -/
  allocs : Nat := 0
  /-- BUF_KIB. -/
  bufKib : Nat := 0
  /-- CMD_RATE. -/
  cmdRate : Nat := 20000
  /-- CMD_DEPTH. -/
  cmdDepth : Nat := 256
  deriving DecidableEq, Repr

/-- A received OMCI message (R144). -/
structure Omci where
  /-- HANDLE. -/
  handle : Nat
  /-- ONU. -/
  onu : Nat
  /-- Message. -/
  msg : Bytes
  /-- Uptime of its OMCI_RX event. -/
  at' : Nat
  deriving DecidableEq, Repr

/-- What the block has sent to its surroundings, newest first in `State.out`. -/
inductive Out where
  | completion (func : Nat) (bytes : Bytes)
  | abort (func : Nat)
  | unsupported (func : Nat)
  | msix (func vec : Nat)
  | response (func op : Nat) (seq : BitVec 32) (status detail : Nat) (payload : Bytes)
  | event (func code : Nat) (seq : BitVec 32) (lost : Bool) (payload : Bytes)
  | ploam (ch : Nat) (line : Option Nat) (name : String) (content : Bytes)
  | bcl (engine tick : Nat) (word : BitVec 32)
  | rxReset (ch tick instant width : Nat) (rssi : Bool)
  | i2c (engine dev reg : Nat) (write : Bool) (data : Bytes)
  | i2cRecover (engine : Nat)
  | omci (onu : Nat) (msg : Bytes)
  | bwmap (ch : Nat) (tick : Nat) (words : List (BitVec 64))
  | syncBlock (ch : Nat) (words : List (BitVec 64))
  | dsFrame (ch flow keyIdx : Nat) (data : Bytes)
  | upFrame (sp : Nat) (data : Bytes)
  | upCut (sp : Nat) (bytes : Nat)
  | badTail (dest : Dest) (fcs : Bytes)
  | dmaWrite (func addr : Nat) (data : Bytes)
  | dmaRead (func addr len : Nat)
  | pulse (m : Nat) (high : Bool) (width : Nat)
  | avs (rail mv : Nat)
  | heartbeat (width : Nat)
  | mirrorHb (flags tick : Nat)
  | record (number : Nat) (r : Rec)
  | ack (number : Nat)
  | census (ch tick count crc : Nat)
  | sample (ch onu mf start profile : Nat)
  | mute (ch : Nat) (on : Bool)
  | flashWrite (what : String) (data : Bytes)
  | lane (l : Nat) (enabled : Bool)
  | synce (n : Nat) (active : Bool)
  | xspiReset
  | driver (group idx : Nat) (on : Bool)
  deriving DecidableEq, Repr

/-- The PON side: channels, receivers, trees, registry, allocations and flows (08 to 12). -/
structure Pon where
  /-- R179 channels by c; absent is the default record. -/
  chans : Tbl Chan := []
  /-- Receivers by c; absent is the default record. -/
  recv : Tbl Recv := []
  /-- R183 trees by t. -/
  trees : Tbl Tree := []
  /-- R241 registry by ONU ID; absent is the ABSENT entry. -/
  onus : Tbl Onu := []
  /-- R272 allocations by tree × 16384 + ALLOC. -/
  allocs : Tbl Alloc := []
  /-- R303 flows by flow ID. -/
  flows : Tbl Flow := []
  /-- Downstream flow queues, oldest first, by flow ID. -/
  queues : Tbl (List Pkt) := []
  /-- R207 engines by e. -/
  engines : Tbl Engine := []
  /-- R298 tenant quota records by tenant; absent is the default record. -/
  tenants : Tbl Tenant := []
  /-- R144 OMCI messages received and held, oldest first. -/
  omci : List Omci := []
  /-- R144 next OMCI handle. -/
  omciNext : Nat := 1
  /-- R167 commands ordered for a tick edge, oldest first. -/
  commits : List Req := []
  /-- R35: Dikes whose PON_REFCLK was lost and whose lines have not restarted, bit n for Dike n. -/
  linesOff : Nat := 0
  deriving DecidableEq, Repr

/-- Classification, forwarding, buffers and shaping (13 to 16). -/
structure Data where
  /-- Rule banks and swap state (R344). -/
  cls : Cls := {}
  /-- Datapath dies by DIE encoding 0 to 5. -/
  dies : Tbl Die := []
  /-- The trie. -/
  trie : Trie := {}
  /-- R341 exception buckets by class, 16 the total. -/
  exc : Tbl ExcBucket := []
  /-- Packets that wait for the host, by exception class, oldest first. -/
  excWait : Tbl (List Pkt) := []
  /-- The buffer manager. -/
  buf : Buf := {}
  /-- R390 nodes: kind × 2^24 + index (0 channel, 1 ONU, 2 flow). -/
  nodes : Tbl Node := []
  /-- R400 policers by flow. -/
  policers : Tbl Policer := []
  /-- Uplink subports by s. -/
  subs : Tbl Sub := []
  /-- Uplink lanes by l. -/
  lanes : Tbl Lane := []
  /-- SyncE outputs by Sluice. -/
  synce : Tbl SyncE := []
  /-- DMA channels by n. -/
  dma : Tbl Dma := []
  /-- R466, R468: units of requesters 0x11 to 0x13 that wait for a channel, by requester, oldest first. -/
  units : Tbl (List Bytes) := []
  /-- R463: channel that was last offered a unit, by requester. -/
  offered : Tbl Nat := []
  /-- R234: frames that the egress has started before their tail. -/
  sending : List (Dest × Pkt) := []
  /-- R464 descriptor RAM, 64 KiB. -/
  descRam : Mem := []
  /-- Die links by n. -/
  dlinks : Tbl DLink := []
  deriving DecidableEq, Repr

/-- Everything the block holds but its queue of commands. -/
structure Dev where
  /-- The model's own count of free values drawn so far (no register of the device; log entry 2). -/
  draws : Nat := 0
  /-- What the block has sent, newest first (the model's own record of its outputs; log entry 3). -/
  out : List Out := []
  /-- Start-up. -/
  boot : Boot := {}
  /-- Fuse shadow registers. -/
  fuses : Fuses := {}
  /-- What the booted image fixes. -/
  image : Image := {}
  /-- Input pins. -/
  pins : Pins := {}
  /-- Time unit. -/
  time : Time := {}
  /-- PCIe port. -/
  pcie : Pcie := {}
  /-- R70 functions by index 0 to 63; absent is the default record. -/
  funcs : Tbl Func := []
  /-- Stored 32-bit registers by PF0 BAR0 byte address; absent reads as its reset value. -/
  regs : Tbl (BitVec 32) := []
  /-- 64-bit counters by PF0 BAR0 byte address; absent reads as 0. -/
  ctrs : Tbl (BitVec 64) := []
  /-- Values in force of registers that take effect at a T0, by address; absent is the reset value. -/
  live : Tbl (BitVec 32) := []
  /-- Writes that take effect at a coming T0: (tick, address, value), oldest first. -/
  due : List (Nat × Nat × BitVec 32) := []
  /-- R117: function at which the firmware's next round begins. -/
  round : Nat := 0
  /-- R89: uptime of the last log entry by function. -/
  daeLogged : Tbl Nat := []
  /-- PON side. -/
  pon : Pon := {}
  /-- Datapath, buffers, shaping, uplinks and DMA. -/
  data : Data := {}
  /-- Belvedere. -/
  red : Red := {}
  /-- Mirror link. -/
  mir : Mir := {}
  /-- Per-channel protection state by c. -/
  redch : Tbl RedCh := []
  /-- Counters, monitors and trace. -/
  meas : Meas := {}
  /-- Power control. -/
  power : Power := {}
  /-- The Pavilion. -/
  pav : Pav := {}
  /-- Reflectometry by tree. -/
  otdr : Tbl Otdr := []
  /-- Update engine. -/
  upd : Upd := {}
  deriving DecidableEq, Repr

/-- The machine: the queue of commands that wait, and the block. -/
structure State where
  /-- Commands waiting, first in, first out. -/
  pending : List Instr := []
  /-- The block. -/
  dev : Dev := {}
  deriving DecidableEq, Repr

/-- Why a step can stop. -/
inductive Fault where
  /-- Raised by a meaning whose command names a channel, pin, die or other object the device does not have
  (the well-formedness of Sys2Proof/WellFormed.lean fails). Safe: no such command can reach the hardware. -/
  | noSuchObject
  deriving DecidableEq, Repr

/-- Why a command has no meaning. -/
inductive Refusal where
  /-- Raised by an arm of Dispatch.lean whose command has no meaning yet. Safe: nothing is claimed of it. -/
  | notModelled (mnemonic : String)
  deriving DecidableEq, Repr

/-- The block while SYS_RESET_N is held low with the rails up, before any command: every register at its Reset column. -/
def State.reset : State := { pending := [], dev := {} }

end Sys2Proof.Machine
end

