-- ==== Sys2Proof/Machine/Ops.lean ====
section
/-! DEFINITION. The named operations over the block's state: access to its parts, registers and counters, free values,
interrupts, Kiosk rings, events and the event log.
Choices and readings: log entries 2, 3, 5, 9, 16, 35, 44 and 71. -/

namespace Sys2Proof.Machine

/-! ## Outcomes -/

/-- A command's effect on the block: the next state where the command names objects the device has, else the stop. -/
def act (ok : Bool) (f : Dev → Dev) (s : State) : Host.Outcome State Fault Refusal :=
  if ok then .next { s with dev := f s.dev } else .fault .noSuchObject

/-! ## Parts of the block -/

/-- Record an output. -/
def Dev.emit (d : Dev) (o : Out) : Dev := { d with out := o :: d.out }

/-- Draw a free value (log entry 2). -/
def Dev.draw (d : Dev) : Nat × Dev := (Config.freeValue d.draws, { d with draws := d.draws + 1 })

/-- Draw `n` bytes of the TRNG (R320). -/
def Dev.drawBytes (d : Dev) (n : Nat) : Bytes × Dev :=
  ((List.range n).map (fun i => Config.trngByte (d.draws + i)), { d with draws := d.draws + n })

def Dev.onBoot (d : Dev) (f : Boot → Boot) : Dev := { d with boot := f d.boot }
def Dev.onTime (d : Dev) (f : Time → Time) : Dev := { d with time := f d.time }
def Dev.onPcie (d : Dev) (f : Pcie → Pcie) : Dev := { d with pcie := f d.pcie }
def Dev.onPins (d : Dev) (f : Pins → Pins) : Dev := { d with pins := f d.pins }
def Dev.onPon (d : Dev) (f : Pon → Pon) : Dev := { d with pon := f d.pon }
def Dev.onData (d : Dev) (f : Data → Data) : Dev := { d with data := f d.data }
def Dev.onRed (d : Dev) (f : Red → Red) : Dev := { d with red := f d.red }
def Dev.onMir (d : Dev) (f : Mir → Mir) : Dev := { d with mir := f d.mir }
def Dev.onMeas (d : Dev) (f : Meas → Meas) : Dev := { d with meas := f d.meas }
def Dev.onPower (d : Dev) (f : Power → Power) : Dev := { d with power := f d.power }
def Dev.onPav (d : Dev) (f : Pav → Pav) : Dev := { d with pav := f d.pav }
def Dev.onUpd (d : Dev) (f : Upd → Upd) : Dev := { d with upd := f d.upd }
def Dev.onCls (d : Dev) (f : Cls → Cls) : Dev := d.onData fun x => { x with cls := f x.cls }
def Dev.onBuf (d : Dev) (f : Buf → Buf) : Dev := d.onData fun x => { x with buf := f x.buf }
def Dev.onTrie (d : Dev) (f : Trie → Trie) : Dev := d.onData fun x => { x with trie := f x.trie }

/-- Function `f`. -/
def Dev.fn (d : Dev) (f : Nat) : Func := Tbl.look {} d.funcs f
def Dev.onFn (d : Dev) (f : Nat) (g : Func → Func) : Dev := { d with funcs := Tbl.upd {} d.funcs f g }
/-- Kiosk of function `f`. -/
def Dev.kiosk (d : Dev) (f : Nat) : Kiosk := (d.fn f).kiosk
def Dev.onKiosk (d : Dev) (f : Nat) (g : Kiosk → Kiosk) : Dev := d.onFn f fun x => { x with kiosk := g x.kiosk }
/-- Crypto page of function `f`. -/
def Dev.page (d : Dev) (f : Nat) : Page := (d.fn f).page
def Dev.onPage (d : Dev) (f : Nat) (g : Page → Page) : Dev := d.onFn f fun x => { x with page := g x.page }
/-- Counter window of function `f`. -/
def Dev.onCw (d : Dev) (f : Nat) (g : Window → Window) : Dev := d.onFn f fun x => { x with cw := g x.cw }

/-- Channel `c`. -/
def Dev.chan (d : Dev) (c : Nat) : Chan := Tbl.look {} d.pon.chans c
def Dev.onChan (d : Dev) (c : Nat) (g : Chan → Chan) : Dev := d.onPon fun p => { p with chans := Tbl.upd {} p.chans c g }
/-- Receiver of channel `c`. -/
def Dev.recv (d : Dev) (c : Nat) : Recv := Tbl.look {} d.pon.recv c
def Dev.onRecv (d : Dev) (c : Nat) (g : Recv → Recv) : Dev := d.onPon fun p => { p with recv := Tbl.upd {} p.recv c g }
/-- Registry entry of ONU ID `o`. -/
def Dev.onu (d : Dev) (o : Nat) : Onu := Tbl.look {} d.pon.onus o
def Dev.onOnu (d : Dev) (o : Nat) (g : Onu → Onu) : Dev := d.onPon fun p => { p with onus := Tbl.upd {} p.onus o g }
/-- Tree `t`, if it exists. -/
def Dev.tree? (d : Dev) (t : Nat) : Option Tree := Tbl.get? d.pon.trees t
def Dev.onTree (d : Dev) (t : Nat) (g : Tree → Tree) : Dev := d.onPon fun p => { p with trees := Tbl.modify p.trees t g }
/-- Key of an allocation: tree and Alloc-ID (R272). -/
def allocKey (t a : Nat) : Nat := t * 16384 + a
def Dev.alloc? (d : Dev) (k : Nat) : Option Alloc := Tbl.get? d.pon.allocs k
def Dev.onAlloc (d : Dev) (k : Nat) (g : Alloc → Alloc) : Dev := d.onPon fun p => { p with allocs := Tbl.modify p.allocs k g }
def Dev.flow? (d : Dev) (f : Nat) : Option Flow := Tbl.get? d.pon.flows f
def Dev.onFlow (d : Dev) (f : Nat) (g : Flow → Flow) : Dev := d.onPon fun p => { p with flows := Tbl.modify p.flows f g }
/-- Downstream queue of flow `f`. -/
def Dev.queue (d : Dev) (f : Nat) : List Pkt := Tbl.look [] d.pon.queues f
def Dev.setQueue (d : Dev) (f : Nat) (q : List Pkt) : Dev := d.onPon fun p => { p with queues := Tbl.put [] p.queues f q }
/-- Optical engine `e`. -/
def Dev.eng (d : Dev) (e : Nat) : Engine := Tbl.look {} d.pon.engines e
def Dev.onEng (d : Dev) (e : Nat) (g : Engine → Engine) : Dev := d.onPon fun p => { p with engines := Tbl.upd {} p.engines e g }
/-- Quota record of tenant `t`. -/
def Dev.tenant (d : Dev) (t : Nat) : Tenant := Tbl.look {} d.pon.tenants t
def Dev.onTenant (d : Dev) (t : Nat) (g : Tenant → Tenant) : Dev := d.onPon fun p => { p with tenants := Tbl.upd {} p.tenants t g }
/-- Datapath die `n` (DIE encoding). -/
def Dev.die (d : Dev) (n : Nat) : Die := Tbl.look {} d.data.dies n
def Dev.onDie (d : Dev) (n : Nat) (g : Die → Die) : Dev := d.onData fun x => { x with dies := Tbl.upd {} x.dies n g }
/-- Uplink subport `s` = PORT × 8 + SUBPORT. -/
def Dev.sub (d : Dev) (s : Nat) : Sub := Tbl.look {} d.data.subs s
def Dev.onSub (d : Dev) (s : Nat) (g : Sub → Sub) : Dev := d.onData fun x => { x with subs := Tbl.upd {} x.subs s g }
def Dev.lane (d : Dev) (l : Nat) : Lane := Tbl.look {} d.data.lanes l
def Dev.onLane (d : Dev) (l : Nat) (g : Lane → Lane) : Dev := d.onData fun x => { x with lanes := Tbl.upd {} x.lanes l g }
def Dev.synce (d : Dev) (n : Nat) : SyncE := Tbl.look {} d.data.synce n
def Dev.onSynce (d : Dev) (n : Nat) (g : SyncE → SyncE) : Dev := d.onData fun x => { x with synce := Tbl.upd {} x.synce n g }
def Dev.dmaCh (d : Dev) (n : Nat) : Dma := Tbl.look {} d.data.dma n
def Dev.onDma (d : Dev) (n : Nat) (g : Dma → Dma) : Dev := d.onData fun x => { x with dma := Tbl.upd {} x.dma n g }
def Dev.dlink (d : Dev) (n : Nat) : DLink := Tbl.look {} d.data.dlinks n
def Dev.onDlink (d : Dev) (n : Nat) (g : DLink → DLink) : Dev := d.onData fun x => { x with dlinks := Tbl.upd {} x.dlinks n g }
/-- Key of a hierarchy node: kind 0 channel, 1 ONU, 2 flow. -/
def nodeKey (kind i : Nat) : Nat := kind * 2 ^ 24 + i
/-- A node: a channel's always exists, an ONU's and a flow's while that exists; it starts as R399 says. -/
def Dev.node (d : Dev) (k : Nat) : Node := Tbl.look {} d.data.nodes k
def Dev.onNode (d : Dev) (k : Nat) (g : Node → Node) : Dev := d.onData fun x => { x with nodes := Tbl.upd {} x.nodes k g }
/-- Policer of flow `f`. -/
def Dev.pol (d : Dev) (f : Nat) : Policer := Tbl.look {} d.data.policers f
def Dev.onPol (d : Dev) (f : Nat) (g : Policer → Policer) : Dev := d.onData fun x => { x with policers := Tbl.upd {} x.policers f g }
/-- Owner tag (Table 15-2). -/
def ownerTag (kind i : Nat) : Nat := kind * 2 ^ 24 + i
/-- An owner as it is created (R369, R384). -/
def ownerNew (tag : Nat) : Owner :=
  let k := tag / 2 ^ 24
  { basinMax := if k = 1 then 128 else if k = 2 then 32 else if k = 3 then 2048 else 0 }
def Dev.owner (d : Dev) (t : Nat) : Owner := Tbl.look (ownerNew t) d.data.buf.owners t
def Dev.onOwner (d : Dev) (t : Nat) (g : Owner → Owner) : Dev :=
  d.onBuf fun b => { b with owners := Tbl.upd (ownerNew t) b.owners t g }
def Dev.redCh (d : Dev) (c : Nat) : RedCh := Tbl.look {} d.redch c
def Dev.onRedCh (d : Dev) (c : Nat) (g : RedCh → RedCh) : Dev := { d with redch := Tbl.upd {} d.redch c g }
def Dev.otdrOf (d : Dev) (t : Nat) : Otdr := Tbl.look {} d.otdr t
def Dev.onOtdr (d : Dev) (t : Nat) (g : Otdr → Otdr) : Dev := { d with otdr := Tbl.upd {} d.otdr t g }
/-- An exception bucket as it starts (R341); 16 is the total. -/
def excNew (k : Nat) : ExcBucket :=
  if k = 16 then { rate := 1000000, burst := 10000, tokens := 10000000000000 } else {}
def Dev.exc (d : Dev) (k : Nat) : ExcBucket := Tbl.look (excNew k) d.data.exc k
def Dev.onExc (d : Dev) (k : Nat) (g : ExcBucket → ExcBucket) : Dev :=
  d.onData fun x => { x with exc := Tbl.upd (excNew k) x.exc k g }
def Dev.ptp (d : Dev) (x : Nat) : Ptp := if x = 0 then d.time.ptpA else d.time.ptpB
def Dev.onPtp (d : Dev) (x : Nat) (g : Ptp → Ptp) : Dev :=
  d.onTime fun t => if x = 0 then { t with ptpA := g t.ptpA } else { t with ptpB := g t.ptpB }
def Dev.cmp (d : Dev) (m : Nat) : Cmp := nth {} d.time.cmp m
def Dev.onCmp (d : Dev) (m : Nat) (g : Cmp → Cmp) : Dev := d.onTime fun t => { t with cmp := modAt t.cmp m g }

/-- R441: this device is a standby. -/
def Dev.standby (d : Dev) : Bool := d.red.role == .syncing || d.red.role == .ready

/-- R441, R444: this device does not transmit: a standby, or an ACTIVE device during its watch. -/
def Dev.shadow (d : Dev) : Bool := d.standby || d.red.watch.isSome

/-- Repeat an effect over a list of objects, in order. -/
def Dev.each (d : Dev) (l : List Nat) (g : Nat → Dev → Dev) : Dev := l.foldl (fun d i => g i d) d

/-! ## Domains and dies -/

/-- Whether power domain `p` is on (POWER_ON_MASK); it counts as off until its bring-up completes (R86). -/
def Dev.domOn (d : Dev) (p : Nat) : Bool := bit d.power.on p

/-- Whether a die (DIE encoding) is marked failed. -/
def Dev.dieFailed (d : Dev) (n : Nat) : Bool := bit d.boot.dieFail n

/-- Die of a domain, if it is a Dike's or a Sluice's (Table 2-10). -/
def dieOfDomain (p : Nat) : Option Nat :=
  if 1 ≤ p && p ≤ 12 then some ((p - 1) % 4) else if p = 13 || p = 14 then some (p - 9) else none

/-- Whether the domain belongs to a die marked failed. -/
def Dev.domFailed (d : Dev) (p : Nat) : Bool :=
  match dieOfDomain p with
  | some n => d.dieFailed n
  | none => false

/-- R487: the three domains of channel `c` are on and its Dike is not marked failed. -/
def Dev.chanUp (d : Dev) (c : Nat) : Bool :=
  let n := c / 128
  !d.dieFailed n && d.domOn (1 + n) && d.domOn (5 + n) && d.domOn (9 + n)

/-- The datapath of a die (DIE encoding) is on and not failed. -/
def Dev.dieUp (d : Dev) (n : Nat) : Bool :=
  !d.dieFailed n && (if n < 4 then d.domOn (9 + n) else if n < 6 then d.domOn (9 + n) else d.domOn 15)

/-- R35: Dike `n` runs its lines and receivers: PON_REFCLK[n] is good, and a tick edge has passed since it returned. -/
def Dev.ponRuns (d : Dev) (n : Nat) : Bool :=
  bit (Tbl.look 0 d.regs A.refclk).toNat n && !bit d.pon.linesOff n

/-- Sluice of a port is up. -/
def Dev.portUp (d : Dev) (p : Nat) : Bool := d.dieUp (4 + p / 32)

/-- The device has come up and has not gone out of service for good (R61, R35, R539); the Pavilion may have failed (R503). -/
def Dev.inService (d : Dev) : Bool := d.boot.stage == 4 && !d.boot.halted

/-! ## Registers and counters -/

/-- Table 19-1: reset values of DMA_CHn_CFG (OWNER bit 0, REQ bits 15:8, BURST 64). -/
def dmaCfgReset (n : Nat) : Nat :=
  if n < 16 then 0x00400001 + 256 * (n + 1)
  else if n < 18 then 0x00400001
  else if n < 21 then 0x00400000 + 256 * (n - 1)
  else 0x00400000

/-- Reset value of a stored register. -/
def regReset (a : Nat) : W32 :=
  if decide (0x300004 ≤ a) && decide (a < 0x300804) && (a - 0x300004) % 0x40 = 0 then w32 (dmaCfgReset ((a - 0x300004) / 0x40))
  else w32 (descOf a).rst

/-- A stored 32-bit register. -/
def Dev.reg (d : Dev) (a : Nat) : Nat := (Tbl.look (regReset a) d.regs a).toNat

/-- Store a 32-bit register. -/
def Dev.setReg (d : Dev) (a v : Nat) : Dev := { d with regs := Tbl.put (regReset a) d.regs a (w32 v) }

/-- The value in force of a register that takes effect at a T0. -/
def Dev.live' (d : Dev) (a : Nat) : Nat := (Tbl.look (regReset a) d.live a).toNat

/-- Store the value in force of a register. -/
def Dev.setLive (d : Dev) (a v : Nat) : Dev := { d with live := Tbl.put (regReset a) d.live a (w32 v) }

/-- A 64-bit counter or stored value. -/
def Dev.ctr (d : Dev) (a : Nat) : Nat := (Tbl.look 0 d.ctrs a).toNat

/-- Store a 64-bit value. -/
def Dev.setCtr (d : Dev) (a v : Nat) : Dev := { d with ctrs := Tbl.put 0 d.ctrs a (w64 v) }

/-- Count in a 64-bit counter. -/
def Dev.bump (d : Dev) (a : Nat) (n : Nat := 1) : Dev := d.setCtr a (d.ctr a + n)

/-- Count in a 32-bit counter that saturates at 0xFFFF_FFFF. -/
def Dev.bumpSat (d : Dev) (a : Nat) (n : Nat := 1) : Dev := d.setReg a (sat 0xFFFFFFFF (d.reg a + n))

/-- Field of a stored register. -/
def Dev.regFld (d : Dev) (a lo w : Nat) : Nat := fld (d.reg a) lo w

/-- Field of a register's value in force. -/
def Dev.liveFld (d : Dev) (a lo w : Nat) : Nat := fld (d.live' a) lo w

/-- Set or clear one bit of a stored register. -/
def Dev.setBit (d : Dev) (a i : Nat) (b : Bool) : Dev := d.setReg a (withBit (d.reg a) i b)

/-- UPTIME_NS: whole SYS_REFCLK clocks of 10 ns (R175). -/
def Dev.uptimeNs (d : Dev) : Nat := d.time.uptime / 10 * 10

/-! ## Functions and interrupts -/

/-- PF0, PF1 and enabled VFs exist for the host (R70). -/
def Dev.fnEnabled (d : Dev) (f : Nat) : Bool := decide (f < 2) || (d.fn f).enabled

/-- R92: the function may issue DMA requests and, with MSI-X Enable, messages. -/
def Dev.mayIssue (d : Dev) (f : Nat) : Bool :=
  let x := d.fn f
  d.fnEnabled f && x.busMaster && !x.d3hot && !x.disabling

/-- A word of the MSI-X table: the Mask bit of each vector control word resets to 1 (PCI Express Base 6.0). -/
def Func.msixWord (x : Func) (off : Nat) : W32 := Tbl.look (if off % 16 = 12 then 1 else 0) x.msix off

/-- Vector `v` is masked by its own bit or by the function mask. -/
def Func.masked (x : Func) (v : Nat) : Bool := x.fmask || bit (Func.msixWord x (16 * v + 12)).toNat 0

/-- R78, R80: signal vector `v` of function `f`: a message, or the pending bit where the vector is masked.
A function whose disable sequence runs, or that may not issue, sends nothing and holds nothing. -/
def Dev.raise (d : Dev) (f v : Nat) : Dev :=
  let x := d.fn f
  if d.mayIssue f && x.msixEn then
    if Func.masked x v then d.onFn f fun x => { x with pba := if x.pba.contains v then x.pba else v :: x.pba }
    else d.emit (.msix f v)
  else d

/-- PF0 vector `v` for a source: cause register, enable register. R80: signal when an enabled bit goes from 0 to 1. -/
def Dev.setCause (d : Dev) (cause en f v bits : Nat) : Dev :=
  let old := d.reg cause
  let new := Nat.lor old bits
  let d1 := d.setReg cause new
  if Nat.land (new - old) (d.reg en) ≠ 0 then d1.raise f v else d1

/-- R80: after a write that cleared bits of a source, signal again if an enabled bit is still set. -/
def Dev.resignal (d : Dev) (cleared left f v : Nat) : Dev := if cleared ≠ 0 && left ≠ 0 then d.raise f v else d

def Dev.pavCauseSet (d : Dev) (bits : Nat) : Dev := d.setCause A.pavCause A.pavIntEn 0 35 bits
def Dev.thermCauseSet (d : Dev) (bits : Nat) : Dev := d.setCause A.thermCause A.thermIntEn 0 35 bits
def Dev.powerCauseSet (d : Dev) (bits : Nat) : Dev := d.setCause A.powerCause A.powerIntEn 0 40 bits
def Dev.redCauseSet (d : Dev) (bits : Nat) : Dev := d.setCause A.redCause A.redIntEn 0 41 bits
def Dev.perfCauseSet (d : Dev) (bits : Nat) : Dev := d.setCause A.perfCause A.perfIntEn 0 42 bits
def Dev.bufCauseSet (d : Dev) (bits : Nat) : Dev := d.setCause A.bufCause A.bufIntEn 0 43 bits
def Dev.uplCauseSet (d : Dev) (p bits : Nat) : Dev := d.setCause (A.uplCause p) (A.uplIntEn p) 0 (576 + p) bits

/-- Owner function of DMA channel `n`. -/
def Dev.dmaOwner (d : Dev) (n : Nat) : Nat := d.regFld (A.dmaCfg n) 0 1
def Dev.dmaCauseSet (d : Dev) (n bits : Nat) : Dev := d.setCause (A.dmaCause n) (A.dmaIntEn n) (d.dmaOwner n) (3 + n) bits

/-! ## Kiosk rings -/

/-- R98. -/
def used (tail head : BitVec 16) : Nat := (tail - head).toNat
def free (tail head : BitVec 16) : Nat := 256 - used tail head
/-- R97. -/
def units (len : Nat) : Nat := 1 + ceilDiv len 16

/-- Vector 0 bits of KIOSK_CAUSE (Table 5-3); vector 1 is REQ_SPACE. -/
def kioskVec0 : Nat := 0x7D

/-- Set bits of KIOSK_CAUSE; each vector is a source of its own (R80). -/
def Dev.kioskCause (d : Dev) (f bits : Nat) : Dev :=
  let k := d.kiosk f
  let old := k.cause.toNat
  let new := Nat.lor old bits
  let rose := Nat.land (new - old) k.intEn.toNat
  let d := d.onKiosk f fun k => { k with cause := w32 new }
  let d := if Nat.land rose kioskVec0 ≠ 0 then d.raise f 0 else d
  if Nat.land rose 2 ≠ 0 then d.raise f 1 else d

/-- Bytes of a ring from a unit position, wrapping (R96). -/
def ringRead (m : Mem) (pos len : Nat) : Bytes := (List.range len).map fun i => Mem.byte m ((pos % 256 * 16 + i) % 4096)

/-- Write bytes into a ring from a unit position, wrapping. -/
def ringWrite (m : Mem) (pos : Nat) (bs : Bytes) : Mem :=
  (bs.zip (List.range bs.length)).foldl (fun m e => Mem.poke m ((pos % 256 * 16 + e.2) % 4096) e.1) m

/-- Table 5-6 header. -/
def msgHeader (version flags op : Nat) (seq : W32) (len status detail : Nat) : Bytes :=
  le 1 version ++ le 1 flags ++ le 2 op ++ le 4 seq.toNat ++ le 2 len ++ le 2 status ++ le 4 detail

/-- R97, R103: place a message in the response ring, advance the tail, set RSP_AVAIL. -/
def Dev.publish (d : Dev) (f version flags op : Nat) (seq : W32) (status detail : Nat) (payload : Bytes) : Dev :=
  let n := units payload.length
  let bs := msgHeader version flags op seq payload.length status detail ++ payload
            ++ List.replicate (16 * n - 16 - payload.length) 0
  let d := d.onKiosk f fun k =>
    { k with rspMem := ringWrite k.rspMem k.rspTail.toNat bs, rspTail := k.rspTail + BitVec.ofNat 16 n }
  d.kioskCause f 1

/-- VERSION of a response (Table 5-6). -/
def Kiosk.rspVersion (k : Kiosk) (op : Nat) : Nat := if op = 1 || k.level = 0 then 1 else k.level

/-- The Kiosk holds this request in execution. -/
def Kiosk.holds (k : Kiosk) (op : Nat) (seq : W32) : Bool :=
  match k.executing with
  | some r => r.op == op && r.seq == seq
  | none => false

/-- R119: publish the response of the request in execution. A Kiosk whose requests are being discarded receives none, and a request that
an unplanned restart has cut waits for its end (R126). -/
def Dev.respond (d : Dev) (f op : Nat) (seq : W32) (status detail : Nat) (payload : Bytes) : Dev :=
  let k := d.kiosk f
  if k.interrupted || !Kiosk.holds k op seq then d
  else
    let d := d.onKiosk f fun k => { k with executing := none, discard := false }
    if k.discard then d
    else
      (d.publish f (Kiosk.rspVersion k op) 1 op seq status detail payload).emit (.response f op seq status detail payload)

/-! ## Tenants -/

/-- Function bound to tenant `t`. -/
def Dev.funcOfTenant (d : Dev) (t : Nat) : Option Nat :=
  (d.funcs.find? (fun e => e.2.tenant == t && t != 0)).map Prod.fst

/-! ## Events (R122, R123, R156) -/

/-- Write an event to one Kiosk or count it as lost. While READY is 0 no firmware writes (log entry 9). -/
def Dev.eventTo (d : Dev) (code : Nat) (payload : Bytes) (f : Nat) : Dev :=
  let k := d.kiosk f
  if k.level < 2 || !k.ready then d
  else
    let d1 := d.onKiosk f fun k => { k with eventSeq := k.eventSeq + 1 }
    if free k.rspTail k.rspHead ≥ 128 + units payload.length && !k.resetBusy then
      let flags := 2 + 4 * nb k.lostFlag
      let d2 := d1.onKiosk f fun k => { k with lostFlag := false }
      (d2.publish f k.level flags code k.eventSeq 0 0 payload).emit (.event f code k.eventSeq k.lostFlag payload)
    else
      let d2 := d1.onKiosk f fun k => { k with eventLost := sat 0xFFFFFFFF (k.eventLost + 1), lostFlag := true }
      d2.kioskCause f 0x40

/-- Write an event to every subscribed Kiosk; a VF receives it only for an object of its tenant. -/
def Dev.event (d : Dev) (code maskBit : Nat) (tenant : Nat) (payload : Bytes) : Dev :=
  let fs := (d.funcs.filter fun e =>
    bit e.2.kiosk.mask maskBit && (decide (e.1 < 2) || (tenant != 0 && e.2.tenant == tenant))).map Prod.fst
  d.each fs fun f d => d.eventTo code payload f

def Dev.evOnuState (d : Dev) (o old new cause tenant : Nat) : Dev :=
  d.event 0xE001 0 tenant (le 2 o ++ le 1 old ++ le 1 new ++ le 1 cause ++ le 3 0)
def Dev.evOnuDiscovered (d : Dev) (o t caps serial : Nat) : Dev :=
  d.event 0xE002 1 0 (le 2 o ++ le 2 t ++ le 1 caps ++ le 3 0 ++ be 8 serial)
def Dev.evMigrationDone (d : Dev) (o c result tenant : Nat) : Dev :=
  d.event 0xE004 0 tenant (le 2 o ++ le 2 c ++ le 1 result ++ le 3 0)
def Dev.evLineFault (d : Dev) (c o kind : Nat) : Dev := d.event 0xE005 3 0 (le 2 c ++ le 2 o ++ le 1 kind ++ le 3 0)
def Dev.evTickOverrun (d : Dev) (c n : Nat) : Dev := d.event 0xE006 4 0 (le 2 c ++ le 2 0 ++ le 4 n)
def Dev.evPowerDone (d : Dev) (state wake : Nat) : Dev := d.event 0xE007 5 0 (le 1 state ++ le 1 wake ++ le 2 0)
def Dev.evRoleChange (d : Dev) (role cause : Nat) : Dev := d.event 0xE008 6 0 (le 1 role ++ le 1 cause ++ le 2 0)
def Dev.evTableRestore (d : Dev) (die table index : Nat) : Dev :=
  d.event 0xE009 7 0 (le 1 die ++ le 1 table ++ le 2 0 ++ le 4 index)
def Dev.evUpdateState (d : Dev) (state result : Nat) : Dev := d.event 0xE00A 8 0 (le 1 state ++ le 1 result ++ le 2 0)
def Dev.evOtdrDone (d : Dev) (t n : Nat) : Dev := d.event 0xE00B 9 0 (le 2 t ++ le 2 n)
def Dev.evSensorAlarm (d : Dev) (die sensor value : Nat) : Dev := d.event 0xE00C 10 0 (le 1 die ++ le 1 sensor ++ le 2 value)
def Dev.evKeyRollDone (d : Dev) (o c result : Nat) : Dev := d.event 0xE00D 11 0 (le 2 o ++ le 2 c ++ le 1 result ++ le 3 0)

/-! ## The event log (R506 to R509) -/

/-- SEVERITY of a log code (Table 21-4). -/
def logSeverity (code : Nat) : Nat :=
  if [0x0102, 0x0201, 0x0703, 0x0803].contains code then 4
  else if [0x0101, 0x0202, 0x0205, 0x0303, 0x0401, 0x0403, 0x0405, 0x0501, 0x0502, 0x0503, 0x0601, 0x0701, 0x0802, 0x0805].contains code then 3
  else if [0x0203, 0x0204, 0x0402, 0x0404, 0x0504, 0x0702].contains code then 2
  else if [0x0301, 0x0801, 0x0804, 0x0901].contains code then 1
  else 0

/-- LOCKED of PTP domain `x`. -/
def Dev.ptpLocked (d : Dev) (x : Nat) : Bool := bit (d.reg (A.ptpCtrl x)) 0

/-- R177: the selected domain is locked. -/
def Dev.todValid (d : Dev) : Bool := d.ptpLocked d.time.selected

/-- Whole nanoseconds of a PTP domain. -/
def Ptp.ns (p : Ptp) : Nat := p.count / 2 ^ 32

/-- Nanoseconds of the selected domain. -/
def Dev.selNs (d : Dev) : Nat := Ptp.ns (d.ptp d.time.selected)

/-- Time a rule of its own was last acted on under a key. -/
def Dev.limitAt (d : Dev) (key : List Nat) : Option Nat := (d.pav.limits.find? (fun e => e.1 == key)).map Prod.snd

/-- Note that a rate-limited rule has acted now. -/
def Dev.setLimit (d : Dev) (key : List Nat) : Dev :=
  d.onPav fun p => { p with limits := (key, d.uptimeNs) :: p.limits.filter (fun e => e.1 != key) }

/-- At most once per `period` ns under `key`: act, or do nothing. -/
def Dev.limited (d : Dev) (key : List Nat) (period : Nat) (f : Dev → Dev) : Dev :=
  match d.limitAt key with
  | some t => if d.uptimeNs < t + period then d else f (d.setLimit key)
  | none => f (d.setLimit key)

/-- Table 21-3. -/
def LogEntry.bytes (e : LogEntry) : Bytes :=
  let (sec, ns) := e.ptp.getD (0, 0)
  le 4 e.index ++ le 4 e.boot ++ le 8 e.uptime ++ le 6 sec ++ le 1 (nb e.ptp.isSome + 2 * e.domain + 4 * nb e.osc) ++ le 1 e.sev
    ++ le 4 ns ++ le 2 e.source ++ le 2 e.code ++ le 4 e.repeats ++ slice e.data 0 28

/-- Running DMA channels of a requester (R473). -/
def Dev.dmaRunning (d : Dev) (req : Nat) : List Nat :=
  if d.domOn 21 then
    (List.range 32).filter fun n => (d.dmaCh n).en && (d.dmaCh n).state != .halt && d.regFld (A.dmaCfg n) 8 8 == req
  else []

/-- R473: offer a unit to a requester's channels, or drop and count it where none runs. -/
def Dev.offerUnit (d : Dev) (req : Nat) (unit : Bytes) : Dev :=
  if (d.dmaRunning req).isEmpty then d.bump (if req = 0x12 then A.traceLost else A.dmaUnserved)
  else d.onData fun x => { x with units := Tbl.put [] x.units req ((Tbl.look [] x.units req ++ [unit]).drop
    ((Tbl.look [] x.units req).length + 1 - 16384)) }

/-- R506, R509: write a log entry, or merge it into the next such entry. -/
def Dev.log (d : Dev) (code source : Nat) (data : Bytes) : Dev :=
  let key := data.take 8
  let sev := logSeverity code
  let up := d.uptimeNs
  let same := d.pav.merges.find? fun e => e.1 == code && e.2.1 == source && e.2.2.1 == key
  let rest := d.pav.merges.filter fun e => !(e.1 == code && e.2.1 == source && e.2.2.1 == key)
  match same with
  | some (_, _, _, t, n) =>
    if up < t + 1000000000 then
      d.onPav fun p => { p with merges := (code, source, key, t, n + 1) :: rest }
    else write d up sev n rest
  | none => write d up sev 0 rest
where
  /-- The entry itself. -/
  write (d : Dev) (up sev n : Nat) (rest : List (Nat × Nat × Bytes × Nat × Nat)) : Dev :=
    let p := d.pav
    let e : LogEntry :=
      { index := p.logNext, boot := p.bootSeq, uptime := up,
        ptp := if d.todValid then some (d.selNs / 1000000000, d.selNs % 1000000000) else none,
        domain := d.time.selected, osc := d.time.oscMark, sev := sev, source := source, code := code, repeats := n, data := data }
    let due := up + (if sev ≥ 3 then 10000000 else 1000000000)
    let d := d.onPav fun p => { p with
      merges := (code, source, data.take 8, up, 0) :: rest
      logNext := (p.logNext + 1) % 2 ^ 32
      log := (e :: p.log).take 16384
      toFlash := (e.index, due) :: p.toFlash }
    let d := d.offerUnit 0x11 (LogEntry.bytes e)
    if sev ≥ d.regFld A.pavCfg 8 3 then d.pavCauseSet 1 else d

end Sys2Proof.Machine
end

