-- ==== Sys2Proof/Machine/Perf.lean ====
section
/-! DEFINITION. What the datapath reports to the measurement block: performance events (R477), bandwidth monitors (R479) and
trace stamps (R481).
Choices and readings: log entry 138. -/

namespace Sys2Proof.Machine

/-- Identifiers that a filter of PERF_d_j_CFG can name: FILT_KIND and identifier. -/
abbrev Ids := List (Nat × Nat)

/-- R478: counting is stopped. -/
def Dev.frozen (d : Dev) : Bool :=
  bit (d.reg A.perfCtrl) 0 || (d.pins.perfFreeze && d.regFld A.perfCtrl 4 2 == 1)

/-- The counters of a die that are enabled: index, CFG. -/
def Dev.perfOn (d : Dev) (die : Nat) : List (Nat × Nat) :=
  d.regs.filterMap fun e =>
    let o := e.1 - (0x400000 + 0x1000 * die)
    if 0x400000 + 0x1000 * die ≤ e.1 && o < 0x400 && o % 0x10 = 0 && bit e.2.toNat 16 then some (o / 0x10, e.2.toNat) else none

/-- A counter wraps: its bit of PERF_d_OVF, and the OVF cause. -/
def Dev.perfWrap (d : Dev) (die j cfg : Nat) : Dev :=
  let d := d.setBit (A.perfOvf die + 4 * (j / 32)) (j % 32) true
  if bit cfg 17 then d.perfCauseSet 2 else d

/-- Add to counter `j`, and carry its wraps along the chain of counters after it. -/
def Dev.perfAdd (d : Dev) (die : Nat) : Nat → Nat → Nat → Dev
  | 0, _, _ => d
  | fuel + 1, j, n =>
    if n = 0 then d
    else
      let p := Tbl.look {} d.meas.perf (die * 64 + j)
      let sum := p.val + n
      let wraps := sum / 2 ^ 48
      let d := d.onMeas fun m => { m with perf := Tbl.put {} m.perf (die * 64 + j) { p with val := sum % 2 ^ 48 } }
      let cfg := d.reg (A.perfCfg die (j + 1))
      let chained := decide (j < 63) && bit cfg 15 && bit cfg 16
      if wraps = 0 then d
      else if chained then Dev.perfAdd d die fuel (j + 1) wraps
      else d.perfWrap die j (d.reg (A.perfCfg die j))

/-- `n` events of a code on a die, with the identifiers that a filter may name. -/
def Dev.perf (d : Dev) (die ev n : Nat) (ids : Ids) : Dev :=
  if d.domOn 23 && !d.frozen then
    (d.perfOn die).foldl (fun d e =>
      let kind := fld e.2 12 3
      if fld e.2 0 12 == ev && !(bit e.2 15 && e.1 != 0)
          && (kind == 0 || ids.contains (kind, fld (d.reg (A.perfFilt die e.1)) 0 24)) then d.perfAdd die 64 e.1 n
      else d) d
  else d

/-- Filter identifiers of a packet by its source: ONU on a Dike, uplink subport on a Sluice. -/
def srcIds (p : Pkt) : Ids := if p.die < 4 then [(1, p.src)] else if p.die < 6 then [(2, p.src)] else []

/-- A packet passes a port: `kind` 0 uplink subport, 1 PON channel; `dir` 0 receive, 1 transmit (R479). -/
def Dev.bwCount (d : Dev) (kind idx dir bytes : Nat) : Dev :=
  if d.domOn 23 then
    d.each (Tbl.keys d.meas.bw) fun m d =>
      let cfg := d.reg (A.bwCfg m)
      let w := Tbl.look {} d.meas.bw m
      if bit cfg 12 && fld cfg 0 10 == idx && fld cfg 10 1 == kind && fld cfg 11 1 == dir && w.winFrom.isSome then
        d.onMeas fun x => { x with bw := Tbl.set x.bw m { w with curBytes := w.curBytes + bytes, curFrames := w.curFrames + 1 } }
      else d
  else d

/-! ## Trace (R481) -/

/-- A packet enters its first pass on a die: it may be tagged; whether it is, is a free value. -/
def Dev.traceTag (d : Dev) (die : Nat) (p : Pkt) : Pkt × Dev :=
  let cfg := d.reg A.traceCfg
  let n := fld cfg 0 5
  if n = 0 || !d.domOn 23 || !bit cfg (8 + die) then (p, d)
  else
    let (r, d) := d.draw
    if r % 2 ^ n ≠ 0 then (p, d)
    else
      match (List.range 16).find? fun k => (Tbl.get? d.meas.slots k).isNone with
      | none => (p, d.bump A.traceSkip)
      | some k =>
        let t : Trace := { at' := d.uptimeNs, src := p.src, die := die, len := p.len }
        ({ p with trace := some k }, (d.bump A.traceTagged).onMeas fun m => { m with slots := Tbl.set m.slots k t })

/-- A traced packet reaches a stage. -/
def Dev.stamp (d : Dev) (p : Pkt) (stage : Nat) : Dev :=
  match p.trace with
  | some k =>
    if p.copy then d
    else d.onMeas fun m => { m with slots := Tbl.modify m.slots k fun t =>
      { t with stamps := Tbl.set t.stamps stage (d.uptimeNs - t.at'), passes := p.pass, len := p.len, cls := p.cls } }
  | none => d

/-- The way of a traced packet ends: 0 sent, 1 dropped, 2 to PF1. -/
def Dev.traceEnd (d : Dev) (p : Pkt) (outcome : Nat) : Dev :=
  match p.trace with
  | some k => if p.copy then d else d.onMeas fun m => { m with slots := Tbl.modify m.slots k fun t => { t with ended := some outcome } }
  | none => d

/-- The traced packet's destination is known. -/
def Dev.traceDest (d : Dev) (p : Pkt) (flow dest : Nat) : Dev :=
  match p.trace with
  | some k => if p.copy then d else d.onMeas fun m => { m with slots := Tbl.modify m.slots k fun t => { t with flow := flow, dest := dest } }
  | none => d

/-- A packet is dropped on a die, whatever the cause: event 0x020, and the end of its trace. -/
def Dev.lost (d : Dev) (die : Nat) (p : Pkt) : Dev :=
  (d.perf die 0x020 1 (srcIds p)).traceEnd p 1

end Sys2Proof.Machine
end

