-- ==== Sys2Proof/Machine/Bufs.lean ====
section
/-! DEFINITION. Buffer pools, owners, spill and the queues that hold packets (15_buffers.md).
Choices and readings: log entries 46, 47, 49, 61, 62, 76 and 157. -/

namespace Sys2Proof.Machine

/-! ## Pools (R366, R367, R370) -/

/-- Pool whose row of Table 15-1 holds a length; none above 16,384 bytes. -/
def poolOf (len : Nat) : Option Nat :=
  if len ≤ 256 then some 0 else if len ≤ 1024 then some 1 else if len ≤ 4096 then some 2 else if len ≤ 16384 then some 3 else none

/-- Buffers of pool `p` (Table 15-1). -/
def poolCount (p : Nat) : Nat := nth 0 [131072, 32768, 32768, 3072] p

/-- Size of a buffer of pool `p` in quarter KiB (R371). -/
def poolQuarters (p : Nat) : Nat := nth 0 [1, 4, 16, 64] p

/-- Key of a buffer: pool and index. -/
def bufKey (p i : Nat) : Nat := p * 2 ^ 20 + i

/-- FREE of pool `p`. -/
def Dev.poolFree (d : Dev) (p : Nat) : Nat := poolCount p - countP (fun e => e.1 / 2 ^ 20 == p) d.data.buf.alloc

/-- U of pool `p` (R370). -/
def Dev.poolUnused (d : Dev) (p : Nat) : Nat :=
  d.data.buf.owners.foldl (fun a e => a + (nth 0 e.2.reserved p - nth 0 e.2.inUse p)) 0

/-- Sum of RESERVED in pool `p`. -/
def Dev.poolReserved (d : Dev) (p : Nat) : Nat := d.data.buf.owners.foldl (fun a e => a + nth 0 e.2.reserved p) 0

/-- shared_free(p), which may be negative (R370). -/
def Dev.sharedFree (d : Dev) (p : Nat) : Int := (d.poolFree p : Int) - (d.poolUnused p : Int)

/-- Compatibility mode is in force (R374). -/
def Dev.compat (d : Dev) : Bool := bit (d.live' A.bufCtrl) 0

/-- R375: enter or leave WARNING of pool `p`, and keep the lowest FREE. -/
def Dev.poolWatch (d : Dev) (p : Nat) : Dev :=
  let warn := d.live' (A.bufWarn p)
  let sf := d.sharedFree p
  let was := nth false d.data.buf.warn p
  let now := if was then decide (sf ≤ ((warn + warn / 8 : Nat) : Int)) else decide (sf ≤ (warn : Int))
  let d := d.onBuf fun b => { b with warn := setAt b.warn p now, low := setAt b.low p (min (nth 0 b.low p) (d.poolFree p)) }
  if now && !was then d.bufCauseSet (2 ^ p) else d

/-! ## Owners (R368 to R371) -/

/-- Owner of a packet: the first row of Table 15-3 that applies. -/
def Dev.ownerOf (d : Dev) (p : Pkt) : Nat :=
  match p.dest with
  | .exc c => ownerTag 4 c
  | .flow f =>
    if p.injected then ownerTag 5 0
    else match d.flow? f with
      | some fl => ownerTag 1 fl.onu
      | none => ownerTag 5 0
  | _ => if p.injected then ownerTag 5 0 else if p.die < 4 then ownerTag 2 p.src else ownerTag 3 p.src

/-- Whether an owner tag names an ONU's owner. -/
def isOnuOwner (tag : Nat) : Bool := tag / 2 ^ 24 == 1 || tag / 2 ^ 24 == 2

/-- The owner exists (Table 15-2). -/
def Dev.ownerExists (d : Dev) (tag : Nat) : Bool :=
  let i := tag % 2 ^ 24
  if isOnuOwner tag then decide (i < 65536) && (d.onu i).state != .absent
  else (tag / 2 ^ 24 == 3 && decide (i < 512)) || (tag / 2 ^ 24 == 4 && decide (i < 16)) || tag == 5 * 2 ^ 24

/-- Tenant of an owner, 0 none. -/
def Dev.ownerTenant (d : Dev) (tag : Nat) : Nat := if isOnuOwner tag then (d.onu (tag % 2 ^ 24)).tenant else 0

/-- R371: a tenant's use in quarter KiB. -/
def Dev.tenantUse (d : Dev) (t : Nat) : Nat :=
  d.data.buf.owners.foldl (fun a e =>
    if t != 0 && d.ownerTenant e.1 == t then a + ((List.range 4).foldl (fun s p => s + nth 0 e.2.inUse p * poolQuarters p) 0) else a) 0

/-- R369: the owners of an ONU that leaves ABSENT. -/
def Dev.createOwners (d : Dev) (onu : Nat) : Dev :=
  let quota := (List.range 4).map fun p => d.live' (A.bufDefq p)
  d.each [1, 2] fun k d => d.onOwner (ownerTag k onu) fun o =>
    { ownerNew (ownerTag k onu) with quota := quota, inUse := o.inUse, peak := o.inUse, pages := o.pages }

/-- R369: an owner goes once its entry is ABSENT and its last buffer and page are free. -/
def Dev.sweepOwner (d : Dev) (tag : Nat) : Dev :=
  let o := d.owner tag
  if o.leaving && o.inUse.all (· == 0) && o.pages == 0 then d.onBuf fun b => { b with owners := Tbl.erase b.owners tag } else d

/-- R369: the entry of an ONU returns to ABSENT. -/
def Dev.deleteOwners (d : Dev) (onu : Nat) : Dev :=
  d.each [1, 2] fun k d =>
    let tag := ownerTag k onu
    (d.onOwner tag fun o => { o with leaving := true, reserved := [0, 0, 0, 0] }).sweepOwner tag

/-! ## Taking and freeing buffers (R372, R381) -/

/-- First index from `i` on, wrapping at `n`, that is not taken. -/
def freeFrom (taken : Nat → Bool) (n : Nat) : Nat → Nat → Nat
  | 0, i => i % n
  | k + 1, i => if taken (i % n) then freeFrom taken n k (i + 1) else i % n

/-- Grant a buffer of pool `p` to an owner; which free buffer it is, is a free value. -/
def Dev.takeBuf (d : Dev) (p owner : Nat) : Nat × Dev :=
  let (r, d) := d.draw
  let alloc := d.data.buf.alloc
  let i := freeFrom (fun i => (Tbl.get? alloc (bufKey p i)).isSome) (poolCount p) (alloc.length + 1) (r % poolCount p)
  let d := d.onBuf fun b => { b with alloc := Tbl.set b.alloc (bufKey p i) owner }
  let d := d.onOwner owner fun o =>
    let n := nth 0 o.inUse p + 1
    { o with inUse := setAt o.inUse p n, peak := setAt o.peak p (max n (nth 0 o.peak p)) }
  (i, d.poolWatch p)

/-- R381: an accepted free. -/
def Dev.dropBuf (d : Dev) (p i owner : Nat) : Dev :=
  let d := d.onBuf fun b => { b with
    alloc := Tbl.erase b.alloc (bufKey p i), egress := b.egress.filter (fun e => e != (p, i))
    orphans := b.orphans.filter (fun k => k != bufKey p i) }
  let d := d.onOwner owner fun o => { o with inUse := setAt o.inUse p (nth 0 o.inUse p - 1) }
  (d.poolWatch p).sweepOwner owner

/-- R381: latch a rejected free, count it, and log one entry per kind per second. -/
def Dev.badFree (d : Dev) (p i held req : Nat) (foreign : Bool) : Dev :=
  let d := if foreign then d.bump A.bufFfree else d.bump A.bufDfree
  let d := d.bufCauseSet (if foreign then 0x20 else 0x10)
  let d := if bit (d.reg A.bufErrInfo) 0 then d
    else
      let d := d.setReg A.bufErrAddr i
      let d := d.setReg A.bufErrInfo (1 + 2 * nb foreign + 4 * p)
      let d := d.setReg A.bufErrOwner held
      d.setReg A.bufErrReq req
  d.limited [0x0503, nb foreign] 1000000000 fun d => d.log 0x0503 6 (le 1 (nb foreign) ++ le 1 p ++ le 4 i ++ le 4 held ++ le 4 req)

/-- R381: a free request for buffer `i` of pool `p` that carries an owner tag. -/
def Dev.freeBuf (d : Dev) (p i tag : Nat) : Dev :=
  match Tbl.get? d.data.buf.alloc (bufKey p i) with
  | none => d.badFree p i 0 tag false
  | some held => if held = tag then d.dropBuf p i tag else d.badFree p i held tag true

/-- Free the buffer that a packet holds. -/
def Dev.freePkt (d : Dev) (p : Pkt) : Dev :=
  match p.buf with
  | some (pool, i) => d.freeBuf pool i p.owner
  | none => d

/-! ## Queues -/

/-- A queue of packets: a service flow's, an uplink class queue or an exception queue. -/
inductive QId where
  | flow (f : Nat)
  | up (sp cls : Nat)
  | exc (cls : Nat)
  deriving DecidableEq, Repr

/-- The queue that a packet joins; none for a packet without a destination. -/
def queueOf (p : Pkt) : Option QId :=
  match p.dest with
  | .flow f => some (.flow f)
  | .uplink sp => some (.up sp p.cls)
  | .exc c => some (.exc c)
  | .none => none

/-- The packets of a queue, oldest first. -/
def Dev.getQ (d : Dev) (q : QId) : List Pkt :=
  match q with
  | .flow f => d.queue f
  | .up sp c => Tbl.look [] (d.sub sp).queues c
  | .exc c => Tbl.look [] d.data.excWait c

/-- Every page of a queue's chain, once each. -/
def pagesOf (l : List Pkt) : List PageRef := (l.flatMap (·.pages)).eraseDups

/-- R384, R386: the pages of `old` that `new` no longer has are released, or retired where a word of theirs failed. -/
def Dev.repage (d : Dev) (old new : List PageRef) : Dev :=
  let gone := old.filter fun r => !(new.any fun n => n.idx == r.idx)
  gone.foldl (fun d r =>
    let bad := r.bad
    let d := d.onOwner r.owner fun o => { o with pages := o.pages - 1 }
    let d := d.onBuf fun b => { b with
      used := setAt b.used r.stack (nth 0 b.used r.stack - 1)
      retired := if bad then setAt b.retired r.stack (nth 0 b.retired r.stack + 1) else b.retired }
    d.sweepOwner r.owner) d

/-- Replace the packets of a queue and release the pages it no longer holds. -/
def Dev.setQ (d : Dev) (q : QId) (l : List Pkt) : Dev :=
  let old := pagesOf (d.getQ q)
  let d := match q with
    | .flow f => d.setQueue f l
    | .up sp c => d.onSub sp fun s => { s with queues := Tbl.put [] s.queues c l }
    | .exc c => d.onData fun x => { x with excWait := Tbl.put [] x.excWait c l }
  d.repage old (pagesOf l)

/-- Bytes of a packet in the staging area. -/
def stagedBytes (l : List Pkt) : Nat := (l.filter (fun p => p.seg == 1)).foldl (fun a p => a + p.len) 0

/-- Discard packets of a queue that pass a test: their buffers, staged bytes and pages go (R388). Answers how many went. -/
def Dev.purgeQ (d : Dev) (q : QId) (go : Pkt → Bool) : Nat × Dev :=
  let l := d.getQ q
  let gone := l.filter go
  if gone.isEmpty then (0, d)
  else
    let d := d.setQ q (l.filter fun p => !go p)
    let d := d.onBuf fun b => { b with staged := b.staged - stagedBytes gone }
    (gone.length, gone.foldl (fun d p => (d.freePkt p).lost 6 p) d)

/-! ## The Basin (R383, R384) -/

/-- Pages of one stack. -/
def stackPages : Nat := 3145728

/-- A stack that places pages with a free page. -/
def Dev.stackFree (d : Dev) (s : Nat) : Bool :=
  nth false d.data.buf.placing s && decide (nth 0 d.data.buf.used s + nth 0 d.data.buf.retired s < stackPages)

/-- R384: the stack that takes the next page, from the rotation's next on. -/
def Dev.nextStack (d : Dev) : Option Nat :=
  ((List.range 4).map fun i => (d.data.buf.rot + i) % 4).find? fun s => d.stackFree s

/-- BASIN_EN and a stack that places pages, and the owner may take a page (R383, the last conditions). -/
def Dev.canSpill (d : Dev) (owner : Nat) : Bool :=
  bit (d.live' A.bufCtrl) 1 && decide ((d.owner owner).pages < (d.owner owner).basinMax) && d.nextStack.isSome

/-- Take pages `n` for an owner. -/
def Dev.takePages (d : Dev) (owner first : Nat) : Nat → List PageRef × Dev
  | 0 => ([], d)
  | n + 1 =>
    let s := d.nextStack.getD 0
    let d := d.onBuf fun b => { b with used := setAt b.used s (nth 0 b.used s + 1), rot := (s + 1) % 4 }
    let d := d.onOwner owner fun o => { o with pages := o.pages + 1 }
    let (l, d) := Dev.takePages d owner (first + 1) n
    ({ idx := first, stack := s, owner := owner } :: l, d)

/-- Write a packet at the end of a queue's Basin segment (R384). -/
def Dev.spill (d : Dev) (q : QId) (p : Pkt) (owner : Nat) : Dev :=
  let l := d.getQ q
  let start := match (l.filter fun p => p.seg == 2).getLast? with
    | some e => e.off + 8 + e.len
    | none => 0
  let shared := (pagesOf l).filter fun r => r.idx == start / 16384
  let lastPage := (start + 8 + p.len - 1) / 16384
  let from' := if shared.isEmpty then start / 16384 else start / 16384 + 1
  let (fresh, d) := d.takePages owner from' (lastPage + 1 - from')
  let p := { p with seg := 2, off := start, pages := shared ++ fresh, owner := owner, buf := none }
  match q with
  | .flow f => d.setQueue f (d.queue f ++ [p])
  | .up sp c => d.onSub sp fun s => { s with queues := Tbl.put [] s.queues c (Tbl.look [] s.queues c ++ [p]) }
  | .exc c => d.onData fun x => { x with excWait := Tbl.put [] x.excWait c (Tbl.look [] x.excWait c ++ [p]) }

/-! ## Requests (R372 to R378, R383) -/

/-- What a buffer request comes to. -/
inductive BufRes where
  | granted | spilled | dropped | held
  deriving DecidableEq, Repr

/-- Spill threshold in bytes of an owner's queue for pool `p` (R375, R383). -/
def Dev.spillThr (d : Dev) (owner p : Nat) : Nat :=
  let thr := fld (d.live' (A.bufSpillProf (d.owner owner).prof)) 0 16 * 1024
  if nth false d.data.buf.warn p && !d.compat then thr / 4 else thr

/-- Steps 3 to 6 of Table 15-4. -/
def Dev.sramRequest (d : Dev) (who : Nat) (pkt : Pkt) (p owner : Nat) : BufRes × Dev × Pkt :=
  let o := d.owner owner
  let t := d.ownerTenant owner
  let grant := fun (_ : Unit) =>
    let (i, d) := d.takeBuf p owner
    let cls := if who < 4 then 0 else if who < 6 then 1 else 2
    let d := d.onBuf fun b => { b with lastGrant := Tbl.set b.lastGrant (p * 3 + cls) who }
    (BufRes.granted, d, { pkt with buf := some (p, i), owner := owner, seg := 0 })
  let empty := fun (_ : Unit) =>
    if !d.compat then (BufRes.held, d, pkt)
    else if who < 6 then (BufRes.dropped, d.bump A.bufEmptyFail, pkt)
    else (BufRes.dropped, d, pkt)
  if nth 0 o.inUse p < nth 0 o.reserved p then (if d.poolFree p > 0 then grant () else empty ())
  else if !d.compat && 6 ≤ who && owner == ownerTag 5 0 && nth false d.data.buf.warn p then (.held, d, pkt)
  else if nth 0 o.inUse p ≥ nth 0 o.quota p then (.dropped, d.bump A.bufQuotaDrop, pkt)
  else if t != 0 && decide (d.tenantUse t + poolQuarters p > 4 * (d.tenant t).bufKib) then (.dropped, d.bump A.bufTenantDrop, pkt)
  else if d.sharedFree p ≤ 0 then empty ()
  else grant ()

/-- A packet that is dropped for want of a buffer counts in its flow's drop counter. -/
def Dev.flowDrop (d : Dev) (p : Pkt) : Dev :=
  match p.dest with
  | .flow f => d.onFlow f fun x => { x with dropped := x.dropped + 1 }
  | _ => d

/-- Steps 1 to 6 of Table 15-4 for a packet bound for its queue. -/
def Dev.bufRequest (d : Dev) (who : Nat) (pkt : Pkt) : BufRes × Dev × Pkt :=
  match poolOf pkt.len, queueOf pkt with
  | none, _ => (.dropped, d.bump A.bufOversize, pkt)
  | _, none => (.dropped, d, pkt)
  | some p, some q =>
    let owner := d.ownerOf pkt
    let l := d.getQ q
    let spilled := l.any fun x => x.seg == 2
    let can := d.canSpill owner
    if spilled then
      if can then (.spilled, d.spill q pkt owner, pkt)
      else (.dropped, (d.bump A.basinDrop).bufCauseSet 0x80, pkt)
    else
      let head := (l.filter fun x => x.seg == 0).foldl (fun a x => a + x.len) 0
      let thr := d.spillThr owner p
      if decide (head + pkt.len > thr) && thr != 0 && can then (.spilled, d.spill q pkt owner, pkt)
      else d.sramRequest who pkt p owner

/-- Add a granted packet to the end of its queue. -/
def Dev.pushQ (d : Dev) (pkt : Pkt) : Dev :=
  match queueOf pkt with
  | some q => d.setQ q (d.getQ q ++ [pkt])
  | none => d

/-- R490 step 1: the destination's port belongs to a domain that the running change switches off. -/
def Dev.goingOff (d : Dev) (dest : Dest) : Bool :=
  match d.power.run with
  | some r =>
    let hit := fun (p : Nat) => bit r.off p
    r.phase == 1 && (hit 15 || (match dest with
      | .uplink sp => hit (13 + sp / 256)
      | .flow f => match d.flow? f with
        | some fl => let n := (d.onu fl.onu).channel / 128; hit (1 + n) || hit (5 + n) || hit (9 + n)
        | none => false
      | _ => false))
  | none => false

/-- Act on a request's outcome; answers whether it is held. -/
def Dev.bufSettle (d : Dev) (who : Nat) (pkt : Pkt) : Bool × Dev :=
  let gone := match pkt.dest with
    | .flow f => (d.flow? f).isNone
    | _ => false
  if d.shadow && (match pkt.dest with | .flow _ => true | _ => false) then (false, (d.bump A.redDsDiscard).lost 6 pkt)
  else if gone then (false, d.lost 6 pkt)
  else if d.goingOff pkt.dest then (false, (d.bump A.powerDiscard).lost 6 pkt)
  else
  match d.bufRequest who pkt with
  | (.granted, d, pkt) => (false, ((d.perf 6 0x051 1 [(5, (poolOf pkt.len).getD 0)]).pushQ pkt).stamp pkt 5)
  | (.spilled, d, pkt) => (false, d.stamp pkt 5)
  | (.dropped, d, pkt) => (false, (d.flowDrop pkt).lost 6 pkt)
  | (.held, d, pkt) =>
    (true, (d.perf 6 0x052 1 [(5, (poolOf pkt.len).getD 0)]).onBuf fun b => { b with held := b.held ++ [{ who := who, pkt := pkt, pool := (poolOf pkt.len).getD 0, at' := d.time.now }] })

/-- A request of `who` is held. -/
def Dev.isHeld (d : Dev) (who : Nat) : Bool := d.data.buf.held.any fun h => h.who == who

/-- A die's link carries packets (R21, R22). -/
def Dev.linkCarries (d : Dev) (die : Nat) : Bool := (d.dlink die).up && !(d.dlink die).retraining && !(d.dlink die).fatal

/-- Bytes in the 1 MiB link queue of a die. -/
def Dev.linkQueue (d : Dev) (die : Nat) : Nat :=
  (d.data.buf.recvQ.filter fun p => p.die == die).foldl (fun a p => a + p.len) 0

/-- Event 0x060: the flits of a packet on a link; their number is a free value. -/
def Dev.linkFlits (d : Dev) (die : Nat) : Dev :=
  if (d.perfOn 6).any fun e => fld e.2 0 12 == 0x060 then
    let (r, d) := d.draw
    d.perf 6 0x060 r [(5, die)]
  else d

/-- A packet of datapath die `die` reaches the Polder's buffer manager, or waits in the link's queue (R21, R376). -/
def Dev.toPolder (d : Dev) (die : Nat) (pkt : Pkt) : Dev :=
  if (d.dlink die).fatal || !d.domOn 15 then d.lost die pkt
  else if d.isHeld die || !d.linkCarries die then
    if d.linkQueue die + pkt.len ≤ 1048576 then d.onBuf fun b => { b with recvQ := b.recvQ ++ [{ pkt with die := die }] }
    else (d.bump (A.dlink die 0x28)).lost die pkt
  else (((d.linkFlits die).stamp pkt 4).bufSettle die pkt).2

/-- Let the packets that wait in a die's link queue go on, in order, until one is held. -/
def Dev.drainLink (d : Dev) (die : Nat) : Dev :=
  let mine := d.data.buf.recvQ.filter fun p => p.die == die
  let d := d.onBuf fun b => { b with recvQ := b.recvQ.filter fun p => p.die != die }
  mine.foldl (fun d p => d.toPolder die p) d

end Sys2Proof.Machine
end

