-- ==== Sys2Proof/Machine/Domains.lean ====
section
/-! DEFINITION. Elapsed time, power domains and what a domain loses while it is off (R157, R175, R484 to R487).
Choices and readings: log entries 11, 12, 13, 77, 79, 84, 146 and 161. -/

namespace Sys2Proof.Machine

/-! ## Time -/

/-- The time unit runs from SYS_REFCLK (R35, R157). -/
def Dev.holdover (d : Dev) : Bool := !bit (d.reg A.refclk) 8

/-- What a PTP domain adds in `n` time-unit clocks, in 2^-32 ns: INCR per clock, or INCR ÷ (1 + PTP_REF_DIFF × 10^-12) in holdover,
rounded down over the clocks together (R422, R425). -/
def Dev.advance (d : Dev) (x n : Nat) : Nat :=
  let raw := n * (d.ptp x).incr
  if d.holdover then ((raw : Int) * 1000000000000 / (1000000000000 + signed 32 (d.reg A.ptpRefDiff))).toNat else raw

/-- A domain's count with 48 bits of seconds. -/
def ptpWrap (n : Nat) : Nat := n % (2 ^ 80 * 1000000000)

/-- Let `n` time-unit clocks pass: UPTIME_NS and both PTP domains advance (R157, R175, R422). While SYS_REFCLK is lost
UPTIME_NS counts on the oscillator, whose rate is a free value within 5 % (R175, log entry 12). -/
def Dev.pass (d : Dev) (n : Nat) : Dev :=
  if n = 0 then d
  else
    let lost := d.boot.pd00 && !bit (d.reg A.refclk) 7
    let (r, d) := if lost then d.draw else (0, d)
    let up := if lost then n - n / 20 + r % (n / 10 + 1) else n
    let d := if lost then d.setBit A.tickStatus 9 true else d
    let d := d.each (List.range 7) fun die d => d.perf die 0x001 (2 * n) []
    let a := d.advance 0 n
    let b := d.advance 1 n
    d.onTime fun t => { t with
      now := t.now + n, uptime := t.uptime + up, oscMark := t.oscMark || lost,
      ptpA := { t.ptpA with count := ptpWrap (t.ptpA.count + a) },
      ptpB := { t.ptpB with count := ptpWrap (t.ptpB.count + b) } }

/-- Clocks until domain `x` has advanced by `need` units of 2^-32 ns (an upper estimate by at most one clock in holdover). -/
def Dev.clocksFor (d : Dev) (x need : Nat) : Nat :=
  let incr := (d.ptp x).incr
  if d.holdover then
    let f := (1000000000000 + signed 32 (d.reg A.ptpRefDiff)).toNat
    ceilDiv (need * f) (incr * 1000000000000)
  else ceilDiv need incr

/-- The clock at which the selected domain reaches a time in ns; the present clock where it has passed it. -/
def Dev.selDeadline (d : Dev) (ns : Nat) : Nat := d.time.now + d.clocksFor d.time.selected (ns * 2 ^ 32 - (d.ptp d.time.selected).count)

/-- Let time pass up to a clock, but never beyond the next T0. -/
def Dev.passTo (d : Dev) (clock : Nat) : Dev :=
  let stop := if clock > d.time.nextAt then d.time.nextAt else clock
  d.pass (stop - d.time.now)

/-- A timer whose deadline is a clock: when it is reached no later than the next T0, time passes to it and its effect happens;
otherwise it is not due and nothing happens (log entry 11). -/
def Dev.timer (d : Dev) (deadline : Nat) (f : Dev → Dev) : Dev :=
  if deadline ≤ d.time.nextAt then f (d.passTo deadline) else d

/-- R167: the tick whose T0 a change ordered now takes effect at, 200 ns before it at least. -/
def Dev.nextCommit (d : Dev) : Nat :=
  if d.time.now + 200 ≤ d.time.nextAt then d.time.edges + 1 else d.time.edges + 2

/-- A write, by host or firmware, of a register that takes effect at a T0 (R167). -/
def Dev.writeEdge (d : Dev) (a v : Nat) : Dev :=
  let d := d.setReg a v
  { d with due := d.due ++ [(d.nextCommit, a, w32 v)] }

/-- R157: clocks from the tick reference to tick `k`. -/
def tickClock (k : Nat) : Nat := 15625 * k / 2

/-- The clock at which a coming tick begins, counted from the next T0. -/
def Dev.t0Of (d : Dev) (k : Nat) : Nat := d.time.nextAt + tickClock k - tickClock d.time.nextTick

/-- R158: the present frame. -/
def Dev.frame (d : Dev) : Nat := d.time.tick / 16

/-- The first frame whose T0 comes no earlier than a clock. -/
def Dev.frameFrom (d : Dev) (clock : Nat) : Nat :=
  let f := ceilDiv d.time.nextTick 16
  f + ceilDiv (clock - d.t0Of (16 * f)) 125000

/-! ## Dependencies (Table 20-2) -/

/-- Domains that domain `p` requires. -/
def requires (p : Nat) : List Nat :=
  if 1 ≤ p && p ≤ 4 then [0]
  else if 5 ≤ p && p ≤ 8 then [p - 4, p + 4]
  else if (9 ≤ p && p ≤ 14) || (16 ≤ p && p ≤ 19) || p = 21 then [15]
  else []

/-- One round of R485: add every domain that requires a domain of the set. -/
def resolveStep (mask : Nat) : Nat :=
  (List.range 24).foldl (fun m p => if (requires p).any (fun q => bit mask q) then withBit m p true else m) mask

/-- R485: the resolved set of domains to turn off. -/
def resolveOff (mask : Nat) : Nat := resolveStep (resolveStep (resolveStep mask))

/-- The domains a domain requires, itself included. -/
def needs (p : Nat) : Nat :=
  let one := fun (m : Nat) => (List.range 24).foldl (fun a q => if bit m q then (requires q).foldl (fun a r => withBit a r true) a else a) m
  one (one (one (2 ^ p)))

/-- Domains of dies marked failed, bit n for PDn. -/
def Dev.failedDomains (d : Dev) : Nat :=
  (List.range 24).foldl (fun m p => withBit m p (d.domFailed p)) 0

/-- Every domain that this device could turn on. -/
def Dev.allDomains (d : Dev) : Nat := 0xFFFFFF - d.failedDomains

/-- R485: the groups in the order in which they are turned on. -/
def domainGroups : List (List Nat) :=
  [[15], [16, 17, 18, 19], [9, 10, 11, 12, 13, 14], [1, 2, 3, 4, 5, 6, 7, 8], [20, 21, 22, 23]]

/-- Bring-up time in ns (Table 20-2). -/
def bringUp (p : Nat) : Nat :=
  if p = 0 then 0
  else if p ≤ 4 then 12000
  else if p ≤ 8 then 15000
  else if p ≤ 14 then 20000
  else if p = 15 then 300000
  else if p ≤ 19 then 5000
  else if p = 20 then 14000
  else 8000

/-! ## Content of a domain (R486) -/

/-- Forget the stored registers and counters of a domain's address range. -/
def Dev.dropRegs (d : Dev) (p : Nat) : Dev :=
  -- a pending write of an owner's configuration carries the owner above bit 32 of its address
  let k := fun a => domainOf (a % 2 ^ 32) != some p
  { d with regs := Tbl.keep k d.regs, ctrs := Tbl.keep k d.ctrs, live := Tbl.keep k d.live, due := d.due.filter fun e => k e.2.1 }

/-- A channel as the Pavilion keeps it while PD01 + n is off: configuration, tree, line keys. -/
def Chan.kept (c : Chan) : Chan := { c with dsDone := none, usDone := none, laser := false, tod := false, muted := false }

/-- Whether a flow's ONU sits on Dike `n`. -/
def Dev.flowOnDike (d : Dev) (n : Nat) (fl : Flow) : Bool := (d.onu fl.onu).channel / 128 == n

/-- The default allocation of an ONU keeps its parameters and loses its run-time state (R274, R486). -/
def Alloc.fresh (a : Alloc) : Alloc :=
  { onu := a.onu, type := a.type, prio := a.prio, fixed := a.fixed, assured := a.assured, max := a.max, weight := a.weight,
    maxWait := a.maxWait }

/-- Drop service flows that pass a test, with their queued packets, nodes and policers (R388, R395). -/
def Dev.dropFlows (d : Dev) (p : Nat → Flow → Bool) : Dev :=
  let gone := (d.pon.flows.filter fun e => p e.1 e.2).map Prod.fst
  let d := d.each gone fun f d => (d.purgeQ (.flow f) fun _ => true).2
  let d := d.onPon fun x => { x with flows := x.flows.filter fun e => !gone.contains e.1 }
  d.onData fun x => { x with
    nodes := x.nodes.filter fun e => !(e.1 / 2 ^ 24 == 2 && gone.contains (e.1 % 2 ^ 24))
    policers := x.policers.filter fun e => !gone.contains e.1 }

/-- The data that a DMA channel holds is lost: its packet's buffer goes, and a held request with it (R472, R473). -/
def Dev.dmaLose (d : Dev) (n : Nat) : Dev :=
  let d := match (d.dmaCh n).pkt with
    | some p => d.freePkt p
    | none => d
  let d := d.onBuf fun b => { b with held := b.held.filter fun h => h.who != 6 + n }
  d.onDma n fun c => { c with cur := none, sopAt := none, part := [], unit := none, done := 0, pkt := none, code := 0 }

/-- Content that a domain loses when it goes off (R486). -/
def Dev.dropContent (d : Dev) (p : Nat) : Dev :=
  if 1 ≤ p && p ≤ 4 then
    let n := p - 1
    d.onPon fun x => { x with
      engines := Tbl.keep (fun e => e / 8 != n) x.engines
      chans := Tbl.mapVals x.chans fun c ch => if c / 128 == n then Chan.kept ch else ch }
  else if 5 ≤ p && p ≤ 8 then
    let n := p - 5
    let d := d.onPon fun x => { x with
      onus := Tbl.mapVals x.onus fun _ o => if o.channel / 128 == n then { o with acc := {}, robust := false, robustNext := false, missRun := 0, lockRun := 0, blockN := 0, blockSum := 0 } else o }
    { d with redch := Tbl.keep (fun c => c / 128 != n) d.redch }
  else if 9 ≤ p && p ≤ 12 then
    let n := p - 9
    let onDike := fun (o : Nat) => (d.onu o).channel / 128 == n
    let d := d.dropFlows fun _ fl => d.flowOnDike n fl
    let d := d.onPon fun x => { x with
      recv := Tbl.keep (fun c => c / 128 != n) x.recv
      allocs := (x.allocs.filter fun e => !(onDike e.2.onu && e.1 % 16384 != e.2.onu % 1024)).map
        fun e => (e.1, if onDike e.2.onu then Alloc.fresh e.2 else e.2)
      chans := Tbl.mapVals x.chans fun c ch => if c / 128 == n then { ch with map := {}, next := {}, rot := 0, ovrRun := 0 } else ch }
    d.onData fun x => { x with dies := Tbl.erase x.dies n }
  else if p = 13 || p = 14 then
    let n := p - 13
    d.onData fun x => { x with
      dies := Tbl.erase x.dies (4 + n)
      subs := Tbl.keep (fun s => s / 256 != n) x.subs
      lanes := Tbl.keep (fun l => l / 128 != n) x.lanes
      synce := Tbl.erase x.synce n }
  else if p = 15 then
    let d := d.dropFlows fun _ _ => true
    let kept := fun (_ : Nat) (l : DLink) => ({ fatal := l.fatal } : DLink)
    d.onData fun x => { x with trie := {}, exc := [], excWait := [], buf := {}, nodes := [], policers := [], dlinks := Tbl.mapPut {} x.dlinks kept }
  else if 16 ≤ p && p ≤ 19 then
    let s := p - 16
    d.onBuf fun b => { b with placing := setAt b.placing s false, used := setAt b.used s 0, retired := setAt b.retired s 0, draining := Tbl.erase b.draining s }
  else if p = 20 then
    { d with funcs := Tbl.mapVals d.funcs fun _ f => { f with page := {} } }
  else if p = 21 then
    (d.each (List.range 32) fun n d => d.dmaLose n).onData fun x => { x with dma := [], descRam := [], units := [] }
  else if p = 22 then
    { d with mir := {} }
  else if p = 23 then
    { d with meas := {}, funcs := Tbl.mapVals d.funcs fun _ f => { f with cw := {} } }
  else d

/-- Switch one domain off: its registers and content are gone (R486). -/
def Dev.domainOff (d : Dev) (p : Nat) : Dev :=
  if p = 0 || !d.domOn p then d
  else ((d.dropRegs p).dropContent p).onPower fun x => { x with on := withBit x.on p false, rising := withBit x.rising p false }

/-- Switch every domain but PD00 off at once, without the drain (R35, R65, R539). -/
def Dev.allOff (d : Dev) : Dev :=
  let d := d.each [20, 21, 22, 23, 5, 6, 7, 8, 1, 2, 3, 4, 9, 10, 11, 12, 13, 14, 16, 17, 18, 19, 15] fun p d => d.domainOff p
  d.onPower fun x => { x with rising := 0, riseAt := [], owed := 0 }

end Sys2Proof.Machine
end

