-- ==== Sys2Proof/Machine/CryptoPage.lean ====
section
/-! DEFINITION. Crypto pages and the engine-wide controls (R313 to R321). -/

namespace Sys2Proof.Machine

/-- Words as bytes, byte 0 of a word in its bits 7:0. -/
def wordsLe (l : List W32) : Bytes := l.foldr (fun w acc => le 4 w.toNat ++ acc) []

/-- `n` words of bytes. -/
def leWords (n : Nat) (b : Bytes) : List W32 := (List.range n).map fun i => w32 (leAt b (4 * i) 4)

/-- Key slot `n` of a page. -/
def Page.slot (p : Page) (n : Nat) : Slot := nth {} p.slots n

/-- Table 12-10: the check that fails first, from the bottom row up. -/
def Page.check (p : Page) : Option Nat :=
  let op := p.op.toNat % 8
  let s := Page.slot p (fld p.op.toNat 4 3)
  let dlen := fld p.len.toNat 0 13
  let alen := fld p.len.toNat 16 11
  if op ≥ 4 then some 5
  else if dlen > 7168 || alen > 1024 || (op ≥ 2 && alen != 0) then some 4
  else if s.alg = 0 then some 3
  else if op % 2 = 0 && s.retired then some 2
  else none

/-- R317: the end of an operation, all in one clock, then DONE and vector 2. -/
def Dev.cryptoFinish (d : Dev) (f result : Nat) (out : Bytes) (nonce tag : Option (List W32)) : Dev :=
  let d := d.onPage f fun p => { p with
    job := none, done := true, result := result, outLen := out.length, outp := Mem.write [] 0 out
    nonce := nonce.getD p.nonce, tag := tag.getD p.tag
    ops := (p.ops + 1) % 2 ^ 64, tagFail := if result = 1 then (p.tagFail + 1) % 2 ^ 64 else p.tagFail
    slots := p.waiting.foldl (fun s e => setAt s e.1 e.2) p.slots, waiting := [] }
  d.perf 6 0x070 1 [(5, f)]

/-- Signal DONE where it is enabled and was clear before (R80). -/
def Dev.cryptoSignal (before after : Dev) (f : Nat) : Dev :=
  if !(before.page f).done && (after.page f).done && (after.page f).intEn then after.raise f 2 else after

/-- R315: EPOCH ‖ COUNTER, both big-endian. -/
def Slot.nonce (s : Slot) : Bytes := be 4 s.epoch ++ be 8 s.ctr

/-- R315: the slot after one nonce. -/
def Slot.used (s : Slot) : Slot := { s with ctr := s.ctr + 1, retired := s.retired || s.ctr + 1 == 2 ^ 64 - 1 }

/-- The page takes commands: PD20 on, no disable sequence (R86, R91). -/
def Dev.pageUp (d : Dev) (f : Nat) : Bool := d.domOn 20 && !(d.fn f).disabling

/-- START (R314 to R316). -/
def Dev.cryptoStart (d : Dev) (f : Nat) : Dev :=
  let p := d.page f
  if p.job.isSome then d.onPage f fun p => { p with startErr := true }
  else
    match Page.check p with
    | some r => Dev.cryptoSignal d (d.cryptoFinish f r [] none none) f
    | none =>
      let op := p.op.toNat % 8
      let n := fld p.op.toNat 4 3
      let s := Page.slot p n
      let enc := op % 2 = 0
      let job : CryptoJob :=
        { op := op, slot := n, key := s.key, nonce := if enc then Slot.nonce s else wordsLe p.nonce, tag := wordsLe p.tag
          aad := Mem.read p.aad 0 (fld p.len.toNat 16 11), data := Mem.read p.inp 0 (fld p.len.toNat 0 13) }
      d.onPage f fun p => { p with
        job := some job, outp := [], slots := if enc then setAt p.slots n (Slot.used s) else p.slots }

/-- The running operation completes (R314, R317). -/
def Dev.cryptoDone (d : Dev) (f : Nat) : Dev :=
  match (d.page f).job with
  | none => d
  | some j =>
    let nonce := some (leWords 3 j.nonce)
    let after :=
      if j.op = 0 then
        let (c, t) := gcmEnc j.key j.nonce j.aad j.data
        d.cryptoFinish f 0 c nonce (some (leWords 4 t))
      else if j.op = 1 then
        if gcmTag j.key j.nonce j.aad j.data = j.tag then d.cryptoFinish f 0 (aesCtr j.key j.nonce 2 j.data) none none
        else d.cryptoFinish f 1 [] none none
      else d.cryptoFinish f 0 (aesCtr j.key j.nonce 1 j.data) (if j.op = 2 then nonce else none) none
    Dev.cryptoSignal d after f

/-- R318: set a slot now, or after the operation that runs. -/
def Dev.slotSet (d : Dev) (f n : Nat) (s : Slot) : Dev :=
  d.onPage f fun p => if p.job.isSome then { p with waiting := p.waiting ++ [(n, s)] } else { p with slots := setAt p.slots n s }

/-- CLEAR bits (R318). -/
def Dev.cryptoClear (d : Dev) (f slots : Nat) : Dev :=
  d.each (List.range 8) fun n d => if bit slots n then d.slotSet f n {} else d

/-- R321: abort the running operation with RESULT 0x6 and empty every slot. -/
def Dev.zeroise (d : Dev) (f : Nat) : Dev :=
  let after := if (d.page f).job.isSome then d.cryptoFinish f 6 [] none none else d
  let after := after.onPage f fun p => { p with slots := List.replicate 8 {}, waiting := [] }
  Dev.cryptoSignal d after f

/-- A write of CRYPTO_ENG_ZEROISE. -/
def Dev.engZeroise (d : Dev) (w : Nat) : Dev :=
  if bit w 9 then d.each (Tbl.keys d.funcs) fun f d => d.zeroise f
  else if bit w 8 then d.zeroise (w % 64)
  else d

/-- A write of CRYPTO_CTRL: CLEAR and START take effect together, a CLEAR of the slot in use after the operation (R314, R318). -/
def Dev.cryptoCtrl (d : Dev) (f w : Nat) : Dev :=
  let d := if bit w 0 then d.cryptoStart f else d
  d.cryptoClear f (fld w 8 8)

/-- TRNG_OK (R320): the TRNG passes once PD20's engine runs, until a health test fails. -/
def Dev.trngOk (d : Dev) : Bool := !bit (d.reg A.cryptoEngStatus) 1

/-- CRYPTO_OPERATION_DONE. -/
def execCryptoOperationDone (func : Nat) (s : State) : Host.Outcome State Fault Refusal :=
  act (decide (func < 64)) (fun d => if d.pageUp func then d.cryptoDone func else d) s

/-- TRNG_HEALTH_FAIL (R320). -/
def execTrngHealthFail (s : State) : Host.Outcome State Fault Refusal :=
  act true (fun d => if d.domOn 20 then (d.setBit A.cryptoEngStatus 1 true).bumpSat A.cryptoTrngFail else d) s

end Sys2Proof.Machine
end

