-- ==== Sys2Proof/Machine/Pcie.lean ====
section
/-! DEFINITION. The PCIe port and its functions: link, resets, enables and the disable sequence (R63 to R73, R90 to R95).
Choices and readings: log entry 4. -/

namespace Sys2Proof.Machine

/-- R473: halt each running DMA channel that the function owns, with HALT_CAUSE 2 and no further write-back. -/
def Dev.dmaHaltOwned (d : Dev) (f : Nat) : Dev :=
  d.each (List.range 32) fun n d =>
    if d.dmaOwner n = f && (d.dmaCh n).en then
      (d.dmaLose n).onDma n fun c => { c with state := .halt, haltCause := 2 }
    else d

/-- R473: after a function-level reset every register of an owned channel but DMA_CHn_CFG returns to its reset value. -/
def Dev.dmaResetOwned (d : Dev) (f : Nat) : Dev :=
  d.each (List.range 32) fun n d =>
    if d.dmaOwner n = f then
      let base := A.dma n 0
      let k := fun a => !(decide (base ≤ a) && decide (a < base + 0x40) && a != A.dmaCfg n)
      let d := { d with regs := Tbl.keep k d.regs, ctrs := Tbl.keep k d.ctrs }
      d.onData fun x => { x with dma := Tbl.erase x.dma n }
    else d

/-- Table 4-13, time 0: a function starts its disable sequence (R90). -/
def Dev.startDisable (d : Dev) (f : Nat) (byFlr : Bool) : Dev :=
  let d := d.dmaHaltOwned f
  d.onFn f fun x => { x with
    disabling := true, byFlr := byFlr, tk := none
    kiosk := { x.kiosk with discard := x.kiosk.executing.isSome }
    page := { x.page with job := none, slots := List.replicate 8 {}, waiting := [] } }

/-- A function's configuration space at its reset values, with its MSI-X table (PCI Express Base 6.0). -/
def Func.configReset (x : Func) : Func :=
  { x with busMaster := false, msixEn := false, fmask := false, mps := 128, d3hot := false, msix := [], pba := [], held := [] }

/-- Indices of the enabled virtual functions. -/
def Dev.enabledVfs (d : Dev) : List Nat := (List.range 64).filter fun f => decide (2 ≤ f) && (d.fn f).enabled

/-- Clear VF Enable: the disable sequence of every virtual function (R90). -/
def Dev.vfClear (d : Dev) : Dev :=
  let d := d.each d.enabledVfs fun f d => (d.startDisable f false).onFn f fun x => { Func.configReset x with enabled := false }
  d.onPcie fun p => { p with vfEnable := false, numVfs := 0 }

/-- A configuration request can reach function `f`. -/
def Dev.cfgReach (d : Dev) (f : Nat) : Bool := d.pcie.linkUp && d.pcie.cfgOk && d.fnEnabled f && !(d.boot.stage == 7 && f != 0)

/-- Clear rings, positions and faults and return to the un-negotiated state with subscriptions cancelled (R90, R112, R124). -/
def Kiosk.scrub (k : Kiosk) : Kiosk :=
  { k with
    reqMem := [], rspMem := [], reqTail := 0, reqHead := 0, rspTail := 0, rspHead := 0
    ringFault := false, level := 0, mask := 0, lostFlag := false }

/-- R94: every function at once; the PCIe controller resets and configuration space holds its reset values. -/
def Dev.linkReset (d : Dev) (training : Bool) : Dev :=
  let d := if d.boot.devReady then
      d.each ([0, 1] ++ d.enabledVfs) fun f d => d.startDisable f false
    else d
  let d := d.each ([0, 1] ++ d.enabledVfs) fun f d => d.onFn f fun x => { Func.configReset x with latch := [], enabled := false }
  d.onPcie fun p => { p with linkUp := false, vfEnable := false, numVfs := 0, training := training && p.released }

/-- PCIE_CONTROLLER_RELEASE (R63): at t = 0.3 ms. -/
def execPcieControllerRelease (s : State) : Host.Outcome State Fault Refusal :=
  act true (fun d =>
    if d.boot.pd00 && !d.pcie.released then
      d.timer 200000 fun d => d.onPcie fun p => { p with released := true, training := d.pins.perstHigh }
    else d) s

/-- PCIE_PERST_N_RELEASE (R63). -/
def execPciePerstNRelease (s : State) : Host.Outcome State Fault Refusal :=
  act true (fun d =>
    let d := d.onPins fun p => { p with perstHigh := true }
    d.onPcie fun p => { p with training := p.released }) s

/-- PCIE_PERST_N_ASSERT (R94; during start-up R64). -/
def execPciePerstNAssert (s : State) : Host.Outcome State Fault Refusal :=
  act true (fun d => (d.linkReset false).onPins fun p => { p with perstHigh := false }) s

/-- PCIE_LINK_UP (R63): needs PCIE_REFCLK, a started training and PCIE_PERST_N high. -/
def execPcieLinkUp (s : State) : Host.Outcome State Fault Refusal :=
  act true (fun d =>
    if d.pcie.training && d.pins.perstHigh && bit (d.reg A.refclk) 6 then
      d.onPcie fun p => { p with linkUp := true, training := false }
    else d) s

/-- PCIE_HOT_RESET (R94). -/
def execPcieHotReset (s : State) : Host.Outcome State Fault Refusal :=
  act true (fun d => if d.pcie.linkUp then d.linkReset true else d) s

/-- PCIE_LINK_DISABLE (R94). -/
def execPcieLinkDisable (s : State) : Host.Outcome State Fault Refusal :=
  act true (fun d => if d.pcie.linkUp then d.linkReset true else d) s

/-- PCIE_DATA_LINK_LOSS (R94). -/
def execPcieDataLinkLoss (s : State) : Host.Outcome State Fault Refusal :=
  act true (fun d => if d.pcie.linkUp then d.linkReset true else d) s

/-- FUNCTION_LEVEL_RESET (R90, R95, R11). -/
def execFunctionLevelReset (func : Nat) (s : State) : Host.Outcome State Fault Refusal :=
  act (decide (func < 64)) (fun d =>
    if d.cfgReach func then
      let d := if func = 0 then d.vfClear else d
      (d.startDisable func true).onFn func fun x => { Func.configReset x with latch := [] }
    else d) s

/-- BUS_MASTER_ENABLE_CLEAR (R90). -/
def execBusMasterEnableClear (func : Nat) (s : State) : Host.Outcome State Fault Refusal :=
  act (decide (func < 64)) (fun d =>
    if d.cfgReach func && (d.fn func).busMaster then
      (d.startDisable func ((d.fn func).disabling && (d.fn func).byFlr)).onFn func fun x => { x with busMaster := false }
    else d) s

/-- Send the pending vectors that may now be sent (PCI Express Base 6.0). -/
def Dev.flushPending (d : Dev) (f : Nat) : Dev :=
  let x := d.fn f
  if d.mayIssue f && x.msixEn then
    let go := x.pba.filter fun v => !Func.masked x v
    let d := d.onFn f fun x => { x with pba := x.pba.filter fun v => Func.masked x v }
    d.each go.reverse fun v d => d.emit (.msix f v)
  else d

/-- BUS_MASTER_ENABLE_SET (R92). No row of the table sets MSI-X Enable, the function mask or Max Payload Size, so their values come with
this configuration write (DESIGN CHOICE, log entry 4); a size that Table 4-1 does not name is not taken. -/
def execBusMasterEnableSet (func : Nat) (msixEn fmask : Bool) (mps : Nat) (s : State) : Host.Outcome State Fault Refusal :=
  act (decide (func < 64)) (fun d =>
    if d.cfgReach func then
      (d.onFn func fun x => { x with busMaster := true, msixEn := msixEn, fmask := fmask, mps := if [128, 256, 512].contains mps then mps else x.mps }).flushPending func
    else d) s

/-- D3HOT_ENTRY (R90). -/
def execD3hotEntry (func : Nat) (s : State) : Host.Outcome State Fault Refusal :=
  act (decide (func < 64)) (fun d =>
    if d.cfgReach func && !(d.fn func).d3hot then
      (d.startDisable func ((d.fn func).disabling && (d.fn func).byFlr)).onFn func fun x => { x with d3hot := true }
    else d) s

/-- D0_ENTRY (R92). -/
def execD0Entry (func : Nat) (s : State) : Host.Outcome State Fault Refusal :=
  act (decide (func < 64)) (fun d =>
    if d.cfgReach func then (d.onFn func fun x => { x with d3hot := false }).flushPending func else d) s

/-- VF_ENABLE_CLEAR (R90). -/
def execVfEnableClear (s : State) : Host.Outcome State Fault Refusal :=
  act true (fun d => if d.cfgReach 0 then d.vfClear else d) s

/-- VF_ENABLE_SET (R70). -/
def execVfEnableSet (numVfs : Nat) (s : State) : Host.Outcome State Fault Refusal :=
  act true (fun d =>
    if d.cfgReach 0 && d.boot.stage != 7 && decide (numVfs ≤ 62) && !d.pcie.vfEnable then
      let d := d.onPcie fun p => { p with vfEnable := true, numVfs := numVfs }
      d.each (List.range numVfs) fun i d => d.onFn (2 + i) fun x => { x with enabled := true }
    else d) s

/-- DISABLE_SEQUENCE_DONE (R90, R91): QUIESCENT reads 1 and PF0 vector 44 is raised unless PF0 is the function. -/
def execDisableSequenceDone (func : Nat) (s : State) : Host.Outcome State Fault Refusal :=
  act (decide (func < 64)) (fun d =>
    if (d.fn func).disabling then
      let flr := (d.fn func).byFlr
      let d := d.onFn func fun x => { x with
        disabling := false, byFlr := false, page := {}, kiosk := Kiosk.scrub x.kiosk }
      let d := if flr then d.dmaResetOwned func else d
      let d := if func = 0 then d else d.raise 0 44
      d.flushPending func
    else d) s

end Sys2Proof.Machine
end

