-- ==== Sys2Proof/Machine/Kiosk.lean ====
section
/-! DEFINITION. The Kiosk: rings and doorbells, the checks of Table 5-8, the answer of a request, and the system group
(05_mailbox_protocol.md, Tables 6-1 and 6-8).
Choices and readings: log entries 18, 19, 26 and 27. -/

namespace Sys2Proof.Machine

/-! ## Commands of the catalogue -/

/-- Caller classes of Table 6-1. -/
inductive Caller where
  | a | m | x | t | r
  deriving DecidableEq, Repr

/-- A request in execution: its caller, the Kiosk's level, the header's OPCODE and SEQUENCE, the payload's fields in
the order of the layout without the reserved ones, and the payload itself. -/
structure Call where
  func : Nat
  lvl : Nat
  op : Nat
  seq : W32
  args : List Nat
  body : Bytes

/-- Field `i` of a request. -/
def Call.a (x : Call) (i : Nat) : Nat := nth 0 x.args i

/-- What executing a request answers: a payload with OK, an error, or an answer that comes later. -/
inductive Reply where
  | ok (payload : Bytes)
  | err (status detail : Nat)
  | later

/-- One command of the catalogue: its row in the group table and its checks in the order of Table 5-8.
A check answers the DETAIL of its status, or nothing when it passes. -/
structure Cmd where
  /-- OPCODE. -/
  op : Nat
  /-- Lowest level. -/
  lvl : Nat := 1
  /-- Caller class. -/
  caller : Caller := .m
  /-- Lowest minor version of interface 3 whose firmware has the command (R135). -/
  since : Nat := 0
  /-- Request layout: field sizes, with true for a reserved field (R130). -/
  layout : List (Nat × Bool) := []
  /-- Variable part: least size, greatest size, step. -/
  tail : Nat × Nat × Nat := (0, 0, 1)
  /-- Its effect is mirrored (Table 18-7). -/
  mirrored : Bool := false
  /-- It takes effect at a tick edge (R167) and is answered there. -/
  commit : Bool := false
  /-- BAD_FIELD: offsets of fields out of range. -/
  bad : Dev → Call → List Nat := fun _ _ => []
  /-- LEVEL_UNSUPPORTED. -/
  level : Dev → Call → Option Nat := fun _ _ => none
  /-- NO_SUCH_OBJECT: offset of the identifier. -/
  absent : Dev → Call → Option Nat := fun _ _ => none
  /-- UNAVAILABLE: offset of the identifier. -/
  unavail : Dev → Call → Option Nat := fun _ _ => none
  /-- WRONG_STATE: state code. -/
  state : Dev → Call → Option Nat := fun _ _ => none
  /-- NO_RESOURCE: resource code. -/
  full : Dev → Call → Option Nat := fun _ _ => none
  /-- Command-specific: status and DETAIL. -/
  special : Dev → Call → Option (Nat × Nat) := fun _ _ => none
  /-- The effect and the answer. -/
  run : Dev → Call → Dev × Reply := fun d _ => (d, .ok [])
  /-- The effect at the tick edge of a command that `run` has ordered itself (R181). -/
  atEdge : Option (Dev → Call → Dev × Reply) := none

/-! ## Payloads -/

/-- Size of the fixed part. -/
def fixedSize (l : List (Nat × Bool)) : Nat := l.foldl (fun a e => a + e.1) 0

/-- The fields of a payload, reserved ones left out (R130: packed, little-endian). -/
def fields : List (Nat × Bool) → Nat → Bytes → List Nat
  | [], _, _ => []
  | (n, res) :: l, off, b => if res then fields l (off + n) b else leAt b off n :: fields l (off + n) b

/-- Offsets of reserved fields that are not zero. -/
def reservedBad : List (Nat × Bool) → Nat → Bytes → List Nat
  | [], _, _ => []
  | (n, res) :: l, off, b =>
    if res && leAt b off n != 0 then off :: reservedBad l (off + n) b else reservedBad l (off + n) b

/-- Sizes of a layout: `fd n` is a field of n bytes, `rs n` a reserved one. -/
def fd (n : Nat) : Nat × Bool := (n, false)
/-- A reserved field of n bytes. -/
def rs (n : Nat) : Nat × Bool := (n, true)

/-- The first offset of a list of bad fields. -/
def firstBad : List Nat → Option Nat
  | [] => none
  | o :: l => some (l.foldl min o)

/-- Offsets whose condition holds. -/
def badIf (l : List (Nat × Bool)) : List Nat := (l.filter Prod.snd).map Prod.fst

/-- R130: LENGTH is admitted. -/
def Cmd.lengthOk (c : Cmd) (len : Nat) : Bool :=
  let base := fixedSize c.layout
  decide (base + c.tail.1 ≤ len) && decide (len ≤ base + c.tail.2.1) && (len - base - c.tail.1) % c.tail.2.2 == 0

/-- A request of a command. -/
def Cmd.call (c : Cmd) (func lvl : Nat) (seq : W32) (body : Bytes) : Call :=
  { func := func, lvl := lvl, op := c.op, seq := seq, args := fields c.layout 0 body, body := body }

/-! ## Who may call (R128, R131) -/

/-- The caller's function belongs to the class. -/
def Dev.permits (d : Dev) (c : Caller) (func : Nat) : Bool :=
  match c with
  | .a => true
  | .m => func == 0
  | .x => decide (func < 2)
  | .t => func == 0 || (decide (2 ≤ func) && (d.fn func).tenant != 0)
  | .r => decide (func < 2) || (d.fn func).tenant != 0

/-- R128: the caller sees objects of tenant `t`; PF0 and PF1 see every object. -/
def Dev.sees (d : Dev) (func t : Nat) : Bool := decide (func < 2) || (t != 0 && (d.fn func).tenant == t)

/-- R4, R135: the running firmware knows the command. -/
def Dev.knows (d : Dev) (c : Cmd) : Bool :=
  d.image.fwIfVer / 65536 != 3 || decide (c.since ≤ d.image.fwIfVer % 65536)

/-! ## The checks (R113, Table 5-8) -/

/-- R434: a standby answers a mirrored command with its own role. -/
def Dev.standbyCode (d : Dev) : Option Nat :=
  match d.red.role with
  | .syncing => some 0x42
  | .ready => some 0x43
  | _ => none

/-- The checks from NOT_NEGOTIATED to NOT_PERMITTED. -/
def Dev.headerCheck (d : Dev) (c? : Option Cmd) (func op version : Nat) (seq : W32) : Option (Nat × Nat) :=
  let k := d.kiosk func
  let want := if op = 1 then 1 else k.level
  if k.level = 0 && op != 1 then some (0x0002, 0)
  else if version ≠ want then some (0x0003, want)
  else if op ≠ 1 && seq ≠ k.expected then some (0x0004, k.expected.toNat)
  else
    match c? with
    | none => some (0x0001, 0)
    | some c =>
      if (op ≠ 1 && decide (k.level < c.lvl)) || !d.knows c then some (0x0001, 0)
      else if !d.permits c.caller func then some (0x0007, 0)
      else none

/-- Tag a check's DETAIL with its status. -/
def tagged (status : Nat) (o : Option Nat) : Option (Nat × Nat) := o.map fun v => (status, v)

/-- The checks from BAD_FIELD on. -/
def Cmd.fieldCheck (c : Cmd) (d : Dev) (x : Call) : Option (Nat × Nat) :=
  (tagged 0x0006 (firstBad (reservedBad c.layout 0 x.body ++ c.bad d x))).or <|
  (tagged 0x0011 (c.level d x)).or <|
  (tagged 0x0008 (c.absent d x)).or <|
  (tagged 0x000B (c.unavail d x)).or <|
  (tagged 0x0009 (if c.mirrored then d.standbyCode else none)).or <|
  (tagged 0x0009 (c.state d x)).or <|
  (tagged 0x000A (c.full d x)).or <|
  c.special d x

/-- The checks from BAD_LENGTH on. -/
def Cmd.check (c : Cmd) (d : Dev) (x : Call) : Option (Nat × Nat) :=
  if !c.lengthOk x.body.length then some (0x0005, fixedSize c.layout + c.tail.1) else c.fieldCheck d x

/-! ## The mirror link's records (R451, R457) -/

/-- Send a record: it stays in the replay store until it is acknowledged. -/
def Dev.sendRec (d : Dev) (r : Rec) : Dev :=
  let n := d.mir.nextTx
  let d := (d.emit (.record n r)).bump A.mirTx
  d.onMir fun m => { m with
    nextTx := (n + 1) % 2 ^ 32, ackAt := if m.store.isEmpty then d.time.now else m.ackAt
    store := m.store ++ [(n, r, d.time.now)] }

/-- R451, R452: this device is ACTIVE and mirrors to its partner. -/
def Dev.mirroring (d : Dev) : Bool :=
  d.red.role == .active && d.red.enable && d.mir.up && d.mir.version != 0 && !d.mir.stopped && (d.mir.bulk || d.mir.copying)

/-! ## Answering -/

/-- The request as the firmware holds it. -/
def Call.req (x : Call) (now : Nat) : Req :=
  { func := x.func, op := x.op, seq := x.seq, args := x.args, body := x.body, taken := now }

/-- Answer OK: at once, or after the standby's acknowledgement where the effect is mirrored (R452). -/
def Dev.answerOk (d : Dev) (mirrored : Bool) (r : Req) (payload : Bytes) : Dev :=
  if mirrored && d.mirroring then
    let n := d.mir.nextTx
    let d := d.sendRec (.command r.op r.args r.body)
    d.onMir fun m => { m with waiting := m.waiting ++ [(n, r, 0, 0, payload)] }
  else d.respond r.func r.op r.seq 0 0 payload

/-- Execute a request that has passed its checks and answer it after `dt` ns. -/
def Dev.finish (d : Dev) (c : Cmd) (x : Call) (dt : Nat) : Dev :=
  let now := d.time.now
  match c.run d x with
  | (d, .ok p) => (d.passTo (now + dt)).answerOk c.mirrored (x.req now) p
  | (d, .err s t) => (d.passTo (now + dt)).respond x.func x.op x.seq s t []
  | (d, .later) => d

/-- Check a request that has passed the header checks; execute it, or order it for its tick edge (R167). -/
def Dev.perform (d : Dev) (c : Cmd) (x : Call) (dt : Nat) : Dev :=
  match c.check d x with
  | some (s, t) => (d.passTo (d.time.now + dt)).respond x.func x.op x.seq s t []
  | none =>
    if c.commit then
      d.onPon fun p => { p with commits := p.commits ++ [{ x.req d.time.now with from' := d.nextCommit }] }
    else d.finish c x dt

/-- R114: the expected sequence after a request with SEQUENCE `seq`. -/
def Kiosk.advance (k : Kiosk) (op : Nat) (seq : W32) : Kiosk :=
  if op ≠ 1 && k.level ≠ 0 && seq = k.expected then { k with expected := k.expected + 1 } else k

/-- The firmware holds a request from now on: REQ_HEAD past its units, REQ_SPACE, EXECUTING (R105). -/
def Dev.consume (d : Dev) (func n : Nat) (r : Req) : Dev :=
  let d := d.onKiosk func fun k => { k with
    reqHead := k.reqHead + BitVec.ofNat 16 n, executing := some r, discard := false }
  d.kioskCause func 2

/-- The checks and the execution of a request whose header is sound. -/
def Dev.serve (d : Dev) (c? : Option Cmd) (func op version : Nat) (seq : W32) (body : Bytes) (dt : Nat) : Dev :=
  let r : Req := { func := func, op := op, seq := seq, args := [], body := body, taken := d.time.now }
  let lvl := (d.kiosk func).level
  let verdict := d.headerCheck c? func op version seq
  let d := (d.consume func (units body.length) r).onKiosk func fun k => k.advance op seq
  match verdict, c? with
  | some (s, t), _ => (d.passTo (d.time.now + dt)).respond func op seq s t []
  | none, some c => d.perform c (c.call func lvl seq body) dt
  | none, none => d

/-! ## Taking a request -/

/-- R90, R104, R105, R107, R115, R125: the firmware may take a request from the Kiosk. -/
def Dev.mayTake (d : Dev) (func : Nat) : Bool :=
  let k := d.kiosk func
  k.ready && !k.ringFault && !k.resetBusy && k.executing.isNone && !(d.fn func).disabling && !d.pav.ordered
    && d.fnEnabled func && decide (128 ≤ free k.rspTail k.rspHead)

/-- R118: the Kiosk's budget after the time that has passed. -/
def Dev.fillBudget (d : Dev) (func : Nat) : Dev :=
  let t := d.tenant (d.fn func).tenant
  d.onKiosk func fun k => { k with
    tokens := min (t.cmdDepth * 1000000000) (k.tokens + (d.time.now - k.filledAt) * t.cmdRate), filledAt := d.time.now }

/-- R118: PF0 and PF1 have no budget; a VF's bucket holds a token. -/
def Dev.hasToken (d : Dev) (func : Nat) : Bool := decide (func < 2) || decide (1000000000 ≤ ((d.fillBudget func).kiosk func).tokens)

/-- R118: one token for a request that is taken. -/
def Dev.takeToken (d : Dev) (func : Nat) : Dev :=
  if func < 2 then d else (d.fillBudget func).onKiosk func fun k => { k with tokens := k.tokens - 1000000000 }

/-- The header at the head of the request ring. -/
def Kiosk.header (k : Kiosk) : Bytes := ringRead k.reqMem k.reqHead.toNat 16

/-- R107: FLAGS not 0, LENGTH above 2,032, or STATUS or DETAIL not 0. -/
def faulty (h : Bytes) : Bool := leAt h 1 1 != 0 || decide (2032 < leAt h 8 2) || leAt h 0xA 2 != 0 || leAt h 0xC 4 != 0

/-- R104, R107: a whole message, or a faulty header, lies before the published tail. -/
def Kiosk.complete (k : Kiosk) : Bool :=
  let u := used k.reqTail k.reqHead
  let h := Kiosk.header k
  decide (1 ≤ u) && (faulty h || decide (units (leAt h 8 2) ≤ u))

/-- The firmware may take what the Kiosk holds but for its budget. -/
def Dev.holdsWork (d : Dev) (func : Nat) : Bool := d.mayTake func && Kiosk.complete (d.kiosk func)

/-- BUDGET_WAIT: the next request waits for the command budget (R118). -/
def Dev.budgetWaits (d : Dev) (func : Nat) : Bool := d.holdsWork func && !faulty (Kiosk.header (d.kiosk func)) && !d.hasToken func

/-- R117: a visit to the Kiosk takes a request. -/
def Dev.canTake (d : Dev) (func : Nat) : Bool := d.holdsWork func && (faulty (Kiosk.header (d.kiosk func)) || d.hasToken func)

/-- R117: the Kiosk of the next visit, and where the round stands after it. The round is 2i while PF0 is next after function i, and
2i + 1 while the first function above i is. -/
def Dev.nextKiosk (d : Dev) : Option (Nat × Nat) :=
  let above := fun (i : Nat) => ((List.range 64).find? fun f => decide (i < f) && d.canTake f).map fun f => (f, 2 * f)
  let i := d.round / 2
  let pf0 := d.canTake 0
  if d.round % 2 = 0 && pf0 then some (0, 2 * i + 1)
  else (above i).or (if pf0 then some (0, 1) else above 0)

/-- A host access to function `func`'s BAR can arrive: the link is up and the function answers (R61, R63, R65, R70). -/
def Dev.barUp (d : Dev) (func : Nat) : Bool := d.cfgReach func && !(d.fn func).d3hot

/-- A write to the function's Kiosk arrives and is taken (R91). -/
def Dev.hostCan (d : Dev) (func : Nat) : Bool := d.barUp func && d.boot.stage != 7 && !(d.fn func).disabling

/-- R97, R100: the host's message at the tail of the request ring, its doorbell written. -/
def Dev.place (d : Dev) (c : Cmd) (m : Msg) : Dev :=
  let n := units m.payload.length
  let bs := msgHeader m.version 0 c.op m.seq m.payload.length 0 0 ++ m.payload
            ++ List.replicate (16 * n - 16 - m.payload.length) 0
  d.onKiosk m.func fun k => { k with reqMem := ringWrite k.reqMem k.reqTail.toNat bs, reqTail := k.reqTail + BitVec.ofNat 16 n }

/-- A request row of the table: the host publishes the message, and the firmware takes it where it is the next that its round
takes (R117); else it stays in the ring (R104, R105, R118) for KIOSK_TAKE_REQUEST. -/
def Dev.submit (d : Dev) (c : Cmd) (m : Msg) : Dev :=
  let k := d.kiosk m.func
  if !d.hostCan m.func || k.resetBusy || decide (free k.reqTail k.reqHead < units m.payload.length) then d
  else
    let d := d.place c m
    match d.nextKiosk with
    | some (f, r) =>
      if f = m.func && k.reqTail = k.reqHead then
        (({ d with round := r }).takeToken m.func).serve (some c) m.func c.op m.version m.seq m.payload m.dt
      else d
    | none => d

/-- The range that every request row checks: a function that exists and a payload within R97. -/
def Msg.ok (m : Msg) : Bool := decide (m.func < 64) && decide (m.payload.length ≤ 2032)

/-- The meaning of a request row. -/
def request (c : Cmd) (m : Msg) (s : State) : Host.Outcome State Fault Refusal := act (Msg.ok m) (fun d => d.submit c m) s

/-! ## Doorbells and ring reset (R100, R101, R124) -/

/-- R100, R101: a rejected doorbell. -/
def Dev.doorbellError (d : Dev) (func value ring : Nat) : Dev :=
  (d.onKiosk func fun k => { k with errInfo := w32 (value + 0x20000 * ring) }).kioskCause func 0x20

/-- A write of KIOSK_REQ_TAIL. -/
def Dev.writeReqTail (d : Dev) (func : Nat) (word : W32) : Dev :=
  let k := d.kiosk func
  let n : BitVec 16 := word.setWidth 16
  if k.resetBusy then d
  else if (n - k.reqTail).toNat ≤ free k.reqTail k.reqHead then d.onKiosk func fun k => { k with reqTail := n }
  else d.doorbellError func n.toNat 0

/-- A write of KIOSK_RSP_HEAD. -/
def Dev.writeRspHead (d : Dev) (func : Nat) (word : W32) : Dev :=
  let k := d.kiosk func
  let n : BitVec 16 := word.setWidth 16
  if k.resetBusy then d
  else if (n - k.rspHead).toNat ≤ used k.rspTail k.rspHead then d.onKiosk func fun k => { k with rspHead := n }
  else d.doorbellError func n.toNat 1

/-- A write of KIOSK_CTRL with RING_RESET = 1. -/
def Dev.ringReset (d : Dev) (func : Nat) : Dev :=
  d.onKiosk func fun k => { k with
    resetBusy := true, reqHead := k.reqTail, discard := k.discard || k.executing.isSome }

/-- R124: the end of a ring reset. -/
def Dev.ringResetEnd (d : Dev) (func : Nat) : Dev :=
  let k := d.kiosk func
  if k.resetBusy && k.executing.isNone then d.onKiosk func fun k => { Kiosk.scrub k with resetBusy := false } else d

/-- RING_RESET_DONE. -/
def execRingResetDone (func : Nat) (s : State) : Host.Outcome State Fault Refusal :=
  act (decide (func < 64)) (fun d => d.ringResetEnd func) s

/-! ## System group (Table 6-8) -/

/-- LEVELS of a Kiosk (Table 5-7). -/
def levelsOf (func : Nat) : Nat := if func = 0 then 0xE else if func = 1 then 0xC else 0x8

/-- The highest level no greater than `top` that the Kiosk admits; 0 for none. -/
def bestLevel (func top : Nat) : Nat :=
  if 3 ≤ top then 3 else if top = 2 && func < 2 then 2 else if 1 ≤ top && func = 0 then 1 else 0

/-- R110: no level can be met. -/
def helloFails (func lo hi : Nat) : Bool := decide (bestLevel func hi < lo) || decide (lo > hi) || hi == 0 || decide (hi > 3) || bestLevel func hi == 0

/-- HELLO (R109 to R112). -/
def cmdHello : Cmd where
  op := 0x0001
  caller := .a
  layout := [fd 1, fd 1, rs 2, fd 4, fd 8]
  level _ x := if helloFails x.func (x.a 0) (x.a 1) then some (levelsOf x.func) else none
  run d x :=
    let l := bestLevel x.func (x.a 1)
    let next := x.seq + 1
    let d := d.onKiosk x.func fun k => { k with level := l, expected := next, mask := 0, eventSeq := 1 }
    let d := d.log 0x0302 6 (le 1 x.func ++ le 1 l ++ le 4 (x.a 2) ++ le 8 (x.a 3))
    (d, .ok (le 1 l ++ le 1 x.func ++ le 2 2048 ++ le 4 d.image.fwIfVer ++ le 4 d.image.imageVer ++ le 4 d.pav.restarts
      ++ le 4 next.toNat ++ le 1 (levelsOf x.func) ++ le 3 0 ++ le 4 (d.reg A.globalId) ++ le 4 0))

/-- SYS_GET_INFO. -/
def cmdSysGetInfo : Cmd where
  op := 0x0002
  caller := .a
  run d _ :=
    (d, .ok (le 2 d.fuses.chanEn ++ le 1 (nb d.fuses.extEn) ++ le 1 d.boot.dieFail
      ++ (List.range 7).flatMap (fun n => le 8 (Config.dieId n).toNat)
      ++ le 4 d.pav.bootSeq ++ le 8 d.uptimeNs ++ le 1 d.boot.slotBooted ++ le 3 0))

/-- Events that a Kiosk may receive (Table 6-23). -/
def eventsOf (func : Nat) : Nat := if func = 0 then 0xFFF else if func = 1 then 0x400 else 0x5

/-- SYS_SUBSCRIBE. -/
def cmdSysSubscribe : Cmd where
  op := 0x0003
  lvl := 2
  caller := .a
  layout := [fd 4]
  bad _ x := badIf [(0, decide (0x1000 ≤ x.a 0))]
  run d x :=
    let g := Nat.land (x.a 0) (eventsOf x.func)
    (d.onKiosk x.func fun k => { k with mask := g }, .ok (le 4 g))

/-- SYS_ECHO. -/
def cmdSysEcho : Cmd where
  op := 0x0004
  caller := .a
  tail := (0, 2032, 1)
  run d x := (d, .ok x.body)

/-- SYS_RESTART (Table 5-12). -/
def cmdSysRestart : Cmd where
  op := 0x0005
  run d _ := (d.onPav fun p => { p with ordered := true }, .ok [])

/-- HELLO. -/
def execHello (m : Msg) (s : State) : Host.Outcome State Fault Refusal := request cmdHello m s
/-- SYS_GET_INFO. -/
def execSysGetInfo (m : Msg) (s : State) : Host.Outcome State Fault Refusal := request cmdSysGetInfo m s
/-- SYS_SUBSCRIBE. -/
def execSysSubscribe (m : Msg) (s : State) : Host.Outcome State Fault Refusal := request cmdSysSubscribe m s
/-- SYS_ECHO. -/
def execSysEcho (m : Msg) (s : State) : Host.Outcome State Fault Refusal := request cmdSysEcho m s
/-- SYS_RESTART. -/
def execSysRestart (m : Msg) (s : State) : Host.Outcome State Fault Refusal := request cmdSysRestart m s

end Sys2Proof.Machine
end

