-- ==== Sys2Proof/Machine/Keys.lean ====
section
/-! DEFINITION. Line keys and their rolls, transport keys and page keys (R197 to R201, R309 to R312, R453).
Choices and readings: log entries 109 and 123. -/

namespace Sys2Proof.Machine

/-! ## Key rings -/

/-- DS_OFFSET of a mode in ns (Table 8-1). -/
def dsOffset (mode : Nat) : Nat := if mode = 0 then 160 else if mode = 1 then 120 else 96

/-- Who holds a key ring: an ONU's unicast key, or the broadcast key of a channel. -/
inductive Ring where
  | onu (o : Nat)
  | bcast (c : Nat)
  deriving DecidableEq, Repr

/-- The ring that ONU and CHANNEL fields name (R147). -/
def ringOf (onu ch : Nat) : Ring := if onu = 0xFFFF then .bcast ch else .onu onu

/-- The ring's keys. -/
def Dev.ring (d : Dev) (r : Ring) : Keys :=
  match r with
  | .onu o => (d.onu o).keys
  | .bcast c => (d.chan c).bcast
def Dev.onRing (d : Dev) (r : Ring) (g : Keys → Keys) : Dev :=
  match r with
  | .onu o => d.onOnu o fun x => { x with keys := g x.keys }
  | .bcast c => d.onChan c fun x => { x with bcast := g x.bcast }

/-- Channel that carries the ring's messages. -/
def Dev.ringChan (d : Dev) (r : Ring) : Nat :=
  match r with
  | .onu o => (d.onu o).channel
  | .bcast c => c

/-- ONU and CHANNEL fields of a ring. -/
def Dev.ringIds (d : Dev) (r : Ring) : Nat × Nat :=
  match r with
  | .onu o => (o, (d.onu o).channel)
  | .bcast c => (0xFFFF, c)

/-- Key under index 1 or 2. -/
def Keys.key (k : Keys) (i : Nat) : Option LineKey := if i = 1 then k.k1 else if i = 2 then k.k2 else none

/-- The index not in use. -/
def Keys.other (k : Keys) : Nat := if k.active = 1 then 2 else 1

/-- Store or zero the key under an index. -/
def Keys.put (k : Keys) (i : Nat) (v : Option LineKey) : Keys := if i = 1 then { k with k1 := v } else { k with k2 := v }

/-- The ring with its old or unfinished key zeroed and the roll ended. -/
def Keys.ended (k : Keys) : Keys :=
  { Keys.put k (Keys.other k) none with
    rolling := false, sent := 0, switchAt := none, switched := false, frag := none, await := none }

/-- Bytes of a line key of an ALG (R197). -/
def keyBytes (alg : Nat) : Nat := if alg = 1 then 32 else 16

/-! ## Rolls (R199 to R201) -/

/-- Step 2 of Table 8-9: send the key request. -/
def Dev.keyRequest (d : Dev) (r : Ring) : Dev :=
  let c := d.ringChan r
  let line := match r with
    | .onu o => some (d.onu o).lineId
    | .bcast _ => none
  let d := d.emit (.ploam c line "Key_Control" (le 1 (Keys.other (d.ring r)) ++ le 1 (d.chan c).alg))
  d.onRing r fun k => { k with sent := k.sent + 1, sentAt := d.uptimeNs }

/-- Step 4 of Table 8-9: the first frame that starts at least 2 ms after the load. -/
def Dev.chooseSwitch (d : Dev) (r : Ring) : Dev :=
  let at' := d.time.now + 2000000 - dsOffset (d.chan (d.ringChan r)).mode
  let fs := d.frameFrom at'
  let d := d.onRing r fun k => { k with switchAt := some fs, await := none }
  match r with
  | .onu o => if d.mirroring then d.sendRec (.roll o fs) else d
  | .bcast c => if d.mirroring then d.sendRec (.roll (0x10000 + c) fs) else d

/-- R228: a tag-failure count restarts when a new key is loaded into its index. -/
def Dev.clearTagFail (d : Dev) (r : Ring) (i : Nat) : Dev :=
  match r with
  | .onu o => d.onOnu o fun x => { x with acc := if i = 1 then { x.acc with tagFail1 := 0 } else { x.acc with tagFail2 := 0 } }
  | .bcast _ => d

/-- Step 3 and R453: a new key stands in the index not in use; Fs is chosen now, or after the mirror's acknowledgement. -/
def Dev.loadKey (d : Dev) (r : Ring) (v : LineKey) : Dev :=
  let i := Keys.other (d.ring r)
  let d := (d.onRing r fun k => { Keys.put k i (some v) with frag := none }).clearTagFail r i
  let who := match r with
    | .onu o => o
    | .bcast c => 0x10000 + c
  match d.red.pairKey with
  | some pk =>
    if d.mirroring then
      let n := d.mir.nextTx
      let d := d.sendRec (.key who i v.alg (keyWrap pk v.key))
      d.onRing r fun k => { k with await := some n }
    else d.chooseSwitch r
  | none => d.chooseSwitch r

/-- The first key of a ring: index 0b01, in use at once (R197). -/
def Dev.firstKey (d : Dev) (r : Ring) (v : LineKey) : Dev :=
  let d := d.onRing r fun k => { Keys.ended k with
    k1 := some v, k2 := none, active := 1, fromFrame := d.frame, fromNs := d.uptimeNs, retryAt := none }
  let d := d.clearTagFail r 1
  let who := match r with
    | .onu o => o
    | .bcast c => 0x10000 + c
  match d.red.pairKey with
  | some pk => if d.mirroring then d.sendRec (.key who 1 v.alg (keyWrap pk v.key)) else d
  | none => d

/-- Draw a broadcast key (R200). -/
def Dev.drawKey (d : Dev) (alg : Nat) : LineKey × Dev :=
  let (b, d) := d.drawBytes (keyBytes alg)
  ({ alg := alg, key := b }, d)

/-- The first broadcast key of a channel that leaves OFF (R197). -/
def Dev.firstBroadcast (d : Dev) (c : Nat) : Dev :=
  let (v, d) := d.drawKey (d.chan c).alg
  d.firstKey (.bcast c) v

/-- A roll starts (R199, R200). -/
def Dev.rollStart (d : Dev) (r : Ring) : Dev :=
  if (d.ring r).rolling then d
  else
    let d := d.onRing r fun k => { k with
      rolling := true, sent := 0, sentAt := d.uptimeNs, switchAt := none, switched := false, retryAt := none, frag := none, await := none }
    match r with
    | .onu _ => d.keyRequest r
    | .bcast c =>
      let (v, d) := d.drawKey (d.chan c).alg
      let d := d.keyRequest r
      d.loadKey r v

/-- The event of a roll's end (R200). -/
def Dev.rollDone (d : Dev) (r : Ring) (result : Nat) : Dev :=
  let (o, c) := d.ringIds r
  let wait := fun (m : Migr) => { m with notBefore := max m.notBefore d.nextCommit }
  let d := match r with
    | .onu o => if (d.onu o).migr.isSome then d.onOnu o fun x => { x with migr := x.migr.map wait } else d
    | .bcast _ => d
  d.evKeyRollDone o c result

/-- R201: a running roll ends at once with RESULT 2. -/
def Dev.rollCut (d : Dev) (r : Ring) : Dev :=
  if (d.ring r).rolling then (d.onRing r Keys.ended).rollDone r 2
  else d.onRing r fun k => { k with retryAt := none }

/-- R201: a roll without an answer fails; it starts again 10 s later. -/
def Dev.rollFail (d : Dev) (r : Ring) : Dev :=
  let (o, c) := d.ringIds r
  let d := d.onRing r fun k => { Keys.ended k with retryAt := some (d.uptimeNs + 10000000000) }
  (d.log 0x0402 (c / 128) (le 2 o ++ le 2 c)).rollDone r 1

/-- Table 8-9 step 4 at T0(16F): the switch. -/
def Dev.keySwitch (d : Dev) (r : Ring) : Dev :=
  let k := d.ring r
  if k.rolling && k.switchAt == some d.frame && !k.switched then
    d.onRing r fun k => { k with
      active := Keys.other k, fromFrame := d.frame, fromNs := d.uptimeNs, switched := true }
  else d

/-- Table 8-9 step 5: after frame Fs + 64 the old key goes and the roll is complete. -/
def Dev.oldKeyEnd (d : Dev) (r : Ring) : Dev :=
  let k := d.ring r
  match k.switchAt with
  | some fs =>
    if k.rolling && k.switched && decide (fs + 64 < d.frame) then
      (d.onRing r fun k => { Keys.ended k with rolls := k.rolls + 1 }).rollDone r 0
    else d
  | none => d

/-- R232, Table 8-9 step 5: the key under which a frame with key index `i` is accepted in a frame `f`. -/
def Keys.accept (k : Keys) (i f : Nat) : Option LineKey :=
  if i = k.active then Keys.key k i
  else if k.rolling && !k.switched then none
  else
    match k.switchAt with
    | some fs => if k.rolling && f ≤ fs + 64 then Keys.key k i else none
    | none => none

/-- A ring's roll can run: the ONU is OPERATING, the channel in SERVICE, and PD05 + n is on (R147, R201, R487). -/
def Dev.rollable (d : Dev) (r : Ring) : Bool :=
  match r with
  | .onu o => (d.onu o).state == .operating && d.domOn (5 + (d.onu o).channel / 128)
  | .bcast c => (d.chan c).state == .service && d.domOn (5 + c / 128)

/-- R25, R248: the firmware serves. -/
def Dev.fwServes (d : Dev) : Bool := d.boot.devReady && !d.pav.restarting && !d.pav.failed

/-- KEY_ROLL_START (R199): MAX_LIFE_S or the basis of 2^47 has been reached. -/
def execKeyRollStart (onu channel : Nat) (s : State) : Host.Outcome State Fault Refusal :=
  act (decide (onu < 65536) && decide (channel < 512)) (fun d =>
    let r := ringOf onu channel
    let k := d.ring r
    let life := (d.chan (d.ringChan r)).maxLife
    let due := (life != 0 && decide (k.fromNs + life * 1000000000 ≤ d.uptimeNs)) || decide (2 ^ 47 ≤ d.frame - k.fromFrame)
    if d.fwServes && k.active != 0 && due && d.rollable r && k.retryAt.isNone then d.rollStart r else d) s

/-- KEY_REQUEST_REPEAT (R200, R201): 100 ms after the last request it is repeated, and after the third repeat the roll fails. -/
def execKeyRequestRepeat (onu channel : Nat) (s : State) : Host.Outcome State Fault Refusal :=
  act (decide (onu < 65536) && decide (channel < 512)) (fun d =>
    let r := ringOf onu channel
    let k := d.ring r
    if d.fwServes && onu != 0xFFFF && k.rolling && (Keys.key k (Keys.other k)).isNone && decide (k.sentAt + 100000000 ≤ d.uptimeNs) then
      if k.sent < 4 then d.keyRequest r else d.rollFail r
    else d) s

/-- KEY_ROLL_RETRY (R201). -/
def execKeyRollRetry (onu channel : Nat) (s : State) : Host.Outcome State Fault Refusal :=
  act (decide (onu < 65536) && decide (channel < 512)) (fun d =>
    let r := ringOf onu channel
    match (d.ring r).retryAt with
    | some t => if d.fwServes && decide (t ≤ d.uptimeNs) && d.rollable r then d.rollStart r else d
    | none => d) s

/-- OLD_KEY_EXPIRY (R200). -/
def execOldKeyExpiry (onu channel : Nat) (s : State) : Host.Outcome State Fault Refusal :=
  act (decide (onu < 65536) && decide (channel < 512)) (fun d => if d.fwServes then d.oldKeyEnd (ringOf onu channel) else d) s

/-! ## Key group (Table 6-14) -/

/-- Checks on the ring that ONU and CHANNEL name. -/
def ringBad (x : Call) : List Nat := badIf [(2, x.a 0 == 0xFFFF && decide (512 ≤ x.a 1))]
def ringAbsent (d : Dev) (x : Call) : Option Nat :=
  if x.a 0 != 0xFFFF && (d.onu (x.a 0)).state == .absent then some 0 else none
def ringDown (d : Dev) (x : Call) : Option Nat :=
  if d.chanUp (d.ringChan (ringOf (x.a 0) (x.a 1))) then none else some (if x.a 0 == 0xFFFF then 2 else 0)

/-- Table 6-5 code of an ONU state. -/
def OnuState.code : OnuState → Nat
  | .absent => 0 | .discovered => 1 | .ranging => 2 | .operating => 3 | .suspended => 4 | .quarantined => 5 | .migrating => 6

/-- Table 6-5 code of a channel state. -/
def ChState.code : ChState → Nat
  | .off => 0x10 | .towpath => 0x11 | .service => 0x12

/-- Codes 0 to 2 of Table 6-3. -/
def ChState.num (s : ChState) : Nat := ChState.code s - 0x10

/-- KEY_ROLL. -/
def cmdKeyRoll : Cmd where
  op := 0x0601
  layout := [fd 2, fd 2]
  mirrored := true
  bad _ x := ringBad x
  absent := ringAbsent
  unavail := ringDown
  state d x :=
    let r := ringOf (x.a 0) (x.a 1)
    if d.rollable r then none
    else match r with
      | .onu o => some (OnuState.code (d.onu o).state)
      | .bcast c => some (ChState.code (d.chan c).state)
  run d x := (d.rollStart (ringOf (x.a 0) (x.a 1)), .ok [])

/-- KEY_GET. -/
def cmdKeyGet : Cmd where
  op := 0x0602
  layout := [fd 2, fd 2]
  bad _ x := ringBad x
  absent := ringAbsent
  unavail := ringDown
  state d x :=
    match ringOf (x.a 0) (x.a 1) with
    | .onu o => if (d.onu o).keys.active = 0 then some (OnuState.code (d.onu o).state) else none
    | .bcast c => if (d.chan c).state = .off then some 0x10 else none
  run d x :=
    let k := d.ring (ringOf (x.a 0) (x.a 1))
    let alg := match Keys.key k k.active with
      | some v => v.alg
      | none => 0
    (d, .ok (le 1 k.active ++ le 1 alg ++ le 1 (nb k.rolling) ++ le 1 0 ++ le 4 k.rolls ++ le 8 (d.frame - k.fromFrame)))

/-- KEY_POLICY. -/
def cmdKeyPolicy : Cmd where
  op := 0x0603
  layout := [fd 2, fd 1, rs 1, fd 4]
  mirrored := true
  bad d x := badIf [(0, decide (512 ≤ x.a 0)), (2, decide (2 ≤ x.a 1) || (x.a 1 == 1 && (d.chan (x.a 0)).mode != 2))]
  unavail d x := if d.chanUp (x.a 0) then none else some 0
  run d x := (d.onChan (x.a 0) fun c => { c with alg := x.a 1, maxLife := x.a 2 }, .ok [])

/-- Table 5-8 INTERNAL: logged, with the entry's number in DETAIL. -/
def Dev.internal (d : Dev) : Dev × Reply :=
  let n := d.pav.logNext
  (d.log 0x0303 6 [], .err 0x0010 n)

/-- R310: the device's half of the exchange with private key `k`: transport key and public key. -/
def exchange (func k : Nat) (qh : Bytes) : Bytes × Bytes :=
  let qd := P384.encode (P384.mul 384 k (some (P384.gx, P384.gy)))
  let z := match P384.mul 384 k (some (beAt qh 1 48, beAt qh 49 48)) with
    | some (x, _) => be 48 x
    | none => be 48 0
  let label : Bytes := [0x45, 0x53, 0x44, 0x35, 0x31, 0x32, 0x30, 0x2D, 0x54, 0x4B]
  ((sha384 (z ++ label ++ le 1 func ++ qh ++ qd)).take 32, qd)

/-- KEY_EXCHANGE (R310, R312). -/
def cmdKeyExchange : Cmd where
  op := 0x0604
  caller := .a
  layout := [fd 97, rs 3]
  bad _ x := badIf [(0, leAt x.body 0 1 != 4 || !P384.onCurve (beAt x.body 1 48) (beAt x.body 49 48))]
  run d x :=
    if !d.trngOk then d.internal
    else
      let (r, d) := d.drawBytes 48
      let (tk, qd) := exchange x.func (ofBe r % (P384.n - 1) + 1) (slice x.body 0 97)
      (d.onFn x.func fun y => { y with tk := some tk }, .ok (qd ++ le 3 0))

/-- PAGE_KEY_UNWRAP (R312). -/
def cmdPageKeyUnwrap : Cmd where
  op := 0x0605
  caller := .a
  layout := [fd 1, fd 1, fd 2]
  tail := (24, 40, 16)
  bad _ x := badIf [(0, decide (8 ≤ x.a 0)), (1, decide (2 ≤ x.a 1)),
    (2, x.a 2 + 4 != x.body.length || (x.a 1 == 0 && x.a 2 != 24) || (x.a 1 == 1 && x.a 2 != 40))]
  unavail d _ := if d.domOn 20 then none else some 0
  special d x :=
    if !d.trngOk then none
    else if ((d.fn x.func).tk.bind fun tk => keyUnwrap tk (x.body.drop 4)).isNone then some (0x8004, 0) else none
  run d x :=
    if !d.trngOk then d.internal
    else
      match (d.fn x.func).tk.bind fun tk => keyUnwrap tk (x.body.drop 4) with
      | some key =>
        let (e, d) := d.drawBytes 4
        (d.slotSet x.func (x.a 0) { alg := x.a 1 + 1, epoch := ofBe e, key := key }, .ok [])
      | none => (d, .err 0x8004 0)

/-- KEY_ROLL. -/
def execKeyRoll (m : Msg) (s : State) : Host.Outcome State Fault Refusal := request cmdKeyRoll m s
/-- KEY_GET. -/
def execKeyGet (m : Msg) (s : State) : Host.Outcome State Fault Refusal := request cmdKeyGet m s
/-- KEY_POLICY. -/
def execKeyPolicy (m : Msg) (s : State) : Host.Outcome State Fault Refusal := request cmdKeyPolicy m s
/-- KEY_EXCHANGE. -/
def execKeyExchange (m : Msg) (s : State) : Host.Outcome State Fault Refusal := request cmdKeyExchange m s
/-- PAGE_KEY_UNWRAP. -/
def execPageKeyUnwrap (m : Msg) (s : State) : Host.Outcome State Fault Refusal := request cmdPageKeyUnwrap m s

end Sys2Proof.Machine
end

