-- ==== Sys2Proof/Machine/Registry.lean ====
section
/-! DEFINITION. The registry: entries, their moves and deletion, admission limits, and the ONU group of commands
(10_discovery_ranging.md R241 to R247, Table 6-11, R275).
Choices and readings: log entries 31, 90, 106, 107, 108, 110, 143 and 164. -/

namespace Sys2Proof.Machine

/-! ## Counting -/

/-- An entry holds an ONU, or is being created at the next T0. -/
def Onu.held' (o : Onu) : Bool := o.state != .absent || o.moveTo.isSome

/-- Registry entries that pass a test. -/
def Dev.onusWith (d : Dev) (p : Onu → Bool) : List Nat := (d.pon.onus.filter fun e => Onu.held' e.2 && p e.2).map Prod.fst

/-- R243, R263: entries that count against channel `c`: its own, and places reserved by migrations. -/
def Dev.chanOnus (d : Dev) (c : Nat) : Nat :=
  (d.onusWith fun o => o.channel == c || (match o.migr with | some m => m.target == c | none => false)).length

/-- Entries of tree `t`. -/
def Dev.treeOnus (d : Dev) (t : Nat) : List Nat := d.onusWith fun o => o.tree == t

/-- Entries of tree `t` with AUTH = 0. -/
def Dev.treeUnauth (d : Dev) (t : Nat) : Nat := (d.onusWith fun o => o.tree == t && !o.auth).length

/-- ONUs of a tenant (R301). -/
def Dev.useOnus (d : Dev) (t : Nat) : Nat := (d.onusWith fun o => o.auth && o.tenant == t).length

/-- Tenant of a flow (R302). -/
def Dev.flowTenant (d : Dev) (fl : Flow) : Nat := (d.onu fl.onu).tenant

/-- Flows of a tenant. -/
def Dev.useFlows (d : Dev) (t : Nat) : Nat := countP (fun e => d.flowTenant e.2 == t) d.pon.flows

/-- R272: an allocation is a default one when its Alloc-ID is below 512. -/
def isDefault (key : Nat) : Bool := decide (key % 16384 < 512)

/-- Allocations of a tenant; a default allocation counts against no quota. -/
def Dev.useAllocs (d : Dev) (t : Nat) : Nat :=
  countP (fun e => !isDefault e.1 && (d.onu e.2.onu).tenant == t) d.pon.allocs

/-- Flows and allocations of an ONU. -/
def Dev.onuFlows (d : Dev) (o : Nat) : Nat := countP (fun e => e.2.onu == o) d.pon.flows
def Dev.onuAllocs (d : Dev) (o : Nat) : Nat := countP (fun e => e.2.onu == o) d.pon.allocs

/-- Lowest number that a list does not hold. -/
def lowest (taken : List Nat) : Nat → Nat → Nat
  | 0, i => i
  | k + 1, i => if taken.contains i then lowest taken k (i + 1) else i

/-! ## Admission limits (R275) -/

/-- Admission limit in kbit/s of an upstream rate (Table 11-2). -/
def admitLimit (usRate : Nat) : Nat := nth 0 [7449000, 8405000, 16810000, 33620000, 67240000] usRate

/-- Allocations held against channel `c`: those of its ONUs, and of ONUs that migrate to it (R294). -/
def Dev.chanAllocs (d : Dev) (c : Nat) : List (Nat × Alloc) :=
  d.pon.allocs.filter fun e =>
    let o := d.onu e.2.onu
    o.channel == c || (match o.migr with | some m => m.target == c | none => false)

/-- R275: both limits hold on channel `c` for a list of allocations. -/
def Dev.admits (d : Dev) (c : Nat) (l : List (Nat × Alloc)) : Bool :=
  decide (l.length ≤ 1024) && decide (l.foldl (fun a e => a + e.2.fixed + e.2.assured) 0 ≤ admitLimit (d.chan c).usRate)

/-! ## Moves (R244, Table 10-3) -/

/-- The entry as the mirror link carries it (Table 18-7). -/
def Onu.fields (o : Onu) : List Nat :=
  [OnuState.code o.state, o.serial, o.tree, o.channel, o.lineId, nb o.auth, o.tenant, ofBe o.regId, o.caps, o.eqd, nb o.held,
    o.ident, o.tuneDs, o.tuneUs, o.tuneMs, o.tuneSeq] ++
  (match o.migr with | some m => [m.old, m.target, nb m.started, m.fs] | none => [])

/-- Mirror an entry while this device is ACTIVE (R451). -/
def Dev.mirrorEntry (d : Dev) (o : Nat) : Dev := if d.mirroring then d.sendRec (.entry o (Onu.fields (d.onu o))) else d

/-- Remove the windows that were placed for an ONU (kinds 1 and 2 of `Win`). -/
def Dev.dropWins (d : Dev) (o : Nat) : Dev :=
  let keep := fun (w : Win) => !((w.kind == 1 || w.kind == 2) && w.who == o)
  d.onPon fun p => { p with recv := Tbl.mapPut {} p.recv fun _ r => { r with wins := r.wins.filter keep } }

/-- R274, R276: the default allocation of an entry, as it starts at its commit T0. -/
def Dev.defaultAlloc (d : Dev) (o : Nat) : Dev :=
  let e := d.onu o
  let a : Alloc := { onu := o, last := d.time.tick, born := d.time.edges }
  d.onPon fun p => { p with allocs := Tbl.set p.allocs (allocKey e.tree e.lineId) a }

/-- Send a PLOAM message to an ONU on its channel. -/
def Dev.ploamTo (d : Dev) (o : Nat) (name : String) (content : Bytes) : Dev :=
  d.emit (.ploam (d.onu o).channel (some (d.onu o).lineId) name content)

/-- Disable_Serial_Number to an entry's SERIAL: 0xFF disables, 0x00 enables. -/
def Dev.disableSn (d : Dev) (o : Nat) (disable : Bool) : Dev :=
  d.emit (.ploam (d.onu o).channel none "Disable_Serial_Number" (le 1 (if disable then 0xFF else 0) ++ be 8 (d.onu o).serial))

/-- Assign_ONU-ID with the entry's LINE_ID. -/
def Dev.assignId (d : Dev) (o : Nat) : Dev :=
  d.emit (.ploam (d.onu o).channel none "Assign_ONU-ID" (le 2 (d.onu o).lineId ++ be 8 (d.onu o).serial))

/-- R263: the end of a migration, with its event. -/
def Dev.migrEnd (d : Dev) (o result : Nat) : Dev :=
  let e := d.onu o
  match e.migr with
  | some _ => (d.onOnu o fun x => { x with migr := none }).evMigrationDone o e.channel result e.tenant
  | none => d

/-- R263, R294: the arrival or return that ends a migration commits: CHANNEL, EQD, the allocations' OUT, and its event. -/
def Dev.arrive (d : Dev) (o : Nat) : Dev :=
  let e := d.onu o
  let ch := e.moveCh.getD e.channel
  let target := match e.migr with
    | some m => m.target
    | none => e.channel
  let d := d.onOnu o fun x => { x with
    channel := ch, moveCh := none, eqd := x.eqdNext.getD x.eqd, eqdNext := none, blockN := 0, blockSum := 0 }
  let d := d.onPon fun p => { p with allocs := p.allocs.map fun a => if a.2.onu == o then (a.1, { a.2 with out := 0, granted := [] }) else a }
  d.migrEnd o (if ch = target then 0 else 2)

/-- Commit a move of an entry that exists or is created, with ONU_STATE after it. -/
def Dev.moveOnu (d : Dev) (o : Nat) (new : OnuState) (cause : Nat) : Dev :=
  let e := d.onu o
  let old := e.state
  let d := if old = .operating && new ≠ .operating then d.rollCut (.onu o) else d
  let d := d.onOnu o fun x => { x with state := new, moveTo := none }
  let d := if old = .absent then ((d.defaultAlloc o).createOwners o).onOnu o fun x => { x with acc := {} } else d
  let d := if old = .ranging || old = .migrating then d.dropWins o else d
  let d :=
    match new with
    | .discovered =>
      let d := d.onOnu o fun x => { x with
        since := d.uptimeNs, step := 0, tries := 0, missRun := 0, lockRun := 0, blockN := 0, blockSum := 0, eqdNext := none }
      let d := if old = OnuState.absent then d.assignId o else d
      if old = OnuState.quarantined then d.disableSn o false else d
    | .ranging =>
      let d := d.onOnu o fun x => { x with
        step := 1, tries := 0, stepBy := d.frame, channel := x.moveCh.getD x.channel, moveCh := none }
      if cause = 1 then d.assignId o else d
    | .quarantined => d.disableSn o true
    | .operating =>
      let d := if old = OnuState.migrating then d.arrive o else d
      let d := d.onOnu o fun x => { x with step := 0, profile1 := x.profile1 || old == OnuState.suspended || old == OnuState.migrating }
      if old = OnuState.ranging then d.onTree e.tree fun t => if e.ident = t.ident then { t with identOk := true } else t else d
    | .suspended =>
      let d := d.onOnu o fun x => { x with step := 0 }
      if old = OnuState.ranging then d.onTree e.tree fun t => if e.ident = t.ident then { t with identOk := true } else t else d
    | _ => d
  let d := d.evOnuState o (OnuState.code old) (OnuState.code new) cause e.tenant
  let d := if old = .absent then d.evOnuDiscovered o e.tree e.caps e.serial else d
  let d := if new = .discovered && e.migr.isSome then d.migrEnd o 1 else d
  d.mirrorEntry o

/-- A move that results from a burst: it commits at the next T0 and outranks a timer's (R266). -/
def Dev.orderMove (d : Dev) (o : Nat) (new : OnuState) (cause : Nat) : Dev := d.onOnu o fun x => { x with moveTo := some (new, cause) }

/-- A move on a timer's expiry: it commits at the next T0 unless a burst has ordered one (R266). -/
def Dev.orderTimer (d : Dev) (o : Nat) (new : OnuState) (cause : Nat) : Dev :=
  d.onOnu o fun x => if x.moveTo.isSome then x else { x with moveTo := some (new, cause) }

/-- The states from which a loss takes an entry to DISCOVERED (Table 10-3). -/
def OnuState.losable : OnuState → Bool
  | .ranging | .operating | .suspended | .migrating => true
  | _ => false

/-! ## Rogue isolation (R523 to R525) -/

/-- R524: the end of an isolation on a Dike: 1 FOUND with its culprit, 2 UNKNOWN, 3 CLEARED, 4 abandoned. -/
def Dev.rogueEnd (d : Dev) (n result : Nat) (culprit : Option Nat) : Dev :=
  match (d.die n).rogue with
  | some r =>
    let d := d.each (r.off.filter fun o => culprit != some o) fun o d => (d.disableSn o false).onOnu o fun x => { x with rogueOff := false }
    let d := match culprit with
      | some o => ((d.orderMove o .discovered 6).evLineFault r.channel o r.kind)
      | none => d
    let tree := (d.chan r.channel).tree
    let lock := result == 2 && bit (d.reg A.pavCfg) 2 && (match tree.bind d.tree? with | some t => decide (2 ≤ t.chans.length) | none => false)
    let d := if lock then d.onChan r.channel fun c => { c with lockNext := true } else d
    let d := d.setReg (A.rogueStatus n) (r.channel % 128 + 256 * result + 2048 * nb lock + 65536 * (culprit.getD 0xFFFF))
    let d := d.pavCauseSet 8
    let d := d.log 0x0403 n (le 2 r.channel ++ le 1 r.kind ++ le 1 result ++ le 2 (culprit.getD 0xFFFF))
    d.onDie n fun x => { x with rogue := none }
  | none => d

/-- ONU_DEREGISTER removes a candidate (R525); a culprit's serial number is enabled first (R524). -/
def Dev.rogueForget (d : Dev) (o : Nat) : Dev :=
  let d := if (d.onu o).rogueOff then d.disableSn o false else d
  let drop := fun (r : Isolation) => { r with cands := r.cands.filter (· != o), off := r.off.filter (· != o) }
  d.each (List.range 4) fun n d => d.onDie n fun x => { x with rogue := x.rogue.map drop }

/-- ABSENT by ONU_DEREGISTER: flows, allocations, keys and entry go (R144, R265). -/
def Dev.deleteOnu (d : Dev) (o : Nat) : Dev :=
  let e := d.onu o
  let d := d.rogueForget o
  let d := d.ploamTo o "Deactivate_ONU-ID" []
  let d := match e.migr with
    | some m =>
      let other := if e.channel = m.old then m.target else m.old
      (d.emit (.ploam other (some e.lineId) "Deactivate_ONU-ID" [])).migrEnd o 1
    | none => d
  let d := if e.state = .operating then d.rollCut (.onu o) else d
  let d := d.dropFlows fun _ fl => fl.onu == o
  let d := d.dropWins o
  let d := d.onPon fun p => { p with
    allocs := p.allocs.filter fun a => a.2.onu != o
    omci := p.omci.filter fun m => m.onu != o
    onus := Tbl.erase p.onus o }
  let d := d.onData fun x => { x with nodes := Tbl.erase x.nodes (nodeKey 1 o) }
  let d := d.deleteOwners o
  let d := d.evOnuState o (OnuState.code e.state) 0 0 e.tenant
  d.mirrorEntry o

/-- R242, R247: create an entry for a serial number; it enters DISCOVERED at the next T0. -/
def Dev.createOnu (d : Dev) (t c serial : Nat) : Dev :=
  let ids := d.onusWith fun _ => true
  let id := lowest ids (ids.length + 1) 0
  let lines := (d.treeOnus t).map fun o => (d.onu o).lineId
  if 65536 ≤ id then d
  else d.onOnu id fun _ =>
    { serial := serial, tree := t, channel := c, lineId := lowest lines (lines.length + 1) 0
      caps := if (d.chan c).mode = 2 then 1 else 0, moveTo := some (.discovered, 1) }

/-! ## ONU lifecycle group (Table 6-11) -/

/-- The entry exists and the caller sees it. -/
def onuAbsent (d : Dev) (x : Call) : Option Nat :=
  let e := d.onu (x.a 0)
  if e.state == .absent || !d.sees x.func e.tenant then some 0 else none

/-- R133, R487: the ONU's channel is up. -/
def onuDown (d : Dev) (x : Call) : Option Nat := if d.chanUp (d.onu (x.a 0)).channel then none else some 0

/-- The tree a request names exists. -/
def treeAbsent (d : Dev) (x : Call) : Option Nat := if (d.tree? (x.a 0)).isSome then none else some 0

/-- Channels of a tree. -/
def Dev.treeChans (d : Dev) (t : Nat) : List Nat :=
  match d.tree? t with
  | some tr => tr.chans
  | none => []

/-- R487: the channels of the tree are up. -/
def treeDown (d : Dev) (x : Call) : Option Nat := if (d.treeChans (x.a 0)).all d.chanUp then none else some 0

/-- ONU_LIST. -/
def cmdOnuList : Cmd where
  op := 0x0301
  layout := [fd 2, fd 2, fd 1, rs 3]
  bad _ x := badIf [(0, decide (512 ≤ x.a 0)), (4, decide (128 ≤ x.a 2))]
  absent := treeAbsent
  unavail := treeDown
  run d x :=
    let all := (d.pon.onus.filter fun e =>
      e.2.state != .absent && e.2.tree == x.a 0 && decide (x.a 1 ≤ e.1) && bit (x.a 2) (OnuState.code e.2.state))
    let now := all.take 126
    let next := match (all.drop 126).head? with
      | some e => e.1
      | none => 0xFFFF
    (d, .ok (le 2 now.length ++ le 2 next ++ now.flatMap fun e =>
      le 2 e.1 ++ le 1 (OnuState.code e.2.state) ++ le 1 e.2.caps ++ be 8 e.2.serial ++ le 2 e.2.channel ++ le 2 0))

/-- ONU_AUTHORISE (R144, R301, R302). -/
def cmdOnuAuthorise : Cmd where
  op := 0x0302
  layout := [fd 2, fd 1, rs 1, fd 36]
  mirrored := true
  commit := true
  bad d x :=
    let e := d.onu (x.a 0)
    badIf [(2, decide (63 ≤ x.a 1) ||
      ((e.state == .discovered || e.state == .quarantined) && e.auth && e.tenant != x.a 1))]
  absent := onuAbsent
  unavail := onuDown
  state d x :=
    let e := d.onu (x.a 0)
    if e.state = .discovered || e.state = .quarantined then none else some (OnuState.code e.state)
  full d x :=
    let e := d.onu (x.a 0)
    if !e.auth && x.a 1 != 0 && decide ((d.tenant (x.a 1)).onus ≤ d.useOnus (x.a 1)) then some 4 else none
  run d x :=
    let o := x.a 0
    let e := d.onu o
    let ident := match d.tree? e.tree with
      | some t => t.ident
      | none => 0
    let d := d.onOnu o fun y => { y with
      auth := true, tenant := x.a 1, regId := slice x.body 4 36, ident := if e.auth then y.ident else ident }
    let d := if e.state = .quarantined then d.moveOnu o .discovered 0
      else if !e.auth then d.moveOnu o .ranging 0
      else d.mirrorEntry o
    (d, .ok [])

/-- ONU_SUSPEND (R244). -/
def cmdOnuSuspend : Cmd where
  op := 0x0303
  caller := .t
  layout := [fd 2, fd 1, rs 1]
  mirrored := true
  commit := true
  bad _ x := badIf [(2, decide (2 ≤ x.a 1))]
  absent := onuAbsent
  unavail := onuDown
  state d x :=
    let st := (d.onu (x.a 0)).state
    if (x.a 1 = 0 && st = .operating) || (x.a 1 = 1 && st = .suspended) then none else some (OnuState.code st)
  run d x :=
    let o := x.a 0
    let d := d.onOnu o fun y => { y with held := x.a 1 == 0 }
    (d.moveOnu o (if x.a 1 = 0 then .suspended else .operating) 0, .ok [])

/-- ONU_DEREGISTER. -/
def cmdOnuDeregister : Cmd where
  op := 0x0304
  layout := [fd 2, rs 2]
  mirrored := true
  commit := true
  absent := onuAbsent
  unavail := onuDown
  run d x := (d.deleteOnu (x.a 0), .ok [])

/-- ONU_GET. -/
def cmdOnuGet : Cmd where
  op := 0x0305
  caller := .r
  layout := [fd 2, rs 2]
  absent := onuAbsent
  unavail := onuDown
  run d x :=
    let e := d.onu (x.a 0)
    (d, .ok (le 1 (OnuState.code e.state) ++ le 1 e.tenant ++ le 2 e.tree ++ le 2 e.channel ++ le 1 e.caps ++ le 1 0
      ++ be 8 e.serial ++ le 4 e.eqd ++ le 2 (d.onuFlows (x.a 0)) ++ le 2 (d.onuAllocs (x.a 0))))

/-- ONU_MIGRATE (R144, R263, R275). -/
def cmdOnuMigrate : Cmd where
  op := 0x0306
  lvl := 3
  layout := [fd 2, fd 2]
  mirrored := true
  bad d x :=
    let e := d.onu (x.a 0)
    badIf [(2, decide (512 ≤ x.a 1) ||
      (e.state != .absent && (x.a 1 == e.channel || !(d.treeChans e.tree).contains (x.a 1))))]
  absent := onuAbsent
  unavail d x := (onuDown d x).or (if (d.chan (x.a 1)).state = .service then none else some 2)
  state d x :=
    let st := (d.onu (x.a 0)).state
    if st = .operating then none else some (OnuState.code st)
  full d x :=
    if 256 ≤ d.chanOnus (x.a 1) then some 1
    else if d.admits (x.a 1) (d.chanAllocs (x.a 1) ++ d.pon.allocs.filter fun e => e.2.onu == x.a 0) then none
    else some 7
  special d x :=
    let e := d.onu (x.a 0)
    let c := d.chan (x.a 1)
    if !bit e.caps 2 || !bit e.tuneDs c.dsWl || !bit e.tuneUs c.usWl then some (0x8003, 0) else none
  run d x :=
    (d.onOnu (x.a 0) fun y => { y with migr := some { old := y.channel, target := x.a 1, notBefore := d.nextCommit } }, .ok [])

/-- R247: the discovery bucket of a tree after the time that has passed. -/
def Tree.fill (t : Tree) (now : Nat) : Tree :=
  { t with tokens := min (max t.rate 1 * 1000000000) (t.tokens + (now - t.filledAt) * t.rate), filledAt := now }

/-- ONU_DISC_LIMIT. -/
def cmdOnuDiscLimit : Cmd where
  op := 0x0307
  layout := [fd 2, fd 2]
  mirrored := true
  bad _ x := badIf [(0, decide (512 ≤ x.a 0)), (2, decide (1000 < x.a 1))]
  absent := treeAbsent
  unavail := treeDown
  run d x :=
    (d.onTree (x.a 0) fun t =>
      let t := Tree.fill t d.uptimeNs
      { t with rate := x.a 1, tokens := min t.tokens (max (x.a 1) 1 * 1000000000) }, .ok [])

/-- OMCI_SEND. -/
def cmdOmciSend : Cmd where
  op := 0x0308
  caller := .t
  layout := [fd 2, fd 2]
  tail := (48, 1980, 1)
  bad _ x := badIf [(2, x.a 1 + 4 != x.body.length)]
  absent := onuAbsent
  unavail := onuDown
  state d x :=
    let st := (d.onu (x.a 0)).state
    if st = .operating then none else some (OnuState.code st)
  full d x := if 8 ≤ (d.onu (x.a 0)).omci then some 0x10 else none
  run d x :=
    let d := if d.shadow then d.bump A.redDsDiscard
      else (d.emit (.omci (x.a 0) (x.body.drop 4))).onOnu (x.a 0) fun y => { y with omci := y.omci + 1 }
    (d, .ok [])

/-- A held OMCI message (R144). -/
def Dev.omciOf (d : Dev) (h : Nat) : Option Omci :=
  d.pon.omci.find? fun m => m.handle == h && decide (d.uptimeNs < m.at' + 1000000000)

/-- OMCI_RECV. -/
def cmdOmciRecv : Cmd where
  op := 0x0309
  caller := .t
  layout := [fd 4]
  absent d x :=
    match d.omciOf (x.a 0) with
    | some m => if d.sees x.func (d.onu m.onu).tenant then none else some 0
    | none => some 0
  run d x :=
    match d.omciOf (x.a 0) with
    | some m => (d, .ok (le 2 m.onu ++ le 2 m.msg.length ++ m.msg))
    | none => (d, .err 0x0008 0)

/-- R144, R156: an OMCI message arrives from an ONU; it answers one that was sent. -/
def Dev.omciArrive (d : Dev) (o : Nat) (msg : Bytes) : Dev :=
  let h := d.pon.omciNext
  let d := d.onPon fun p => { p with
    omci := p.omci ++ [{ handle := h, onu := o, msg := msg, at' := d.uptimeNs }], omciNext := (h + 1) % 2 ^ 32 }
  let d := d.onOnu o fun y => { y with omci := y.omci - 1 }
  d.event 0xE003 2 (d.onu o).tenant (le 2 o ++ le 2 msg.length ++ le 4 h ++ msg.take 232)

/-- OMCI_HANDLE_EXPIRY: handles whose second has passed become invalid. -/
def execOmciHandleExpiry (handle : Nat) (s : State) : Host.Outcome State Fault Refusal :=
  act (decide (handle < 2 ^ 32)) (fun d =>
    d.onPon fun p => { p with omci := p.omci.filter fun m => !(m.handle == handle && decide (m.at' + 1000000000 ≤ d.uptimeNs)) }) s

/-- ONU_LIST. -/
def execOnuList (m : Msg) (s : State) : Host.Outcome State Fault Refusal := request cmdOnuList m s
/-- ONU_AUTHORISE. -/
def execOnuAuthorise (m : Msg) (s : State) : Host.Outcome State Fault Refusal := request cmdOnuAuthorise m s
/-- ONU_SUSPEND. -/
def execOnuSuspend (m : Msg) (s : State) : Host.Outcome State Fault Refusal := request cmdOnuSuspend m s
/-- ONU_DEREGISTER. -/
def execOnuDeregister (m : Msg) (s : State) : Host.Outcome State Fault Refusal := request cmdOnuDeregister m s
/-- ONU_GET. -/
def execOnuGet (m : Msg) (s : State) : Host.Outcome State Fault Refusal := request cmdOnuGet m s
/-- ONU_MIGRATE. -/
def execOnuMigrate (m : Msg) (s : State) : Host.Outcome State Fault Refusal := request cmdOnuMigrate m s
/-- ONU_DISC_LIMIT. -/
def execOnuDiscLimit (m : Msg) (s : State) : Host.Outcome State Fault Refusal := request cmdOnuDiscLimit m s
/-- OMCI_SEND. -/
def execOmciSend (m : Msg) (s : State) : Host.Outcome State Fault Refusal := request cmdOmciSend m s
/-- OMCI_RECV. -/
def execOmciRecv (m : Msg) (s : State) : Host.Outcome State Fault Refusal := request cmdOmciRecv m s

end Sys2Proof.Machine
end

