-- ==== Sys2Proof/Machine/Chans.lean ====
section
/-! DEFINITION. PON channels and trees, the Burst Control Link and the optical engines (08_pon_channels.md, Table 6-10).
Choices and readings: log entries 29, 91, 106, 118 and 146. -/

namespace Sys2Proof.Machine

/-! ## Burst Control Link (R207 to R210) -/

/-- BCL_ENGe_SKEW of an engine, signed, clamped to ±500 (Table 8-13). -/
def Dev.bclSkew (d : Dev) (e : Nat) : Int :=
  let v := signed 16 (d.live' (A.bclSkew e))
  if v > 500 then 500 else if v < -500 then -500 else v

/-- R208: a command word for channel `c` that executes `at10` units of 100 ps after the T0 of tick `k`, in command frame k − 1. -/
def Dev.bclWord (d : Dev) (c op at10 arg k : Nat) : W32 :=
  let len := tickClock k - tickClock (k - 1)
  let time : Int := ((len * 10 + at10 : Nat) : Int) - 160 + d.bclSkew (c / 16)
  w32 (op * 2 ^ 28 + c % 16 * 2 ^ 24 + field 18 time * 64 + arg % 64)

/-- Send a command to the engine of channel `c`: it executes `at10` after the T0 of tick `k`. -/
def Dev.bclAt (d : Dev) (c op at10 arg k : Nat) : Dev := d.emit (.bcl (c / 16) (k - 1) (d.bclWord c op at10 arg k))

/-- Send a command in the next BCL frame. -/
def Dev.bclNext (d : Dev) (c op arg : Nat) : Dev := d.bclAt c op 0 arg (d.time.nextTick + 1)

/-- R182: TUNE_DONE has come for both identifiers. -/
def Chan.tuned (c : Chan) : Bool := c.dsDone == some c.dsWl && c.usDone == some c.usWl

/-- The channel serves now: SERVICE and not held as in TOWPATH (R487). -/
def Dev.serves (d : Dev) (c : Nat) : Bool := (d.chan c).state == .service && !(d.chan c).asTowpath

/-! ## Reach (R250) -/

/-- D_MIN and D_MAX of RNG_CHi_REACH in metres, clamped in the order of R250. -/
def clampReach (v : Nat) : Nat × Nat :=
  let lo := fld v 0 10 * 100
  let hi := min (fld v 16 10 * 100) 60000
  let lo := min lo hi
  (max lo (hi - 40000), hi)

/-- Fix the reach of a tree as its first channel leaves OFF. -/
def Dev.fixReach (d : Dev) (t : Nat) : Dev :=
  let cs := d.treeChans t
  if cs.all fun c => (d.chan c).state == .off then
    let r := clampReach (d.reg (A.rngReach (cs.headD 0)))
    d.each cs fun c d => d.onRecv c fun x => { x with reach := some r }
  else d

/-- The reach is free again once every channel of the tree is OFF. -/
def Dev.freeReach (d : Dev) (t : Nat) : Dev :=
  let cs := d.treeChans t
  if cs.all fun c => (d.chan c).state == .off then d.each cs fun c d => d.onRecv c fun x => { x with reach := none } else d

/-! ## Channel transitions (R181, Table 8-2) -/

/-- R201: the rolls of a channel that leaves SERVICE end at once. -/
def Dev.cutRolls (d : Dev) (c : Nat) : Dev :=
  let d := d.rollCut (.bcast c)
  d.each (d.onusWith fun o => o.channel == c && o.keys.rolling) fun o d => d.rollCut (.onu o)

/-- R265: migrations towards a channel that leaves SERVICE before Fs end with RESULT 1; the ONU stays OPERATING on its old channel. -/
def Dev.migrTargetGone (d : Dev) (c : Nat) : Dev :=
  let l := d.onusWith fun o => match o.migr with
    | some m => m.target == c && (!m.started || decide (d.frame < m.fs))
    | none => false
  d.each l fun o d =>
    let e := d.onu o
    let d := if e.state = .migrating then
        (d.ploamTo o "EXT_TUNE" (le 1 (d.chan e.channel).dsWl ++ le 1 (d.chan e.channel).usWl)).onOnu o fun x => { x with state := .operating }
      else d
    let d := if e.state = .migrating then d.evOnuState o 6 3 9 e.tenant else d
    (d.migrEnd o 1).mirrorEntry o

/-- A channel that enters electrical idle or drives its lane (R441). -/
def Dev.setMute (d : Dev) (c : Nat) (m : Bool) : Dev :=
  if (d.chan c).muted = m then d else (d.onChan c fun x => { x with muted := m }).emit (.mute c m)

/-- The transition of channel `c` at the frame boundary that has just been reached. -/
def Dev.chanGo (d : Dev) (c : Nat) (new : ChState) : Dev :=
  let ch := d.chan c
  let old := ch.state
  if old = new then d
  else
    let d := match ch.tree with
      | some t => if old = ChState.off then d.fixReach t else d
      | none => d
    let d := if old = ChState.off then
        let d := (d.bclAt c 2 0 1 d.time.tick).onChan c fun x => { x with laser := true }
        let d := (d.setReg (A.ovrCnt c) 0).onChan c fun x => { x with ovrRun := 0, ovrSince := 0 }
        let d := d.firstBroadcast c
        if d.shadow then d.setMute c true else d.setMute c false
      else d
    let d := if old = ChState.service then d.cutRolls c else d
    let d := match (d.die (c / 128)).rogue with
      | some r => if old = ChState.service && r.channel = c then d.rogueEnd (c / 128) 4 none else d
      | none => d
    let d := if new = ChState.service && (d.chan c).locked then
        (d.setBit (A.rogueStatus (c / 128)) 11 false).onChan c fun x => { x with locked := false }
      else d
    let d := d.onChan c fun x => { x with state := new, asTowpath := false, next := {}, tpHits := 0 }
    let d := if old = ChState.service then
        let d := d.setBit (A.usStatus c) 4 false
        (d.migrTargetGone c).onRecv c fun r => { r with wins := [], wants := [], heard := [], lossRun := 0, acks := [], noAck := [] }
      else d
    if new = .off then
      let d := (d.bclAt c 2 (10 * dsOffset ch.mode) 0 d.time.tick).onChan c fun x => { x with laser := false, bcast := {}, map := {} }
      let d := d.setMute c true
      let lost := d.onusWith fun o => o.channel == c && OnuState.losable o.state &&
        (match o.migr with | some m => !m.started || decide (d.frame < m.fs) | none => true)
      let d := d.each lost fun o d => d.moveOnu o .discovered 7
      match ch.tree with
      | some t => d.freeReach t
      | none => d
    else d

/-! ## Channels and trees (Table 6-10) -/

/-- The channel is up (R133, R487). -/
def chanDown (d : Dev) (x : Call) : Option Nat := if d.chanUp (x.a 0) then none else some 0

/-- US_RATE values that a mode admits (Table 6-3). -/
def rateOk (mode rate : Nat) : Bool :=
  if mode = 0 then rate == 0 else if mode = 1 then decide (1 ≤ rate) && decide (rate ≤ 3) else rate == 4

/-- The other channels of a channel's tree. -/
def Dev.mates (d : Dev) (c : Nat) : List Nat :=
  match (d.chan c).tree with
  | some t => (d.treeChans t).filter (· != c)
  | none => []

/-- CHAN_CONFIG (R143, R178, R180, R240, R268, R309). -/
def cmdChanConfig : Cmd where
  op := 0x0201
  layout := [fd 2, fd 1, fd 1, fd 1, fd 1, rs 2, fd 4]
  mirrored := true
  bad d x :=
    let mode := x.a 1
    let ms := d.mates (x.a 0)
    badIf [(0, decide (512 ≤ x.a 0)),
      (2, decide (3 ≤ mode) || decide (x.lvl ≤ mode) || (mode == 2 && !d.fuses.extEn) || ms.any fun c => (d.chan c).mode != mode),
      (3, !rateOk mode (x.a 2) || ms.any fun c => (d.chan c).usRate != x.a 2),
      (4, decide (16 ≤ x.a 3) || ms.any fun c => (d.chan c).dsWl == x.a 3),
      (5, decide (16 ≤ x.a 4) || ms.any fun c => (d.chan c).usWl == x.a 4)]
  unavail := chanDown
  state d x := if (d.chan (x.a 0)).state = .off then none else some (ChState.code (d.chan (x.a 0)).state)
  run d x :=
    let c := x.a 0
    let old := d.chan c
    let d := d.onChan c fun y => { y with
      mode := x.a 1, usRate := x.a 2, dsWl := x.a 3, usWl := x.a 4, ponId := x.a 5, maxLife := 86400
      alg := if x.a 1 = 2 then y.alg else 0 }
    let d := d.writeEdge (A.usCfg c) (d.reg (A.usCfg c) / 256 * 256 + (if x.a 1 = 2 then 8 else 4))
    let d := d.writeEdge (A.rngCfg c) (regReset (A.rngCfg c)).toNat
    let d := d.setReg (A.rngReach c) (regReset (A.rngReach c)).toNat
    let d := d.writeEdge (A.rngParam c) (regReset (A.rngParam c)).toNat
    let d := if old.dsWl = x.a 3 then d else d.bclNext c 3 (x.a 3)
    let d := if old.usWl = x.a 4 then d else d.bclNext c 4 (x.a 4)
    (d, .ok [])

/-- STATE codes 0 to 2. -/
def chStateOf (n : Nat) : ChState := if n = 0 then .off else if n = 1 then .towpath else .service

/-- CHAN_SET_STATE (R181, R182): ordered for a frame boundary, after TUNED. -/
def cmdChanSetState : Cmd where
  op := 0x0202
  layout := [fd 2, fd 1, rs 1]
  mirrored := true
  bad _ x := badIf [(0, decide (512 ≤ x.a 0)), (2, decide (3 ≤ x.a 1))]
  unavail := chanDown
  state d x := if x.a 1 = 2 && (d.chan (x.a 0)).tree.isNone then some 0x14 else none
  run d x :=
    if (d.chan (x.a 0)).state = chStateOf (x.a 1) then (d, .ok [])
    else (d.onPon fun p => { p with commits := p.commits ++ [{ x.req d.time.now with from' := d.nextCommit }] }, .later)
  atEdge := some fun d x => (d.chanGo (x.a 0) (chStateOf (x.a 1)), .ok [])

/-- A waiting CHAN_SET_STATE still waits for TUNED (R182). -/
def Dev.awaitsTune (d : Dev) (r : Req) : Bool :=
  r.op == 0x0202 && (d.chan (nth 0 r.args 0)).state == .off && nth 0 r.args 1 != 0 && !Chan.tuned (d.chan (nth 0 r.args 0))

/-- CHAN_TUNE_TIMEOUT (R182): 19.5 ms after the taking. -/
def execChanTuneTimeout (func : Nat) (s : State) : Host.Outcome State Fault Refusal :=
  act (decide (func < 64)) (fun d =>
    match (d.kiosk func).executing with
    | some r =>
      if r.op = 0x0202 && d.awaitsTune r && decide (r.taken + 19500000 ≤ d.time.nextAt) then
        let d := d.passTo (r.taken + 19500000)
        let d := d.onPon fun p => { p with commits := p.commits.filter fun q => !(q.func == func && q.seq == r.seq && q.op == r.op) }
        d.respond func r.op r.seq 0x000C 0 []
      else d
    | none => d) s

/-- CHAN_GET (R172, R487). -/
def cmdChanGet : Cmd where
  op := 0x0203
  caller := .x
  layout := [fd 2, rs 2]
  bad _ x := badIf [(0, decide (512 ≤ x.a 0))]
  unavail d x := if d.dieFailed (x.a 0 / 128) then some 0 else none
  run d x :=
    let c := d.chan (x.a 0)
    let onus := (d.pon.onus.filter fun e => e.2.state != .absent && e.2.channel == x.a 0).length
    let ovr := if d.domOn (9 + x.a 0 / 128) then d.reg (A.ovrCnt (x.a 0)) else 0
    (d, .ok (le 1 c.mode ++ le 1 c.usRate ++ le 1 c.dsWl ++ le 1 c.usWl ++ le 4 c.ponId ++ le 1 (ChState.num c.state) ++ le 1 0
      ++ le 2 (c.tree.getD 0xFFFF) ++ le 2 onus ++ le 2 0 ++ le 4 ovr))

/-- Two channels keep the tree rule of R143. -/
def Dev.treeRule (d : Dev) (a b : Nat) : Bool :=
  let x := d.chan a
  let y := d.chan b
  a / 128 == b / 128 && x.mode == y.mode && x.usRate == y.usRate && x.dsWl != y.dsWl && x.usWl != y.usWl

/-- CH0 to CH3 of TREE_CREATE that COUNT uses. -/
def treeUsed (x : Call) : List Nat := (List.range (x.a 1)).map fun n => x.a (2 + n)

/-- TREE_CREATE (R143). -/
def cmdTreeCreate : Cmd where
  op := 0x0204
  layout := [fd 2, fd 1, rs 1, fd 2, fd 2, fd 2, fd 2, fd 4]
  mirrored := true
  bad d x :=
    badIf ([(0, decide (512 ≤ x.a 0) || (d.tree? (x.a 0)).isSome),
      (2, !([1, 2, 4].contains (x.a 1)) || (decide (x.lvl < 3) && x.a 1 != 1))] ++
      (List.range 4).map fun n =>
        let c := x.a (2 + n)
        let before := (treeUsed x).take n
        (4 + 2 * n, if n < x.a 1 then decide (512 ≤ c) || before.contains c || before.any fun b => !d.treeRule b c
          else c != 0xFFFF))
  unavail d x := ((List.range (x.a 1)).find? fun n => !d.chanUp (x.a (2 + n))).map fun n => 4 + 2 * n
  state d x :=
    if (treeUsed x).any fun c => (d.chan c).tree.isSome then some 0x13
    else ((treeUsed x).find? fun c => (d.chan c).state != .off).map fun c => ChState.code (d.chan c).state
  run d x :=
    let tr : Tree := { chans := treeUsed x, ident := x.a 6, filledAt := d.uptimeNs }
    let d := d.onPon fun p => { p with trees := Tbl.set p.trees (x.a 0) tr }
    (d.each (treeUsed x) fun c d => d.onChan c fun y => { y with tree := some (x.a 0) }, .ok [])

/-- TREE_DELETE (R184). -/
def cmdTreeDelete : Cmd where
  op := 0x0205
  layout := [fd 2, rs 2]
  mirrored := true
  bad _ x := badIf [(0, decide (512 ≤ x.a 0))]
  absent := treeAbsent
  unavail := treeDown
  state d x :=
    if !(d.treeOnus (x.a 0)).isEmpty then some 0x20
    else if (d.treeChans (x.a 0)).any fun c => (d.chan c).state == .service then some 0x12
    else none
  run d x :=
    let d := d.each (d.treeChans (x.a 0)) fun c d => (d.onChan c fun y => { y with tree := none }).onRecv c fun y => { y with reach := none }
    let o := d.otdrOf (x.a 0)
    let d := if o.run.isSome || o.ordered.isSome then d else { d with otdr := Tbl.erase d.otdr (x.a 0) }
    (d.onPon fun p => { p with trees := Tbl.erase p.trees (x.a 0) }, .ok [])

/-- TREE_GET. -/
def cmdTreeGet : Cmd where
  op := 0x0206
  caller := .x
  layout := [fd 2, rs 2]
  bad _ x := badIf [(0, decide (512 ≤ x.a 0))]
  absent := treeAbsent
  unavail := treeDown
  run d x :=
    match d.tree? (x.a 0) with
    | some t =>
      let onus := (d.pon.onus.filter fun e => e.2.state != .absent && e.2.tree == x.a 0).length
      (d, .ok (le 1 t.chans.length ++ le 1 (nb t.identOk) ++ (List.range 4).flatMap (fun n => le 2 (t.chans.getD n 0xFFFF))
        ++ le 4 t.ident ++ le 2 onus ++ le 2 0))
    | none => (d, .err 0x0008 0)

/-! ## Optical engines -/

/-- The Dike of an engine is not marked failed and its PD01 + n is on (R487). -/
def engDown (d : Dev) (x : Call) : Option Nat :=
  if d.dieFailed (x.a 0 / 8) || !d.domOn (1 + x.a 0 / 8) then some 0 else none

/-- ENGINE_GET (R213). -/
def cmdEngineGet : Cmd where
  op := 0x0207
  caller := .x
  layout := [fd 1, rs 3]
  bad _ x := badIf [(0, decide (32 ≤ x.a 0))]
  unavail := engDown
  run d x :=
    let e := d.eng (x.a 0)
    let lasers := (List.range 16).foldl (fun a i => a + nb (d.chan (16 * x.a 0 + i)).laser * 2 ^ (4 + i)) 0
    let status := nb e.up + 2 * nb e.fault + 4 * nb e.cmdFail + 8 * nb e.telFail + lasers
    let d := d.onEng (x.a 0) fun y => { y with cmdFail := false, telFail := false }
    (d, .ok (le 4 status ++ le 2 (e.temp.getD 0x8000) ++ le 2 0
      ++ (List.range 16).flatMap fun i => le 2 ((Tbl.get? e.txPower i).getD 0x8000)))

/-- ENGINE_I2C (R214): what the target does is a free value: it answers, leaves a byte unacknowledged, or holds the bus. -/
def cmdEngineI2c : Cmd where
  op := 0x0208
  layout := [fd 1, fd 1, fd 1, fd 1, fd 2, rs 2]
  tail := (0, 64, 1)
  bad _ x :=
    let n := x.body.length - 8
    badIf [(0, decide (32 ≤ x.a 0)), (1, decide (2 ≤ x.a 1)), (2, decide (128 ≤ x.a 2)),
      (3, x.a 3 == 0 || decide (64 < x.a 3) || (x.a 1 == 1 && n != x.a 3) || (x.a 1 == 0 && n != 0))]
  unavail := engDown
  run d x :=
    let (r, d) := d.draw
    let (i, d) := d.draw
    let data := x.body.drop 8
    let d := d.emit (.i2c (x.a 0) (x.a 2) (x.a 4) (x.a 1 == 1) data)
    if r % 3 = 0 then
      let (v, d) := d.draw
      (d, .ok (if x.a 1 = 1 then [] else le (x.a 3) v))
    else if r % 3 = 1 then (d, .err 0x8001 (i % (x.a 3 + 3)))
    else (d.emit (.i2cRecover (x.a 0)), .err 0x8002 0)

/-! ## Telemetry and link state (R209 to R213) -/

/-- The engine's command frames run: its Dike's PD01 + n is on and DEV_READY has risen (R207). -/
def Dev.bclRuns (d : Dev) (e : Nat) : Bool := d.inService && d.domOn (1 + e / 8) && !d.dieFailed (e / 8)

/-- The first frame boundary that a channel's waiting state change may take is counted from the moment TUNED becomes 1 (R182). -/
def Dev.retune (d : Dev) (c : Nat) : Dev :=
  d.onPon fun p => { p with commits := p.commits.map fun r =>
    if r.op == 0x0202 && nth 0 r.args 0 == c && nth 0 r.args 1 != 0 then { r with from' := d.nextCommit } else r }

/-- R492 source 6: consecutive RSSI records of a channel that sends Towpath frames at or above POWER_TP_THR (negated quarter dBm). -/
def Dev.towpathRssi (d : Dev) (c value : Nat) : Dev :=
  if (d.chan c).state ≠ .off && !d.serves c then
    let thr : Int := -(25 * (fld (d.reg A.powerTpThr) 0 8 : Nat))
    if value != 0x8000 && decide (thr ≤ signed 16 value) then d.onChan c fun x => { x with tpHits := x.tpHits + 1 }
    else d.onChan c fun x => { x with tpHits := 0 }
  else d

/-- One telemetry record (Table 8-12). -/
def Dev.bclRecord (d : Dev) (e : Nat) (w : W32) : Dev :=
  let v := w.toNat
  let typ := fld v 28 4
  let ci := fld v 24 4
  let c := 16 * e + ci
  let seq := fld v 16 8
  let value := fld v 0 16
  if typ = 1 then
    let d := match (d.recv c).rssi.find? fun r => r.1 == seq with
      | some r =>
        (d.onRecv c fun x => { x with rssi := x.rssi.filter fun q => q != r }).onOnu r.2.1 fun o =>
          { o with acc := { o.acc with rxPower := value } }
      | none => d
    d.towpathRssi c value
  else if typ = 2 then d.onEng e fun x => { x with temp := some value }
  else if typ = 3 then d.onEng e fun x => { x with txPower := Tbl.set x.txPower ci value }
  else if typ = 5 then d.onEng e fun x => { x with code := seq }
  else if typ = 6 then
    let was := Chan.tuned (d.chan c)
    let d := d.onChan c fun x => if seq = 0 then { x with dsDone := some value } else { x with usDone := some value }
    if !was && Chan.tuned (d.chan c) then d.retune c else d
  else d

/-- BCL_TELEMETRY_FRAME (R211, R212, R213): one telemetry frame of engine `e`; `intact` says whether it passed R211. -/
def execBclTelemetryFrame (engine : Nat) (intact : Bool) (flags : Nat) (records : List W32) (s : State) : Host.Outcome State Fault Refusal :=
  act (decide (engine < 32) && decide (records.length ≤ 3840)) (fun d =>
    if d.bclRuns engine then
      if intact then
        let up := (d.eng engine).up || decide (4 ≤ (d.eng engine).good + 1)
        let rose := up && !(d.eng engine).up
        let d := d.onEng engine fun x => { x with
          good := min 4 (x.good + 1), lastEdge := d.time.edges, up := up, fault := bit flags 1
          startEdge := if up then none else x.startEdge
          temp := if rose then none else x.temp, txPower := if rose then [] else x.txPower
          cmdFail := x.cmdFail || bit flags 0 }
        let d := if bit flags 0 then d.setBit (A.bclStatus engine) 2 true else d
        records.foldl (fun d w => d.bclRecord engine w) d
      else (d.onEng engine fun x => { x with good := 0, telFail := true }).bump (A.bclCrc engine)
    else d) s

/-- A BCL link that is lost: LINK_LOST and one log entry (R212). -/
def Dev.bclLost (d : Dev) (e : Nat) : Dev := (d.setBit (A.bclStatus e) 1 true).log 0x0401 (e / 8) (le 1 e)

/-- BCL_LINK_DOWN (R212): 3 consecutive ticks without an intact telemetry frame. -/
def execBclLinkDown (engine : Nat) (s : State) : Host.Outcome State Fault Refusal :=
  act (decide (engine < 32)) (fun d =>
    let e := d.eng engine
    if d.bclRuns engine && e.up && decide (e.lastEdge + 3 ≤ d.time.edges) then
      (d.onEng engine fun x => { x with up := false, good := 0 }).bclLost engine
    else d) s

/-- BCL_LINK_UP_TIMEOUT (R212): not up within 128 ticks of the start of command frames. -/
def execBclLinkUpTimeout (engine : Nat) (s : State) : Host.Outcome State Fault Refusal :=
  act (decide (engine < 32)) (fun d =>
    match (d.eng engine).startEdge with
    | some t =>
      if d.bclRuns engine && !(d.eng engine).up && decide (t + 128 ≤ d.time.edges) then
        (d.onEng engine fun x => { x with startEdge := none }).bclLost engine
      else d
    | none => d) s

/-- BCL_STATE_REFRESH (R210): once every 128 ticks the requests for telemetry and the state of every channel of the engine. -/
def execBclStateRefresh (engine : Nat) (s : State) : Host.Outcome State Fault Refusal :=
  act (decide (engine < 32)) (fun d =>
    if d.bclRuns engine && decide ((d.eng engine).refreshed + 128 ≤ d.time.edges) then
      let d := d.onEng engine fun x => { x with refreshed := d.time.edges }
      let d := d.bclNext (16 * engine) 7 0
      d.each (List.range 16) fun i d =>
        let c := 16 * engine + i
        let d := d.bclNext c 7 1
        let d := d.bclNext c 2 (nb (d.chan c).laser)
        let d := d.bclNext c 3 (d.chan c).dsWl
        d.bclNext c 4 (d.chan c).usWl
    else d) s

/-- CHAN_CONFIG. -/
def execChanConfig (m : Msg) (s : State) : Host.Outcome State Fault Refusal := request cmdChanConfig m s
/-- CHAN_SET_STATE. -/
def execChanSetState (m : Msg) (s : State) : Host.Outcome State Fault Refusal := request cmdChanSetState m s
/-- CHAN_GET. -/
def execChanGet (m : Msg) (s : State) : Host.Outcome State Fault Refusal := request cmdChanGet m s
/-- TREE_CREATE. -/
def execTreeCreate (m : Msg) (s : State) : Host.Outcome State Fault Refusal := request cmdTreeCreate m s
/-- TREE_DELETE. -/
def execTreeDelete (m : Msg) (s : State) : Host.Outcome State Fault Refusal := request cmdTreeDelete m s
/-- TREE_GET. -/
def execTreeGet (m : Msg) (s : State) : Host.Outcome State Fault Refusal := request cmdTreeGet m s
/-- ENGINE_GET. -/
def execEngineGet (m : Msg) (s : State) : Host.Outcome State Fault Refusal := request cmdEngineGet m s
/-- ENGINE_I2C. -/
def execEngineI2c (m : Msg) (s : State) : Host.Outcome State Fault Refusal := request cmdEngineI2c m s

end Sys2Proof.Machine
end

