-- ==== Sys2Proof/Machine/Parse.lean ====
section
/-! DEFINITION. The parser of the ingress pipelines (R325 to R328) and the fields that rules compare (Table 13-5).
Choices and readings: log entries 33, 54 and 150. -/

namespace Sys2Proof.Machine

/-- The headers of Table 13-1. -/
inductive HKind where
  | eth | tag | mpls | pppoe | ipv4 | ipv6 | ext | frag6 | gre | udp | vxlan | gtpu | tcp | icmp
  deriving DecidableEq, Repr

/-- A parsed header: its kind, offset and length. -/
structure Hdr where
  kind : HKind
  off : Nat
  len : Nat
  deriving DecidableEq, Repr

/-- What the parser answers. -/
structure Parsed where
  /-- Headers parsed whole, outermost first; one level each. -/
  hdrs : List Hdr := []
  /-- Flag TRUNC (R326). -/
  trunc : Bool := false
  /-- Flag MALFORMED, the packet is malformed (R327). -/
  malformed : Bool := false
  /-- The first fragment met: its key without the source port, whether its offset is not 0, and MF (R337). -/
  frag : Option (List Nat × Bool × Bool) := none
  deriving DecidableEq, Repr

/-- Where the parser stands: the next header, its offset, and the end of the bytes that remain to it. -/
structure PState' where
  next : Option HKind
  off : Nat
  lim : Nat
  /-- Key of the IPv6 header whose extension headers are being parsed: addresses. -/
  ip6 : List Nat := []

/-- Header kind of an EtherType or GRE protocol type. -/
def etherNext (t : Nat) : Option HKind :=
  if t = 0x8100 || t = 0x88A8 then some .tag
  else if t = 0x8847 || t = 0x8848 then some .mpls
  else if t = 0x8864 then some .pppoe
  else if t = 0x0800 then some .ipv4
  else if t = 0x86DD then some .ipv6
  else if t = 0x6558 then some .eth
  else none

/-- Header kind of an IPv4 protocol or IPv6 next header. -/
def ipNext (v6 : Bool) (p : Nat) : Option HKind :=
  if p = 6 then some .tcp
  else if p = 17 then some .udp
  else if p = 47 then some .gre
  else if p = 4 then some .ipv4
  else if p = 41 then some .ipv6
  else if p = 1 && !v6 then some .icmp
  else if p = 58 && v6 then some .icmp
  else if v6 && (p = 0 || p = 43 || p = 60) then some .ext
  else if v6 && p = 44 then some .frag6
  else none

/-- Header kind by the first nibble of what follows. -/
def nibbleNext (b : Nat) : Option HKind := if b / 16 = 4 then some .ipv4 else if b / 16 = 6 then some .ipv6 else none

/-- Ones' complement sum of 16-bit words. -/
def onesSum : Nat → Bytes → Nat → Nat
  | 0, _, a => a
  | k + 1, b, a => onesSum k (b.drop 2) (let s := a + beAt b 0 2; s % 65536 + s / 65536)

/-- Length of a GTP-U header with its extension headers from `off`; none above 8 + 4 × 16. -/
def gtpExt (bs : Bytes) (off : Nat) : Nat → Nat → Nat → Option Nat
  | 0, _, _ => none
  | k + 1, t, n =>
    if t = 0 then some n
    else
      let l := 4 * leAt bs (off + n) 1
      if l = 0 || n + l > 72 then none else gtpExt bs off k (leAt bs (off + n + l - 1) 1) (n + l)

/-- Length of a GTP-U header. -/
def gtpLen (bs : Bytes) (off : Nat) : Option Nat :=
  let f := leAt bs off 1
  if f % 8 = 0 then some 8
  else if bit f 2 then gtpExt bs off 17 (leAt bs (off + 11) 1) 12
  else some 12

/-- Length of the header of a kind at an offset; none where it is not a recognised header. -/
def hdrLen (k : HKind) (bs : Bytes) (off : Nat) : Option Nat :=
  match k with
  | .eth => some 14
  | .tag | .mpls => some 4
  | .pppoe | .frag6 | .udp | .vxlan | .icmp => some 8
  | .ipv4 => some (max 20 (4 * (leAt bs off 1 % 16)))
  | .ipv6 => some 40
  | .ext => some (8 * (leAt bs (off + 1) 1 + 1))
  | .gre => let f := leAt bs off 1
            some (4 + 4 * (nb (bit f 7 || bit f 6) + nb (bit f 5) + nb (bit f 4)))
  | .gtpu => gtpLen bs off
  | .tcp => some (max 20 (4 * (leAt bs (off + 12) 1 / 16)))

/-- Table 13-2: a contradiction in the header of a kind at `off`, with the bytes up to `lim` remaining. -/
def malformedAt (k : HKind) (bs : Bytes) (off lim : Nat) : Bool :=
  let rem := lim - off
  match k with
  | .ipv4 =>
    let ihl := 4 * (leAt bs off 1 % 16)
    let total := beAt bs (off + 2) 2
    let fo := beAt bs (off + 6) 2 % 8192
    decide (ihl < 20) || decide (total < ihl) || decide (rem < total) || onesSum (ihl / 2) (slice bs off ihl) 0 != 65535
      || ((fo != 0 || bit (beAt bs (off + 6) 2) 13) && decide (8 * fo + (total - ihl) > 65535))
  | .ipv6 => decide (beAt bs (off + 4) 2 + 40 > rem)
  | .ext => decide (8 * (leAt bs (off + 1) 1 + 1) > rem)
  | .frag6 => decide (8 > rem) || decide (beAt bs (off + 2) 2 / 8 * 8 + (rem - 8) > 65535)
  | .udp => decide (beAt bs (off + 4) 2 < 8) || decide (beAt bs (off + 4) 2 > rem)
  | .tcp => decide (leAt bs (off + 12) 1 / 16 < 5) || decide (4 * (leAt bs (off + 12) 1 / 16) > rem)
  | .pppoe => decide (beAt bs (off + 4) 2 + 6 > rem)
  | .gtpu => decide (beAt bs (off + 2) 2 + 8 > rem)
  | _ => false

/-- The parser after a header of a kind and length has been parsed whole. -/
def afterHdr (k : HKind) (bs : Bytes) (off len lim : Nat) (ip6 : List Nat) : PState' :=
  let here := off + len
  match k with
  | .eth => { next := etherNext (beAt bs (off + 12) 2), off := here, lim := lim }
  | .tag => { next := etherNext (beAt bs (off + 2) 2), off := here, lim := lim }
  | .mpls =>
    if bit (leAt bs (off + 2) 1) 0 then
      let b := leAt bs here 1
      if b / 16 = 0 then { next := some .eth, off := here + 4, lim := lim } else { next := nibbleNext b, off := here, lim := lim }
    else { next := some .mpls, off := here, lim := lim }
  | .pppoe =>
    let p := beAt bs (off + 6) 2
    { next := if p = 0x0021 then some .ipv4 else if p = 0x0057 then some .ipv6 else none, off := here
      lim := min lim (off + 6 + beAt bs (off + 4) 2) }
  | .ipv4 =>
    let lim := min lim (off + beAt bs (off + 2) 2)
    let later := beAt bs (off + 6) 2 % 8192 != 0
    { next := if later then none else ipNext false (leAt bs (off + 9) 1), off := here, lim := lim }
  | .ipv6 =>
    { next := ipNext true (leAt bs (off + 6) 1), off := here, lim := min lim (here + beAt bs (off + 4) 2)
      ip6 := [beAt bs (off + 8) 16, beAt bs (off + 24) 16] }
  | .ext => { next := ipNext true (leAt bs off 1), off := here, lim := lim, ip6 := ip6 }
  | .frag6 =>
    let later := beAt bs (off + 2) 2 / 8 != 0
    { next := if later then none else ipNext true (leAt bs off 1), off := here, lim := lim, ip6 := ip6 }
  | .gre => { next := etherNext (beAt bs (off + 2) 2), off := here, lim := lim }
  | .udp =>
    let p := beAt bs (off + 2) 2
    { next := if p = 4789 then some .vxlan else if p = 2152 then some .gtpu else none, off := here
      lim := min lim (off + beAt bs (off + 4) 2) }
  | .vxlan => { next := some .eth, off := here, lim := lim }
  | .gtpu =>
    { next := if leAt bs (off + 1) 1 = 255 then nibbleNext (leAt bs here 1) else none, off := here
      lim := min lim (off + 8 + beAt bs (off + 2) 2) }
  | .tcp | .icmp => { next := none, off := here, lim := lim }

/-- R337: the fragment that a header makes of its packet. -/
def fragAt (k : HKind) (bs : Bytes) (off : Nat) (ip6 : List Nat) : Option (List Nat × Bool × Bool) :=
  match k with
  | .ipv4 =>
    let w := beAt bs (off + 6) 2
    if w % 16384 = 0 then none
    else some ([4, beAt bs (off + 12) 4, beAt bs (off + 16) 4, beAt bs (off + 4) 2, leAt bs (off + 9) 1], w % 8192 != 0, bit w 13)
  | .frag6 =>
    let w := beAt bs (off + 2) 2
    if w / 8 = 0 && !bit w 0 then none
    else some ([6] ++ ip6 ++ [beAt bs (off + 4) 4], w / 8 != 0, bit w 0)
  | _ => none

/-- Follow the headers (R325 to R327); `r` holds what has been parsed. -/
def parseFrom (bs : Bytes) : Nat → PState' → Parsed → Parsed
  | 0, _, r => r
  | fuel + 1, st, r =>
    match st.next with
    | none => r
    | some k =>
      match hdrLen k bs st.off with
      | none => r
      | some len =>
        if 16 ≤ r.hdrs.length || st.off + len > 256 then { r with trunc := true }
        else if malformedAt k bs st.off st.lim then { r with malformed := true }
        else if st.off + len > st.lim then r
        else
          let r := { r with
            hdrs := r.hdrs ++ [{ kind := k, off := st.off, len := len }]
            frag := if r.frag.isSome then r.frag else fragAt k bs st.off st.ip6 }
          parseFrom bs fuel (afterHdr k bs st.off len st.lim st.ip6) r

/-- Parse a packet of `len` bytes, its FCS counted (R325). -/
def parse (bs : Bytes) (len : Nat) : Parsed := parseFrom bs 17 { next := some .eth, off := 0, lim := len - 4 } {}

/-- FRAG_FIRST: a fragment with offset 0 and more to follow. -/
def Parsed.fragFirst (p : Parsed) : Bool :=
  match p.frag with
  | some (_, later, mf) => !later && mf
  | none => false

/-- IP_OPTIONS: IHL above 5, or a hop-by-hop header. -/
def Parsed.ipOptions (p : Parsed) (bs : Bytes) : Bool :=
  p.hdrs.any (fun h => h.kind == .ipv4 && decide (20 < h.len)) ||
  (p.hdrs.zip (p.hdrs.drop 1)).any fun e => e.1.kind == .ipv6 && e.2.kind == .ext && leAt bs (e.1.off + 6) 1 == 0

/-- TUNNEL: GRE, VXLAN or GTP-U was parsed. -/
def Parsed.tunnel (p : Parsed) : Bool := p.hdrs.any fun h => h.kind == .gre || h.kind == .vxlan || h.kind == .gtpu

/-- PF bits of Table 13-3. -/
def Parsed.flags (p : Parsed) (bs : Bytes) : Nat :=
  nb p.trunc + 2 * nb p.malformed + 4 * nb p.fragFirst + 8 * nb (p.ipOptions bs) + 16 * nb p.tunnel

/-- The first byte after the parsed headers. -/
def Parsed.endOff (p : Parsed) : Nat :=
  match p.hdrs.getLast? with
  | some h => h.off + h.len
  | none => 0

/-- Outermost tag, if any follows the first Ethernet header. -/
def Parsed.tag? (p : Parsed) : Option Hdr := p.hdrs.find? fun h => h.kind == .tag

/-- VID of the outermost tag, or 0 (R345). -/
def Parsed.vid (p : Parsed) (bs : Bytes) : Nat :=
  match p.tag? with
  | some h => beAt bs h.off 2 % 4096
  | none => 0

/-- Class from PCP, or 0 (Table 13-6). -/
def Parsed.pcp (p : Parsed) (bs : Bytes) : Nat :=
  match p.tag? with
  | some h => beAt bs h.off 2 / 8192
  | none => 0

/-- The first IP header (R345). -/
def Parsed.ip? (p : Parsed) : Option Hdr := p.hdrs.find? fun h => h.kind == .ipv4 || h.kind == .ipv6

/-- Address family, source and destination of an IP header. -/
def ipAddrs (bs : Bytes) (h : Hdr) : Nat × Nat × Nat :=
  if h.kind = .ipv4 then (4, beAt bs (h.off + 12) 4, beAt bs (h.off + 16) 4)
  else (6, beAt bs (h.off + 8) 16, beAt bs (h.off + 24) 16)

/-- The occurrence OCC of headers that pass a test; 0xFF is the innermost. -/
def pick (l : List Hdr) (occ : Nat) : Option Hdr := if occ = 255 then l.getLast? else l[occ]?

/-- The headers from a header on up to the next header of its own layer, itself excluded. -/
def tailOf (l : List Hdr) (h : Hdr) (stop : HKind → Bool) : List Hdr :=
  ((l.dropWhile fun x => x.off != h.off).drop 1).takeWhile fun x => !stop x.kind

/-- IP headers. -/
def isIp (k : HKind) : Bool := k == .ipv4 || k == .ipv6

/-- What a packet carries besides its bytes: die, source, XGEM port, flow, META. -/
structure Ctx where
  die : Nat
  src : Nat
  xgem : Nat
  flow : Option Nat
  metaVal : Nat

/-- A field of Table 13-5, if the packet has it. -/
def fieldOf (c : Ctx) (p : Parsed) (bs : Bytes) (len code occ sl : Nat) : Option Nat :=
  let of := fun (t : HKind → Bool) => pick (p.hdrs.filter fun h => t h.kind) occ
  let dike := decide (c.die < 4)
  if code = 0x01 then some c.die
  else if code = 0x02 then (if dike then none else some c.src)
  else if code = 0x03 then (if dike then some c.src else none)
  else if code = 0x04 then (if dike then some c.xgem else none)
  else if code = 0x05 then (if dike then c.flow else none)
  else if code = 0x06 then (of (· == .eth)).map fun h => beAt bs h.off 6
  else if code = 0x07 then (of (· == .eth)).map fun h => beAt bs (h.off + 6) 6
  else if code = 0x08 then (of (· == .eth)).map fun h =>
    match ((tailOf p.hdrs h fun _ => false).takeWhile fun x => x.kind == .tag).getLast? with
    | some t => beAt bs (t.off + 2) 2
    | none => beAt bs (h.off + 12) 2
  else if code = 0x09 then (of (· == .tag)).map fun h => beAt bs h.off 2 % 4096
  else if code = 0x0A then (of (· == .tag)).map fun h => beAt bs h.off 2 / 4096
  else if code = 0x0B then (of (· == .mpls)).map fun h => beAt bs h.off 4 / 4096
  else if code = 0x0C then (of (· == .mpls)).map fun h => beAt bs h.off 4 / 512 % 8
  else if code = 0x0D then (of (· == .pppoe)).map fun h => beAt bs (h.off + 2) 2
  else if code = 0x0E then (of isIp).map fun h => leAt bs h.off 1 / 16
  else if code = 0x0F then (of isIp).map fun h => (ipAddrs bs h).2.1
  else if code = 0x10 then (of isIp).map fun h => (ipAddrs bs h).2.2
  else if code = 0x11 then (of isIp).map fun h =>
    if h.kind = .ipv4 then leAt bs (h.off + 9) 1
    else match ((tailOf p.hdrs h isIp).filter fun x => x.kind == .ext || x.kind == .frag6).getLast? with
      | some e => leAt bs e.off 1
      | none => leAt bs (h.off + 6) 1
  else if code = 0x12 then (of isIp).map fun h => if h.kind = .ipv4 then leAt bs (h.off + 1) 1 else beAt bs h.off 2 / 16 % 256
  else if code = 0x13 then (of isIp).map fun h => if h.kind = .ipv4 then leAt bs (h.off + 8) 1 else leAt bs (h.off + 7) 1
  else if code = 0x14 then (of isIp).map fun h =>
    if h.kind = .ipv4 then
      let w := beAt bs (h.off + 6) 2
      nb (bit w 13) + 2 * nb (w % 8192 != 0) + 4 * nb (bit w 14)
    else match (tailOf p.hdrs h isIp).find? fun x => x.kind == .frag6 with
      | some f => let w := beAt bs (f.off + 2) 2
                  nb (bit w 0) + 2 * nb (w / 8 != 0)
      | none => 0
  else if code = 0x15 then (of fun k => k == .udp || k == .tcp).map fun h => beAt bs h.off 2
  else if code = 0x16 then (of fun k => k == .udp || k == .tcp).map fun h => beAt bs (h.off + 2) 2
  else if code = 0x17 then (of (· == .tcp)).map fun h => beAt bs (h.off + 12) 2 % 512
  else if code = 0x18 then (of (· == .icmp)).map fun h => beAt bs h.off 2
  else if code = 0x19 then
    (pick (p.hdrs.filter fun h => h.kind == .vxlan || h.kind == .gtpu || (h.kind == .gre && bit (leAt bs h.off 1) 5)) occ).map fun h =>
      if h.kind = .vxlan then beAt bs (h.off + 4) 3
      else if h.kind = .gtpu then beAt bs (h.off + 4) 4
      else beAt bs (h.off + 4 + 4 * nb (bit (leAt bs h.off 1) 7 || bit (leAt bs h.off 1) 6)) 4
  else if code = 0x1A then some p.hdrs.length
  else if code = 0x1B then some c.metaVal
  else if code = 0x1F then
    (pick p.hdrs occ).bind fun h => if h.off + sl + 6 ≤ len then some (beAt bs (h.off + sl) 6) else none
  else none

/-- Bits of a field (Table 13-5). -/
def fieldBits (code : Nat) : Nat :=
  nth 0 [0, 3, 9, 16, 16, 21, 48, 48, 16, 12, 4, 20, 3, 16, 4, 128, 128, 8, 8, 8, 3, 16, 16, 9, 16, 32, 5, 32, 0, 0, 0, 48] code

end Sys2Proof.Machine
end

