-- ==== Sys2Proof/Machine/Forward.lean ====
section
/-! DEFINITION. Exact-match tables, the trie and its restore, the next-hop table, and the forwarding group of commands
(14_forwarding_tables.md, Table 6-16).
Choices and readings: log entries 38, 55, 57, 141, 142, 155 and 156. -/

namespace Sys2Proof.Machine

/-! ## Exact-match entries (R352, R353) -/

/-- Slots of a table, stash included. -/
def emSlots : Nat := 1048640

/-- First slot of the stash. -/
def stash0 : Nat := 1048576

/-- Key of an entry: KIND, VRF, VID and KEY. -/
def emKey (e : Bytes) : Bytes := slice e 0 1 ++ slice e 2 4 ++ slice e 8 16

/-- DEST_KIND and DEST. -/
def emDest (e : Bytes) : Nat × Nat := (leAt e 6 1, leAt e 0x18 4)

/-- MARK. -/
def emMark (e : Bytes) : Bool := bit (leAt e 1 1) 1

/-- An entry of Table 14-5. -/
def emEntry (kind vrf vid : Nat) (key : Bytes) (dest : Nat × Nat) (mark : Bool) (index : Nat) : Bytes :=
  le 1 kind ++ le 1 (1 + 2 * nb mark) ++ le 2 vrf ++ le 2 vid ++ le 1 dest.1 ++ le 1 0 ++ slice key 0 16 ++ le 4 dest.2 ++ le 4 index

/-- The entry with other MARK, DEST or INDEX. -/
def emWith (e : Bytes) (mark : Bool) (dest : Nat × Nat) (index : Nat) : Bytes :=
  slice e 0 1 ++ le 1 (1 + 2 * nb mark) ++ slice e 2 4 ++ le 1 dest.1 ++ le 1 0 ++ slice e 8 16 ++ le 4 dest.2 ++ le 4 index

/-- The bucket of a key in way `w` of die `n`; the hash is the die's own (R352). -/
def Dev.emBucket (d : Dev) (n w : Nat) (key : Bytes) : Nat := Config.emHash (2 * n + w) d.boot.seed key % 131072

/-- The four slots of a bucket. -/
def bucketSlots (w b : Nat) : List Nat := (List.range 4).map fun s => w * 524288 + b * 4 + s

/-- The candidate slots of a key: its two buckets. -/
def Dev.emBuckets (d : Dev) (n : Nat) (key : Bytes) : List Nat :=
  bucketSlots 0 (d.emBucket n 0 key) ++ bucketSlots 1 (d.emBucket n 1 key)

/-- The stash slots. -/
def stashSlots : List Nat := (List.range 64).map fun k => stash0 + k

/-- Entry at a slot. -/
def Dev.emAt (d : Dev) (n i : Nat) : Option Bytes := Tbl.get? (d.die n).em i

/-- The slot that holds a key (R356). -/
def Dev.emFind (d : Dev) (n : Nat) (key : Bytes) : Option (Nat × Bytes) :=
  (d.emBuckets n key ++ stashSlots).findSome? fun i =>
    match d.emAt n i with
    | some e => if emKey e = key then some (i, e) else none
    | none => none

/-- The lowest slot of a list that holds no entry. -/
def Dev.emFree (d : Dev) (n : Nat) (l : List Nat) : Option Nat := l.find? fun i => (d.emAt n i).isNone

/-- Write an entry at a slot; the slot is no longer invalidated (R362). -/
def Dev.emPut (d : Dev) (n i : Nat) (e : Bytes) : Dev :=
  d.onDie n fun x => { x with em := Tbl.set x.em i (emWith e (emMark e) (emDest e) i), emBad := x.emBad.filter (· != i) }

/-- Move one stash entry back into a bucket with a free slot (R355). -/
def Dev.emUnstash (d : Dev) (n : Nat) : Dev :=
  let found := stashSlots.findSome? fun i =>
    match d.emAt n i with
    | some e => (d.emFree n (d.emBuckets n (emKey e))).map fun f => (i, f, e)
    | none => none
  match found with
  | some (i, f, e) => (d.emPut n f e).onDie n fun x => { x with em := Tbl.erase x.em i }
  | none => d

/-- Remove the entry at a slot. -/
def Dev.emRemove (d : Dev) (n i : Nat) : Dev := (d.onDie n fun x => { x with em := Tbl.erase x.em i }).emUnstash n

/-- A lookup (R346, R356, R358): its hit clears MARK; a hit on a flow that is gone counts as a miss and removes the entry. -/
def Dev.emLookup (d : Dev) (n : Nat) (key : Bytes) : Option (Nat × Bytes) × Dev :=
  let d := d.bump (A.em n 0x010)
  let d := d.perf n 0x030 1 []
  match d.emFind n key with
  | some (i, e) =>
    if (emDest e).1 = 1 && (d.flow? (emDest e).2).isNone then (none, (d.bump (A.em n 0x058)).emRemove n i)
    else (some (i, e), ((d.perf n 0x031 1 []).bump (A.em n 0x018)).emPut n i (emWith e false (emDest e) i))
  | none => (none, d)

/-! ## Learning (R354, R355) -/

/-- Queue a learn request; one for a queued key merges into it. -/
def Dev.learnPush (d : Dev) (n : Nat) (e : Bytes) : Dev :=
  let q := (d.die n).learn
  if q.any fun r => emKey r = emKey e then d.onDie n fun x => { x with learn := q.map fun r => if emKey r = emKey e then e else r }
  else if 4096 ≤ q.length then d.bump (A.em n 0x040)
  else d.onDie n fun x => { x with learn := q ++ [e] }

/-- The other bucket of the entry at a bucket slot. -/
def Dev.emOther (d : Dev) (n i : Nat) : List Nat :=
  match d.emAt n i with
  | some e => let w := 1 - i / 524288
              bucketSlots w (d.emBucket n w (emKey e))
  | none => []

/-- Paths of one more move: each path lists the slots to be moved, the deepest first. -/
def Dev.emGrow (d : Dev) (n : Nat) (paths : List (List Nat × List Nat)) : List (List Nat × List Nat) :=
  paths.flatMap fun p => p.1.map fun s => (d.emOther n s, s :: p.2)

/-- R355: the slots to move, deepest first, and the free slot at the end of a path of at most `k` moves; shortest paths first. -/
def Dev.emPath (d : Dev) (n : Nat) : Nat → List (List Nat × List Nat) → Option (List Nat × Nat)
  | 0, _ => none
  | k + 1, paths =>
    let grown := d.emGrow n paths
    match grown.findSome? fun p => (d.emFree n p.1).map fun f => (p.2, f) with
    | some r => some r
    | none => Dev.emPath d n k grown

/-- Perform the moves of a path from its far end; answers the slot that is left free. -/
def Dev.emShift (d : Dev) (n : Nat) : List Nat → Nat → Nat × Dev
  | [], f => (f, d)
  | s :: l, f =>
    match d.emAt n s with
    | some e =>
      let d := ((d.emPut n f e).onDie n fun x => { x with em := Tbl.erase x.em s }).bump (A.em n 0x030)
      Dev.emShift d n l s
    | none => Dev.emShift d n l s

/-- Insert an absent key. -/
def Dev.emInsert (d : Dev) (n : Nat) (e : Bytes) : Dev :=
  let key := emKey e
  let put := fun (d : Dev) (i : Nat) => (d.emPut n i e).bump (A.em n 0x020)
  match d.emFree n (d.emBuckets n key) with
  | some i => put d i
  | none =>
    match d.emPath n 16 [(d.emBuckets n key, [])] with
    | some (l, f) => let (i, d) := d.emShift n l f
                     put d i
    | none =>
      match d.emFree n stashSlots with
      | some i => put d i
      | none => d.bump (A.em n 0x038)

/-- The learn engine takes one request. -/
def Dev.learnTake (d : Dev) (n : Nat) : Dev :=
  match (d.die n).learn with
  | [] => d
  | e :: rest =>
    let d := d.onDie n fun x => { x with learn := rest }
    match d.emFind n (emKey e) with
    | some (i, old) =>
      if emDest old = emDest e then d.emPut n i (emWith old false (emDest old) i)
      else (d.emPut n i (emWith old false (emDest e) i)).bump (A.em n 0x028)
    | none => d.emInsert n e

/-- LEARN_REQUEST. -/
def execLearnRequest (die : Nat) (s : State) : Host.Outcome State Fault Refusal :=
  act (decide (die < 6)) (fun d => if d.dieUp die then d.learnTake die else d) s

/-- AGING_VISIT (R358, R359): the scanner visits its next slot; `hit` says that a lookup hits the entry in the same clock. -/
def execAgingVisit (die : Nat) (hit : Bool) (s : State) : Host.Outcome State Fault Refusal :=
  act (decide (die < 6)) (fun d =>
    if d.dieUp die && d.reg (A.emScanMs die) != 0 then
      let i := (d.die die).scan
      let d := d.onDie die fun x => { x with scan := (i + 1) % emSlots }
      match d.emAt die i with
      | some e =>
        if emMark e then
          let d := (d.emRemove die i).bump (A.em die 0x048)
          if hit then d.bump (A.em die 0x050) else d
        else if hit then d
        else d.emPut die i (emWith e true (emDest e) i)
      | none => d
    else d) s

/-! ## Trie and next hops (R347 to R351) -/

/-- Routes that an address family may hold (Table 14-2). -/
def routeMax (af : Nat) : Nat := if af = 4 then 4194304 else 1048576

/-- The first `len` bits of two left-aligned 128-bit values agree. -/
def samePrefix (len a b : Nat) : Bool := a / 2 ^ (128 - len) == b / 2 ^ (128 - len)

/-- A route stands for an address (left-aligned). -/
def Route.covers (r : Route) (vrf af addr : Nat) : Bool := r.vrf == vrf && r.af == af && samePrefix r.len r.pfx addr

/-- An open record covers a prefix of length `len`. -/
def Restore.inside (r : Restore) (vrf af len pfx : Nat) : Bool :=
  r.vrf == vrf && r.af == af && decide (r.len ≤ len) && samePrefix r.len r.pfx pfx

/-- The open record, if any, whose range holds a prefix. -/
def Trie.openFor (t : Trie) (vrf af len pfx : Nat) : Bool := t.restores.any fun r => Restore.inside r vrf af len pfx

/-- R347: the longest route for an address. -/
def Trie.lookup (t : Trie) (vrf af addr : Nat) : Option Route :=
  if t.openFor vrf af 128 addr then none
  else
    t.routes.foldl (fun best r =>
      if !r.hidden && Route.covers r vrf af addr then
        match best with
        | some b => if b.len < r.len then some r else some b
        | none => some r
      else best) none

/-- The route of exactly one prefix. -/
def Trie.find (t : Trie) (vrf af len pfx : Nat) : Option Route :=
  t.routes.find? fun r => r.vrf == vrf && r.af == af && r.len == len && r.pfx == pfx

/-- Routes of a family. -/
def Trie.count (t : Trie) (af : Nat) : Nat := countP (fun r => r.af == af) t.routes

/-- One entry of a route command. -/
structure RouteOp where
  del : Bool
  vrf : Nat
  af : Nat
  len : Nat
  pfx : Nat
  nh : Nat

/-- The entry at an offset, in ROUTE_ADD's layout. -/
def routeAt (b : Bytes) (off : Nat) (del : Bool) : RouteOp :=
  { del := del, vrf := leAt b off 2, af := leAt b (off + 2) 1, len := leAt b (off + 3) 1, pfx := beAt b (off + 4) 16
    nh := leAt b (off + 20) 4 }

/-- BAD_FIELD offsets of an entry (Table 14-3). -/
def RouteOp.bad (o : RouteOp) (wantsNh : Bool) : List Nat :=
  let top := if o.af = 4 then 32 else 128
  badIf [(0x00, decide (4095 < o.vrf)), (0x02, o.af != 4 && o.af != 6), (0x03, decide (top < o.len)),
    (0x04, decide (o.len ≤ top) && o.pfx % 2 ^ (128 - o.len) != 0),
    (0x14, wantsNh && (if o.del then o.nh != 0 else o.nh == 0 || o.nh == 0xFFFFFFFF))]

/-- The other checks of Table 14-3, in their order. -/
def RouteOp.rest (o : RouteOp) (t : Trie) : Option (Nat × Nat) :=
  let there := (t.find o.vrf o.af o.len o.pfx).isSome
  if o.del then (if there then none else some (0x0008, 0x04))
  else if !there && decide (routeMax o.af ≤ t.count o.af) then some (0x000A, if o.af = 4 then 0x08 else 0x09)
  else none

/-- Apply an entry that has passed its checks. -/
def RouteOp.apply (o : RouteOp) (t : Trie) : Trie :=
  let others := t.routes.filter fun r => !(r.vrf == o.vrf && r.af == o.af && r.len == o.len && r.pfx == o.pfx)
  let new : Route :=
    { vrf := o.vrf, af := o.af, len := o.len, pfx := o.pfx, nh := o.nh, hidden := t.openFor o.vrf o.af o.len o.pfx }
  { t with routes := if o.del then others else new :: others }

/-- A batch applied in order up to its first failing entry: the trie, or the entry's index and status. -/
def routeBatch : List (Option RouteOp) → Nat → Trie → Except (Nat × Nat) Trie
  | [], _, t => .ok t
  | none :: _, i, _ => .error (i, 0x06)
  | some o :: l, i, t =>
    if !(o.bad true).isEmpty then .error (i, 0x06)
    else
      match o.rest t with
      | some (s, _) => .error (i, s)
      | none => routeBatch l (i + 1) (o.apply t)

/-- Entries of a ROUTE_BATCH payload; none for one whose OP or reserved bytes are wrong. -/
def batchEntries (b : Bytes) : List (Option RouteOp) :=
  (List.range ((b.length - 4) / 28)).map fun i =>
    let off := 4 + 28 * i
    if leAt b off 1 < 2 && leAt b (off + 1) 3 = 0 then some (routeAt b (off + 4) (leAt b off 1 == 1)) else none

/-- The trie lies in PD15. -/
def trieDown (off : Nat) (d : Dev) (_ : Call) : Option Nat := if d.domOn 15 then none else some off

/-- ROUTE_ADD and ROUTE_DELETE share their layout. -/
def cmdRoute (op : Nat) (del : Bool) : Cmd where
  op := op
  layout := [fd 2, fd 1, fd 1, fd 16, fd 4]
  mirrored := true
  bad _ x := (routeAt x.body 0 del).bad true
  absent d x := if del && d.domOn 15 then ((routeAt x.body 0 del).rest d.data.trie).map Prod.snd else none
  unavail := trieDown 0x04
  full d x := if del then none else ((routeAt x.body 0 del).rest d.data.trie).map Prod.snd
  run d x := (d.onTrie fun t => (routeAt x.body 0 del).apply t, .ok [])

/-- ROUTE_ADD. -/
def cmdRouteAdd : Cmd := cmdRoute 0x0801 false
/-- ROUTE_DELETE. -/
def cmdRouteDelete : Cmd := cmdRoute 0x0802 true

/-- ROUTE_BATCH. -/
def cmdRouteBatch : Cmd where
  op := 0x0803
  layout := [fd 2, rs 2]
  tail := (0, 2016, 28)
  mirrored := true
  bad _ x := badIf [(0, decide (72 < x.a 0) || x.a 0 != (x.body.length - 4) / 28)]
  unavail := trieDown 0x00
  special d x :=
    match routeBatch (batchEntries x.body) 0 d.data.trie with
    | .error (i, s) => some (0x8005, i + 65536 * (s % 256))
    | .ok _ => none
  run d x :=
    match routeBatch (batchEntries x.body) 0 d.data.trie with
    | .ok t => (d.onTrie fun _ => t, .ok [])
    | .error (i, s) => (d, .err 0x8005 (i + 65536 * (s % 256)))

/-- ROUTE_GET. -/
def cmdRouteGet : Cmd where
  op := 0x0804
  layout := [fd 2, fd 1, fd 1, fd 16]
  bad _ x := (routeAt x.body 0 false).bad false
  unavail := trieDown 0x04
  run d x :=
    let o := routeAt x.body 0 false
    match d.data.trie.find o.vrf o.af o.len o.pfx with
    | some r => (d, .ok (le 1 1 ++ le 3 0 ++ le 4 r.nh))
    | none => (d, .ok (le 1 0 ++ le 3 0 ++ le 4 0))

/-- Subports of an uplink port in its MODE (Table 17-1). -/
def Dev.portSplit (d : Dev) (p : Nat) : Nat := nth 8 [1, 2] (fld (d.reg (A.uplCfg p)) 1 2)

/-- NH_SET (R351). -/
def cmdNhSet : Cmd where
  op := 0x0805
  layout := [fd 4, fd 1, fd 1, rs 2, fd 6, fd 2, rs 4]
  mirrored := true
  bad d x :=
    badIf [(0, x.a 0 == 0 || x.a 0 == 0xFFFFFFFF), (4, decide (64 ≤ x.a 1) && x.a 1 != 0xFF),
      (5, decide (x.a 1 < 64) && decide (d.portSplit (x.a 1) ≤ x.a 2)), (0x0E, decide (4095 < x.a 4) && x.a 4 != 0xFFFF)]
  unavail d x :=
    if !d.domOn 15 then some 0 else if x.a 1 < 64 && d.dieFailed (4 + x.a 1 / 32) then some 4 else none
  full d x :=
    if x.a 1 != 0xFF && (Tbl.get? d.data.trie.nh (x.a 0)).isNone && decide (262144 ≤ d.data.trie.nh.length) then some 0x0A else none
  run d x :=
    if x.a 1 = 0xFF then (d.onTrie fun t => { t with nh := Tbl.erase t.nh (x.a 0) }, .ok [])
    else
      let n : NextHop := { port := x.a 1, sub := x.a 2, dmac := beAt x.body 8 6, vlan := x.a 4 }
      (d.onTrie fun t => { t with nh := Tbl.set t.nh (x.a 0) n }, .ok [])

/-! ## Reading, restoring, aging (R358, R361 to R363) -/

/-- Table 14-8. -/
def Restore.bytes (r : Restore) : Bytes :=
  le 4 r.word ++ le 2 r.vrf ++ le 1 r.af ++ le 1 r.len ++ be 16 r.pfx ++ le 1 r.stage ++ le 3 0 ++ le 4 r.opened

/-- DIE and TABLE of EM_READ and EM_RESTORE. -/
def emPairBad (x : Call) : Bool := !((decide (x.a 0 < 6) && x.a 1 == 0) || (x.a 0 == 6 && x.a 1 == 1))

/-- The die that EM_READ, EM_RESTORE or AGE_SET names is off or failed. -/
def emDown (d : Dev) (x : Call) : Option Nat :=
  if x.a 0 = 0xFF then none else if d.dieUp (x.a 0) then none else some 0

/-- EM_READ. -/
def cmdEmRead : Cmd where
  op := 0x0806
  layout := [fd 1, fd 1, rs 2, fd 4]
  bad _ x := badIf [(1, emPairBad x)]
  unavail := emDown
  run d x :=
    let l := if x.a 0 = 6 then
        ((d.data.trie.restores.filter fun r => decide (x.a 2 ≤ r.word)).mergeSort fun a b => decide (a.word ≤ b.word)).map
          fun r => (r.word, Restore.bytes r)
      else (d.die (x.a 0)).em.filter fun e => decide (x.a 2 ≤ e.1)
    let now := l.take 63
    let next := match (l.drop 63).head? with
      | some e => e.1
      | none => 0xFFFFFFFF
    (d, .ok (le 2 now.length ++ le 2 0 ++ le 4 next ++ now.flatMap Prod.snd))

/-- The entry that EM_RESTORE of an exact-match slot carries is well formed. -/
def emEntryOk (e : Bytes) (index : Nat) : Bool :=
  let k := leAt e 0 1
  decide (k < 3) && bit (leAt e 1 1) 0 && decide (leAt e 1 1 < 4) && decide (leAt e 2 2 < 4096)
    && (if k = 0 then decide (leAt e 4 2 < 4096) else leAt e 4 2 == 0) && decide (leAt e 6 1 < 2) && leAt e 7 1 == 0
    && (if k = 0 then (slice e 14 10).all (· == 0) else if k = 1 then (slice e 12 12).all (· == 0) else true)
    && leAt e 0x1C 4 == index

/-- EM_RESTORE (R362, R363). -/
def cmdEmRestore : Cmd where
  op := 0x0807
  layout := [fd 1, fd 1, rs 2, fd 4, fd 32]
  bad d x :=
    let e := slice x.body 8 32
    badIf [(1, emPairBad x), (4, decide (x.a 0 < 6) && decide (emSlots ≤ x.a 2)),
      (8, if x.a 0 = 6 then
            match d.data.trie.restores.find? fun r => r.word == x.a 2 with
            | some r => decide (Restore.bytes r ≠ e)
            | none => false
          else !emEntryOk e (x.a 2))]
  unavail := emDown
  state d x :=
    if x.a 0 = 6 then (if d.data.trie.restores.any fun r => r.word == x.a 2 then none else some 0x22)
    else if (d.die (x.a 0)).emBad.contains (x.a 2) then none else some 0x22
  run d x :=
    if x.a 0 = 6 then
      (d.onTrie fun t =>
        let gone := t.restores.filter fun r => r.word == x.a 2
        let left := t.restores.filter fun r => r.word != x.a 2
        let reveal := fun (r : Route) =>
          if gone.any (fun g => Restore.inside g r.vrf r.af r.len r.pfx) && !(left.any fun g => Restore.inside g r.vrf r.af r.len r.pfx)
          then { r with hidden := false } else r
        { t with restores := left, routes := t.routes.map reveal }, .ok [])
    else
      let e := slice x.body 8 32
      let d := d.onDie (x.a 0) fun y => { y with emBad := y.emBad.filter (· != x.a 2) }
      if (d.emFind (x.a 0) (emKey e)).isSome then (d, .ok [])
      else (d.emPut (x.a 0) (x.a 2) (emWith e false (emDest e) (x.a 2)), .ok [])

/-- AGE_SET. -/
def cmdAgeSet : Cmd where
  op := 0x0808
  layout := [fd 1, fd 1, rs 2, fd 4]
  bad _ x :=
    badIf [(1, !(decide (x.a 0 < 6) || x.a 0 == 0xFF) || x.a 1 != 0),
      (4, x.a 2 != 0 && (decide (x.a 2 < 1000) || decide (3600000 < x.a 2)))]
  unavail := emDown
  run d x :=
    let l := if x.a 0 = 0xFF then (List.range 6).filter d.dieUp else [x.a 0]
    (d.each l fun n d => d.setReg (A.emScanMs n) (x.a 2), .ok [])

/-- R363: a lost trie node: the routes of its range go and its restore record stands. -/
def Dev.trieLost (d : Dev) (r : Restore) : Dev :=
  d.onTrie fun t =>
    { t with
      routes := t.routes.filter fun q => !(Restore.inside r q.vrf q.af q.len q.pfx)
      restores := { r with opened := d.uptimeNs / 1000000000 } :: t.restores.filter fun q => q.word != r.word }

/-- R361: the firmware's part: it opens the restore record and writes the event. -/
def Dev.eccEvent (d : Dev) (die table index : Nat) (r : Option Restore) : Dev :=
  let d := match r with
    | some r => d.onTrie fun t =>
        let stamp := fun (q : Restore) => if q.word = r.word then { q with opened := d.uptimeNs / 1000000000 } else q
        { t with restores := t.restores.map stamp }
    | none => d
  d.evTableRestore die table index

/-- The firmware acts now, or after its restart (R361). -/
def Dev.eccOwe (d : Dev) (die table index : Nat) (r : Option Restore) : Dev :=
  if d.fwServes then d.eccEvent die table index r
  else d.onPav fun p => { p with owed := p.owed ++ [(die, table, index, r)] }

/-- ECC_SCRUB (R360, R361): a read of a word finds an error. `mem`: 0 exact-match slot, 1 trie node, 2 next hop, 3 moving-entry
register. For a trie node the range is (VRF, AF, LEN, PREFIX) and its stage. -/
def execEccScrub (mem die index : Nat) (uncorrectable : Bool) (vrf af len pfx stage : Nat) (s : State) : Host.Outcome State Fault Refusal :=
  act (decide (mem < 4) && decide (die < 7) && decide (len ≤ 128) && decide (stage < 8)) (fun d =>
    if mem = 0 || mem = 3 then
      if die < 6 && d.dieUp die then
        if !uncorrectable then d.bump (A.em die 0x068)
        else if mem = 0 && index < emSlots then
          let d := d.onDie die fun x => { x with
            em := Tbl.erase x.em index, emBad := index :: x.emBad.filter (· != index) }
          (d.bump (A.em die 0x070)).eccOwe die 0 index none
        else d
      else d
    else if !d.domOn 15 then d
    else if !uncorrectable then d.bump (A.trie 0x028)
    else if mem = 1 then
      let r : Restore := { word := index, vrf := vrf, af := af, len := len, pfx := pfx, stage := stage, opened := 0 }
      ((d.bump (A.trie 0x030)).trieLost r).eccOwe 6 1 index (some r)
    else if (Tbl.get? d.data.trie.nh index).isSome then
      let d := (d.bump (A.trie 0x038)).onTrie fun t => { t with nh := Tbl.modify t.nh index fun h => { h with bad := true } }
      d.eccOwe 6 2 index none
    else d) s

/-- ROUTE_ADD. -/
def execRouteAdd (m : Msg) (s : State) : Host.Outcome State Fault Refusal := request cmdRouteAdd m s
/-- ROUTE_DELETE. -/
def execRouteDelete (m : Msg) (s : State) : Host.Outcome State Fault Refusal := request cmdRouteDelete m s
/-- ROUTE_BATCH. -/
def execRouteBatch (m : Msg) (s : State) : Host.Outcome State Fault Refusal := request cmdRouteBatch m s
/-- ROUTE_GET. -/
def execRouteGet (m : Msg) (s : State) : Host.Outcome State Fault Refusal := request cmdRouteGet m s
/-- NH_SET. -/
def execNhSet (m : Msg) (s : State) : Host.Outcome State Fault Refusal := request cmdNhSet m s
/-- EM_READ. -/
def execEmRead (m : Msg) (s : State) : Host.Outcome State Fault Refusal := request cmdEmRead m s
/-- EM_RESTORE. -/
def execEmRestore (m : Msg) (s : State) : Host.Outcome State Fault Refusal := request cmdEmRestore m s
/-- AGE_SET. -/
def execAgeSet (m : Msg) (s : State) : Host.Outcome State Fault Refusal := request cmdAgeSet m s

end Sys2Proof.Machine
end

