-- ==== Sys2Proof/Machine/Classify.lean ====
section
/-! DEFINITION. Classification: rule banks, matching, the spread and reorder stages, passes, fragments, exception classes, and the
rule group of commands (13_parsing_classification.md, Table 6-15).
Choices and readings: log entries 45, 46, 54, 56, 58, 120, 141, 142, 150, 152, 153 and 160. -/

namespace Sys2Proof.Machine

/-! ## Rules (R329 to R333) -/

/-- What a rule or a stored decision says (Table 13-6). -/
structure Decision where
  action : Nat
  exc : Nat := 0
  strip : Nat := 0
  cls : Nat := 0xFF
  flow : Nat := 0xFFFFFFFF
  vrf : Nat := 0xFFFF
  lookup : Nat := 0
  metaVal : Nat := 0
  rule : Option Nat := none

/-- The bank that is active in an epoch (R334). -/
def Cls.bank (c : Cls) (epoch : Nat) : Bank := if epoch % 2 = 0 then c.bankA else c.bankB

/-- NTERMS of a body. -/
def bodyTerms (b : Bytes) : Nat := leAt b 1 1

/-- Term `i` of a body. -/
def bodyTerm (b : Bytes) (i : Nat) : Bytes := slice b (16 + 16 * i) 16

/-- The action block. -/
def bodyAction (b : Bytes) (rule : Nat) : Decision :=
  let a := slice b (16 + 16 * bodyTerms b) 16
  { action := leAt a 0 1, exc := leAt a 1 1, strip := leAt a 2 1, cls := leAt a 3 1, flow := leAt a 4 4, vrf := leAt a 8 2
    lookup := leAt a 10 1, metaVal := leAt a 12 4, rule := some rule }

/-- A term is true (R332). -/
def termTrue (c : Ctx) (p : Parsed) (bs : Bytes) (len : Nat) (t : Bytes) : Bool :=
  let code := leAt t 0 1
  let sl := leAt t 2 1
  let op := leAt t 3 1
  let value := leAt t 4 6
  let mask := leAt t 10 6
  match fieldOf c p bs len code (leAt t 1 1) sl with
  | none => false
  | some v =>
    let f := if code = 0x1F then v else v / 2 ^ (48 * sl) % 2 ^ 48
    if op = 0 then Nat.land f mask == value
    else if op = 2 then Nat.land f mask != value
    else decide (value ≤ f) && decide (f ≤ mask)

/-- A pattern occurs wholly inside the window of 512 bytes (R329). -/
def occurs (pat bs : Bytes) : Bool :=
  let w := bs.take 512
  (List.range (w.length + 1 - pat.length)).any fun i => decide ((w.drop i).take pat.length = pat)

/-- A packet matches an entry (R330). -/
def Bank.matches' (k : Bank) (b : Bytes) (c : Ctx) (p : Parsed) (bs : Bytes) (len pass : Nat) : Bool :=
  let pat := leAt b 6 2
  bit (leAt b 0 1) 0
    && bit (leAt b 2 1) (if c.die < 4 then 0 else 1)
    && bit (leAt b 3 1) (pass - 1)
    && Nat.land (p.flags bs) (leAt b 5 1) == leAt b 4 1
    && (pat == 0xFFFF || (match Tbl.get? k.patterns pat with | some x => occurs x bs | none => false))
    && (List.range (bodyTerms b)).all fun i => termTrue c p bs len (bodyTerm b i)

/-- The entry with the lowest index that a packet matches decides it. -/
def Bank.decide' (k : Bank) (c : Ctx) (p : Parsed) (bs : Bytes) (len pass : Nat) : Option Decision :=
  (k.rules.find? fun e => k.matches' e.2 c p bs len pass).map fun e => bodyAction e.2 e.1

/-! ## Policers (R396, R400) -/

/-- Tokens after the refills of `k` tick edges (R396). -/
def refill (tokens : Int) (rate burst k : Nat) : Int :=
  if k = 0 then tokens else min (tokens + ((k * rate : Nat) : Int)) ((burst * 1024 : Nat) : Int)

/-- A policer with its refills applied. -/
def Policer.filled (p : Policer) (edges : Nat) : Policer :=
  { p with tokens := (refill p.tokens p.rate p.burst (edges - p.edge)).toNat, edge := edges }

/-- Police a frame of `len` bytes on its flow: whether it conforms (R394, R400). -/
def Dev.police (d : Dev) (flow len : Nat) : Bool × Dev :=
  let p := Policer.filled (d.pol flow) d.time.edges
  let l := 1024 * (len + 8)
  if p.rate = 0xFFFFFFFF then (true, d.onPol flow fun _ => { p with passed := p.passed + 1 })
  else if l ≤ p.tokens then (true, d.onPol flow fun _ => { p with tokens := p.tokens - l, passed := p.passed + 1 })
  else (false, d.onPol flow fun _ => { p with dropped := p.dropped + 1 })

/-! ## Exception classes (R340 to R342) -/

/-- A bucket after the time that has passed. -/
def ExcBucket.fill (b : ExcBucket) (now : Nat) : ExcBucket :=
  { b with tokens := min (b.burst * 1000000000) (b.tokens + (now - b.filledAt) * b.rate), filledAt := now }

/-- A packet goes to its exception class: its meter, PF1's ability to issue DMA, its queue. -/
def Dev.toException (d : Dev) (die : Nat) (pkt : Pkt) (cls : Nat) : Dev :=
  let pkt := { pkt with dest := .exc cls }
  let now := d.uptimeNs
  let d := (d.onExc cls fun b => ExcBucket.fill b now).onExc 16 fun b => ExcBucket.fill b now
  if 1000000000 ≤ (d.exc cls).tokens && 1000000000 ≤ (d.exc 16).tokens && (d.exc cls).rate != 0 then
    let take := fun (b : ExcBucket) => { b with tokens := b.tokens - 1000000000 }
    let d := ((d.onExc cls take).onExc 16 take).bump A.excTotalPassed
    if d.mayIssue 1 && !(d.dmaRunning (cls + 1)).isEmpty && decide ((d.getQ (.exc cls)).length < 64) then
      let before := (d.getQ (.exc cls)).length + d.data.buf.held.length + d.data.buf.recvQ.length
      let d := d.toPolder die pkt
      if before < (d.getQ (.exc cls)).length + d.data.buf.held.length + d.data.buf.recvQ.length then d.bump (A.excPassed cls)
      else d.bump (A.excDropped cls)
    else (d.bump (A.excDropped cls)).lost die pkt
  else (d.bump (A.excDropped cls)).lost die pkt

/-! ## Destination (R345, R346, R351) -/

/-- The Polder's part of Table 14-1 for a packet whose destination the ingress die has not decided. -/
def Dev.trieDest (d : Dev) (die : Nat) (pkt : Pkt) : Dev :=
  let ip := (parse pkt.data pkt.len).ip?
  let found : Option Route × Dev :=
    match ip with
    | some h =>
      if bit pkt.lookup 1 then (none, d)
      else
        let (af, _, dip) := ipAddrs pkt.data h
        (d.data.trie.lookup pkt.vrf af (if af = 4 then dip * 2 ^ 96 else dip), d.bump (A.trie 0x010))
    | none => (none, d)
  match found with
  | (none, d) => (d.bump (A.trie 0x018)).toException die pkt 4
  | (some r, d) =>
    match Tbl.get? d.data.trie.nh r.nh with
    | some h =>
      if h.bad then (d.bump (A.trie 0x020)).toException die pkt 5
      else (d.traceDest pkt 0xFFFFFFFF (8 * h.port + h.sub)).toPolder die
        { pkt with dest := .uplink (8 * h.port + h.sub), rewrite := some (h.dmac, h.vlan) }
    | none => (d.bump (A.trie 0x020)).toException die pkt 5

/-- A flow that queues frames: it exists and has a downstream bit (R390). -/
def Dev.flowQueues (d : Dev) (f : Nat) : Bool :=
  match d.flow? f with
  | some fl => bit fl.dir 0
  | none => false

/-- A forwarded packet leaves its ingress die for the Polder. -/
def Dev.forwardOut (d : Dev) (die : Nat) (pkt : Pkt) : Dev :=
  let d := d.stamp pkt 3
  if !d.linkCarries die && (d.dlink die).fatal then d.lost die pkt
  else
    match pkt.dest with
    | .none => d.trieDest die pkt
    | .flow f => if d.flowQueues f then (d.traceDest pkt f 0xFFFF).toPolder die pkt else d.lost die pkt
    | .uplink sp => (d.traceDest pkt 0xFFFFFFFF sp).toPolder die pkt
    | .exc c => d.toException die pkt c

/-! ## The reorder stage (R322 to R324, R264) -/

/-- Key of a source port's order state in a placement. -/
def orderKey (place src : Nat) : Nat := place * 2 ^ 20 + src

/-- The result waits for a fence: of the die's new placement, or of its ONU's new channel. -/
def Dev.fencedOff (d : Dev) (die : Nat) (pkt : Pkt) : Bool :=
  let x := d.die die
  (x.fence && pkt.place == x.place) ||
    (decide (die < 4) && x.onuFences.any fun f => f.1 == pkt.src && f.2.1 != pkt.ch && !f.2.2.2)

/-- The reorder stage releases a packet. -/
def Dev.released (d : Dev) (die : Nat) (pkt : Pkt) : Dev :=
  if d.fencedOff die pkt then
    let now := d.time.now
    d.onDie die fun x => { x with
      fenced := x.fenced ++ [pkt]
      fenceAt := if x.fence && x.fenceAt.isNone then some now else x.fenceAt
      onuFences := x.onuFences.map fun f => if f.1 == pkt.src && f.2.2.1.isNone then (f.1, f.2.1, some now, f.2.2.2) else f }
  else d.forwardOut die pkt

/-- Release what stands next in sequence. -/
def Dev.orderRun (d : Dev) (die key : Nat) : Nat → Dev
  | 0 => d
  | fuel + 1 =>
    let o := Tbl.look {} (d.die die).order key
    match o.done.find? fun e => e.1 == o.expect with
    | none => d
    | some e =>
      let o' : Order := { o with expect := o.expect + 1, done := o.done.filter fun q => q.1 != o.expect }
      let d := d.onDie die fun x => { x with order := Tbl.put {} x.order key o' }
      let d := match e.2.1 with
        | some p => d.released die p
        | none => d
      Dev.orderRun d die key fuel

/-- Note the outcome of a number, and release what stands next. -/
def Dev.orderAdd (d : Dev) (die : Nat) (pkt : Pkt) (res : Option Pkt) : Dev :=
  let key := orderKey pkt.place pkt.src
  let n := (Tbl.look {} (d.die die).order key).done.length
  let d := d.onDie die fun x => { x with order := Tbl.upd {} x.order key fun o =>
    if pkt.seq < o.expect then o else { o with done := o.done ++ [(pkt.seq, res, d.time.now)] } }
  d.orderRun die key (n + 1)

/-- A sequence number is filled by a finished packet, or given up. -/
def Dev.fillSeq (d : Dev) (die : Nat) (pkt : Pkt) (res : Option Pkt) : Dev :=
  let x := d.die die
  if pkt.loose then
    match res with
    | some p => d.released die p
    | none => d
  else if x.late && decide (pkt.place < x.place) then
    match res with
    | some p => (d.bump (A.cls die 0x068)).lost die p
    | none => d
  else if decide (die < 4) && x.onuFences.any (fun f => f.1 == pkt.src && f.2.1 == pkt.ch && f.2.2.2) then
    let d := match res with
      | some p => (d.bump (A.rngMigLate pkt.ch)).lost die p
      | none => d
    d.orderAdd die pkt none
  else d.orderAdd die pkt res
/-- The packet gives up its sequence number. -/
def Dev.giveUp (d : Dev) (die : Nat) (pkt : Pkt) : Dev := d.fillSeq die pkt none

/-- Let fenced results of a die go on, in order. -/
def Dev.fenceOpen (d : Dev) (die : Nat) : Dev :=
  let l := (d.die die).fenced
  let d := d.onDie die fun x => { x with fenced := [] }
  l.foldl (fun d p => d.released die p) d

/-! ## Actions (R333, R337 to R339) -/

/-- Rows 1 to 3 of Table 14-1 on the ingress die; none says that the packet is dropped (R346). -/
def Dev.ingressDest (d : Dev) (die : Nat) (pkt : Pkt) (p : Parsed) (flow : Nat) : Option Dest × Dev :=
  if flow ≠ 0xFFFFFFFF then (some (.flow flow), d)
  else if bit pkt.lookup 0 then (some .none, d)
  else
    let destOf := fun (e : Bytes) => if (emDest e).1 = 0 then Dest.uplink (emDest e).2 else Dest.flow (emDest e).2
    let self := fun (e : Bytes) =>
      if (emDest e).1 = 0 then decide (4 ≤ die) && (emDest e).2 == pkt.src
      else decide (die < 4) && (match d.flow? (emDest e).2 with | some fl => fl.onu == pkt.src | none => false)
    let macKey := le 1 0 ++ le 2 pkt.vrf ++ le 2 (p.vid pkt.data) ++ slice pkt.data 0 6 ++ List.replicate 10 0
    match d.emLookup die macKey with
    | (some (_, e), d) => if self e then (none, d.bump (A.em die 0x060)) else (some (destOf e), d)
    | (none, d) =>
      match p.ip? with
      | none => (some .none, d)
      | some h =>
        let (af, _, dip) := ipAddrs pkt.data h
        let key := if af = 4 then le 1 1 ++ le 2 pkt.vrf ++ le 2 0 ++ be 4 dip ++ List.replicate 12 0
          else le 1 2 ++ le 2 pkt.vrf ++ le 2 0 ++ be 16 dip
        match d.emLookup die key with
        | (some (_, e), d) => (some (destOf e), d)
        | (none, d) => (some .none, d)

/-- Forward a packet (rows 1 to 3), and hand it to the reorder stage. -/
def Dev.forward (d : Dev) (die : Nat) (pkt : Pkt) (p : Parsed) (flow : Nat) : Dev :=
  match d.ingressDest die pkt p flow with
  | (some dest, d) => (d.stamp pkt 2).fillSeq die pkt (some { pkt with dest := dest })
  | (none, d) => (d.lost die pkt).giveUp die pkt

/-- Bytes that RECIRCULATE removes: STRIP levels, or all parsed ones. -/
def stripBytes (p : Parsed) (strip : Nat) : Nat :=
  match (p.hdrs.take strip).getLast? with
  | some h => h.off + h.len
  | none => 0

/-- Act on a decision (R333). -/
def Dev.applyDecision (d : Dev) (die : Nat) (pkt : Pkt) (p : Parsed) (a : Decision) : Dev :=
  let pkt := { pkt with
    cls := if a.cls = 0xFF then p.pcp pkt.data else a.cls % 8, vrf := if a.vrf = 0xFFFF then 0 else a.vrf
    lookup := a.lookup, rule := a.rule }
  if a.action = 1 then (d.lost die pkt).giveUp die pkt
  else if a.action = 2 then (d.giveUp die pkt).toException die { pkt with metaVal := a.metaVal, raised := 1 } a.exc
  else if a.action = 4 then
    if 3 ≤ pkt.pass then ((d.bump (A.cls die 0x038)).lost die pkt).giveUp die pkt
    else
      let k := stripBytes p a.strip
      let next := { pkt with data := pkt.data.drop k, len := pkt.len - k, pass := pkt.pass + 1, metaVal := a.metaVal }
      d.onDie die fun x => { x with recirc := x.recirc ++ [next] }
  else
    let d := if a.action = 3 then d.toException die { pkt with metaVal := a.metaVal, copy := true, raised := 2 } a.exc else d
    d.forward die { pkt with metaVal := a.metaVal } p a.flow

/-- Clocks for which a stored fragment decision lives (R337). -/
def fragLife : Nat := 2000000

/-- The stored decision of a key. -/
def Dev.fragFind (d : Dev) (die : Nat) (key : List Nat) : Option FragDec :=
  (d.die die).frags.find? fun f => f.key == key && decide (d.uptimeNs < f.born + fragLife)

/-- A stored decision as an action. -/
def FragDec.decision (f : FragDec) : Decision :=
  { action := f.action, exc := f.exc, cls := f.cls, flow := f.flow, vrf := f.vrf, lookup := f.lookup, metaVal := f.metaVal, rule := f.rule }

/-- Store the decision of a first fragment (R337). Answers whether it is stored. -/
def Dev.fragStore (d : Dev) (die : Nat) (key : List Nat) (a : Decision) : Bool × Dev :=
  let x := d.die die
  let others := x.frags.filter fun f => f.key != key && decide (d.uptimeNs < f.born + fragLife)
  if 16384 ≤ others.length then (false, d.bump (A.cls die 0x050))
  else
    let f : FragDec := { key := key, action := a.action, exc := a.exc, cls := a.cls, flow := a.flow, vrf := a.vrf, lookup := a.lookup
                         metaVal := a.metaVal, rule := a.rule, born := d.uptimeNs }
    (true, (d.bump (A.cls die 0x048)).onDie die fun y => { y with frags := others ++ [f] })

/-- A fragment that finds no decision in time goes to exception class 3 (R338). -/
def Dev.fragLost (d : Dev) (die : Nat) (pkt : Pkt) : Dev := (d.bump (A.cls die 0x060)).toException die pkt 3

/-- Held fragments of a key take the decision that has been stored (R338, R339). -/
def Dev.fragRelease (d : Dev) (die : Nat) (key : List Nat) (a : Decision) : Dev :=
  let mine := (d.die die).holding.filter fun h => h.1 == key
  let d := d.onDie die fun x => { x with holding := x.holding.filter fun h => h.1 != key }
  mine.foldl (fun d h => d.applyDecision die h.2.1 (parse h.2.1.data h.2.1.len) a) d

/-- The rest of a pass once the packet is parsed and not dropped as malformed. -/
def Dev.decidePass (d : Dev) (die : Nat) (pkt : Pkt) (p : Parsed) : Dev :=
  let key := fun (k : List Nat) => pkt.src :: k
  let look := fun (_ : Unit) =>
    let c : Ctx := { die := pkt.die, src := pkt.src, xgem := pkt.xgem, flow := pkt.upFlow, metaVal := pkt.metaVal }
    (d.data.cls.bank pkt.epoch).decide' c p pkt.data pkt.len pkt.pass
  match p.frag with
  | some (k, true, _) =>
    match d.fragFind die (key k) with
    | some f => d.applyDecision die pkt p (FragDec.decision f)
    | none =>
      let d := d.giveUp die pkt
      if 2048 ≤ (d.die die).holding.length then d.fragLost die pkt
      else (d.bump (A.cls die 0x058)).onDie die fun x => { x with
        holding := x.holding ++ [(key k, { pkt with loose := true }, d.time.now)] }
  | fr =>
    match look () with
    | none => ((d.bump (A.cls die 0x018)).giveUp die pkt).toException die pkt 0
    | some a =>
      match fr with
      | some (k, false, true) =>
        match d.fragStore die (key k) a with
        | (true, d) => (d.applyDecision die pkt p a).fragRelease die (key k) a
        | (false, d) => d.applyDecision die pkt p a
      | _ => d.applyDecision die pkt p a

/-- One pass of a packet through a pipeline (R325 to R333). -/
def Dev.runPass (d : Dev) (die : Nat) (pkt : Pkt) : Dev :=
  let d := if pkt.pass = 1 then d.bump (A.cls die 0x010) else d.bump (A.cls die 0x030)
  let p := parse pkt.data pkt.len
  let d := if p.trunc then d.bump (A.cls die 0x028) else d
  if p.malformed then
    let d := if pkt.mal then d else d.bump (A.cls die 0x020)
    let pkt := { pkt with mal := true }
    let act' := fld (d.live' (A.clsCfg die)) 8 2
    if act' = 2 then d.decidePass die pkt p
    else
      let d := (d.giveUp die pkt).lost die pkt
      if act' = 1 then d else d.toException die { pkt with copy := true } 1
  else d.decidePass die pkt p

/-! ## The spread stage (R322) -/

/-- Pipelines in rotation (Table 13-9). -/
def Dev.pipes (d : Dev) (die : Nat) : Nat := fld (d.live' (A.clsCfg die)) 0 8

/-- The pipeline after `i` in rotation. -/
def nextPipe (mask : Nat) : Nat → Nat → Nat
  | 0, i => i
  | k + 1, i => if bit mask ((i + 1) % 8) then (i + 1) % 8 else nextPipe mask k ((i + 1) % 8)

/-- A packet leaves the input queue of a die. -/
def Dev.spread (d : Dev) (die : Nat) (pkt : Pkt) : Dev :=
  let x := d.die die
  let key := orderKey x.place pkt.src
  let o := Tbl.look {} x.order key
  let pkt := { pkt with die := die, seq := o.assign, place := x.place, epoch := d.data.cls.epoch, pass := 1, metaVal := 0 }
  let rot := nextPipe (d.pipes die) 8 x.rot
  let d := d.onDie die fun x => { x with order := Tbl.put {} x.order key { o with assign := o.assign + 1 }, rot := rot }
  let d := (d.perf die 0x010 1 (srcIds pkt)).perf die 0x011 pkt.len (srcIds pkt)
  let (pkt, d) := d.traceTag die pkt
  (d.stamp pkt 1).runPass die pkt

/-- RECIRCULATE_PASS (R333): the oldest recirculated packet of a die enters its next pass. -/
def execRecirculatePass (die : Nat) (s : State) : Host.Outcome State Fault Refusal :=
  act (decide (die < 6)) (fun d =>
    match (d.die die).recirc with
    | p :: rest => if d.dieUp die then ((d.onDie die fun x => { x with recirc := rest }).stamp p 1).runPass die p else d
    | [] => d) s

/-- REORDER_TIMEOUT (R323): the next number of a source port has been missing for 2 µs while later ones wait. -/
def execReorderTimeout (die src : Nat) (s : State) : Host.Outcome State Fault Refusal :=
  act (decide (die < 6)) (fun d =>
    let key := orderKey (d.die die).place src
    let o := Tbl.look {} (d.die die).order key
    match o.done.map fun e => e.2.2 with
    | [] => d
    | t :: ts =>
      let first := ts.foldl min t
      d.timer (first + 2000) fun d =>
        let low := (o.done.map Prod.fst).foldl min ((o.done.map Prod.fst).headD 0)
        let d := d.onDie die fun x => { x with order := Tbl.upd {} x.order key fun o => { o with expect := low } }
        let d := d.bump (A.cls die 0x070)
        let d := d.limited [0x0501, die] 1000000000 fun d => d.log 0x0501 die (le 1 die)
        d.orderRun die key (o.done.length + 1)) s

/-- FRAGMENT_DECISION_EXPIRY (R337). -/
def execFragmentDecisionExpiry (die : Nat) (s : State) : Host.Outcome State Fault Refusal :=
  act (decide (die < 6)) (fun d =>
    d.onDie die fun x => { x with frags := x.frags.filter fun f => decide (d.uptimeNs < f.born + fragLife) }) s

/-- FRAGMENT_HOLD_TIMEOUT (R338): the oldest held fragment has waited 500 µs. -/
def execFragmentHoldTimeout (die : Nat) (s : State) : Host.Outcome State Fault Refusal :=
  act (decide (die < 6)) (fun d =>
    match (d.die die).holding with
    | h :: rest => d.timer (h.2.2 + 500000) fun d => (d.onDie die fun x => { x with holding := rest }).fragLost die h.2.1
    | [] => d) s

/-- FENCE_TOKEN_ARRIVAL (R264, R324): every token of a die's old placement, or the token of an ONU's old channel, has arrived. -/
def execFenceTokenArrival (die : Nat) (onu : Option Nat) (s : State) : Host.Outcome State Fault Refusal :=
  act (decide (die < 6)) (fun d =>
    let d := match onu with
      | none => d.onDie die fun x => { x with fence := false, fenceAt := none }
      | some o => d.onDie die fun x => { x with onuFences := x.onuFences.filter fun f => f.1 != o || f.2.2.2 }
    d.fenceOpen die) s

/-- FENCE_WAIT_TIMEOUT (R264, R324): the first waiting result has waited 20 µs. -/
def execFenceWaitTimeout (die : Nat) (onu : Option Nat) (s : State) : Host.Outcome State Fault Refusal :=
  act (decide (die < 6)) (fun d =>
    match onu with
    | none =>
      match (d.die die).fenceAt with
      | some t => d.timer (t + 20000) fun d =>
          (d.onDie die fun x => { x with fence := false, fenceAt := none, late := true }).fenceOpen die
      | none => d
    | some o =>
      match ((d.die die).onuFences.find? fun f => f.1 == o && !f.2.2.2).bind fun f => f.2.2.1 with
      | some t => d.timer (t + 20000) fun d =>
          (d.onDie die fun x => { x with onuFences := x.onuFences.map fun f => if f.1 == o then (f.1, f.2.1, f.2.2.1, true) else f }).fenceOpen die
      | none => d) s

/-- R324: a PIPE_EN change takes effect at a T0. -/
def Dev.pipeChange (d : Dev) (die value : Nat) : Dev :=
  let old := d.live' (A.clsCfg die)
  let d := d.setLive (A.clsCfg die) value
  if value % 256 = old % 256 then d
  else d.onDie die fun x => { x with place := x.place + 1, late := false, fence := true, fenceAt := none }

/-! ## Bank swap (R335) -/

/-- Packets of an older epoch that a die still works on. -/
def Dev.oldEpoch (d : Dev) (die : Nat) : Bool :=
  let x := d.die die
  let old := fun (p : Pkt) => p.epoch != d.data.cls.epoch
  x.recirc.any old || x.fenced.any old ||
    x.order.any fun o => o.2.done.any fun e => match e.2.1 with | some p => old p | none => false

/-- RULE_SWAP's answer. -/
def Dev.swapAnswer (d : Dev) : Bytes := le 1 (d.data.cls.epoch % 2) ++ le 3 0 ++ le 4 d.data.cls.epoch ++ le 8 d.data.cls.swapTick

/-- SWAP_DONE: the inactive bank is writable, and RULE_SWAP is answered. -/
def Dev.swapFinish (d : Dev) : Dev :=
  let r := d.data.cls.req
  let d := d.onCls fun c => { c with draining := false, done := true, req := none }
  match r with
  | some r => d.answerOk true r d.swapAnswer
  | none => d

/-- The swap at its T0. -/
def Dev.swapNow (d : Dev) : Dev :=
  let d := d.onCls fun c => { c with
    epoch := (c.epoch + 1) % 2 ^ 32, swaps := (c.swaps + 1) % 2 ^ 32, pending := false, swapAt := d.time.now, swapTick := d.time.tick }
  if (List.range 6).any d.oldEpoch then d.onCls fun c => { c with draining := true } else d

/-- Drop every packet that still carries an older epoch (R335). -/
def Dev.dropOld (d : Dev) (die : Nat) : Dev :=
  let x := d.die die
  let old := fun (p : Pkt) => p.epoch != d.data.cls.epoch
  let waiting := x.order.flatMap fun o => o.2.done.filterMap fun e => e.2.1
  let gone := x.recirc.filter old ++ x.fenced.filter old ++ waiting.filter old
  let clear := fun (o : Order) => { o with done := o.done.map fun e =>
    match e.2.1 with
    | some p => if old p then (e.1, none, e.2.2) else e
    | none => e }
  let d := d.onDie die fun x => { x with
    recirc := x.recirc.filter fun p => !old p, fenced := x.fenced.filter fun p => !old p
    order := Tbl.mapPut {} x.order fun _ o => clear o }
  let d := (d.bump (A.cls die 0x038) gone.length)
  let d := gone.foldl (fun d p => d.lost die p) d
  (x.recirc.filter old).foldl (fun d p => d.giveUp die p) d

/-- SWAP_DRAIN_END: no packet of the old epoch remains, or T0 + 4 µs has come. -/
def execSwapDrainEnd (s : State) : Host.Outcome State Fault Refusal :=
  act true (fun d =>
    if !d.data.cls.draining then d
    else if !(List.range 6).any d.oldEpoch then d.swapFinish
    else d.timer (d.data.cls.swapAt + 4000) fun d => (d.each (List.range 6) fun n d => d.dropOld n).swapFinish) s

/-! ## Rule group (Table 6-15) -/

/-- No datapath die holds rule banks. -/
def rulesDown (d : Dev) (_ : Call) : Option Nat := if (List.range 6).any d.dieUp then none else some 0

/-- Change the inactive bank. -/
def Dev.onInactive (d : Dev) (g : Bank → Bank) : Dev :=
  d.onCls fun c => if c.epoch % 2 = 0 then { c with bankB := g c.bankB } else { c with bankA := g c.bankA }

/-- An empty BODY (R331). -/
def bodyEmpty (b : Bytes) : Bool := b.length == 16 && b.all (· == 0)

/-- Faults of a term at payload offset `o` (R332). -/
def termBad (t : Bytes) (o : Nat) : List (Nat × Bool) :=
  let code := leAt t 0 1
  let op := leAt t 3 1
  let value := leAt t 4 6
  let mask := leAt t 10 6
  [(o, fieldBits code == 0), (o + 1, decide (16 ≤ leAt t 1 1) && leAt t 1 1 != 0xFF),
    (o + 3, decide (3 ≤ op) || (op == 1 && (decide (48 < fieldBits code) || (code != 0x1F && leAt t 2 1 != 0)))),
    (o + 4, op != 1 && Nat.land value mask != value)]

/-- Offsets at fault in a RULE_WRITE payload (R331, Tables 13-3, 13-4, 13-6). -/
def ruleBad (b : Bytes) : List (Nat × Bool) :=
  let n := bodyTerms b
  let a := slice b (16 + 16 * n) 16
  let o := 8 + 16 + 16 * n
  [(8, decide (2 ≤ leAt b 0 1)), (9, decide (14 < n)),
    (10, leAt b 2 1 == 0 || decide (4 ≤ leAt b 2 1)), (11, leAt b 3 1 == 0 || decide (8 ≤ leAt b 3 1)),
    (12, decide (32 ≤ leAt b 4 1)), (13, decide (32 ≤ leAt b 5 1)),
    (14, decide (4096 ≤ leAt b 6 2) && leAt b 6 2 != 0xFFFF), (16, leAt b 8 8 != 0)] ++
  ((List.range n).flatMap fun i => termBad (bodyTerm b i) (8 + 16 + 16 * i)) ++
  [(o, decide (5 ≤ leAt a 0 1)), (o + 1, decide (16 ≤ leAt a 1 1)),
    (o + 2, leAt a 0 1 == 4 && (leAt a 2 1 == 0 || decide (16 ≤ leAt a 2 1))),
    (o + 3, decide (8 ≤ leAt a 3 1) && leAt a 3 1 != 0xFF), (o + 4, decide (2097152 ≤ leAt a 4 4) && leAt a 4 4 != 0xFFFFFFFF),
    (o + 8, decide (4096 ≤ leAt a 8 2) && leAt a 8 2 != 0xFFFF), (o + 10, decide (8 ≤ leAt a 10 1)), (o + 11, leAt a 11 1 != 0)]

/-- RULE_WRITE (R331). -/
def cmdRuleWrite : Cmd where
  op := 0x0701
  layout := [fd 4, fd 2, rs 2]
  tail := (16, 256, 16)
  mirrored := true
  bad _ x :=
    let b := x.body.drop 8
    badIf ([(0, decide (262144 ≤ x.a 0)),
      (4, x.a 1 != b.length || (!bodyEmpty b && b.length != 32 + 16 * bodyTerms b))] ++ (if bodyEmpty b then [] else ruleBad b))
  unavail := rulesDown
  run d x :=
    let b := x.body.drop 8
    (d.onInactive fun k => { k with rules := if bodyEmpty b then Tbl.erase k.rules (x.a 0) else Tbl.set k.rules (x.a 0) b }, .ok [])

/-- PATTERN_WRITE (R329). -/
def cmdPatternWrite : Cmd where
  op := 0x0702
  layout := [fd 2, fd 1, rs 1]
  tail := (1, 64, 1)
  mirrored := true
  bad _ x :=
    let b := x.body.drop 4
    badIf [(0, decide (4096 ≤ x.a 0)), (2, if x.a 1 = 0 then decide (b ≠ [0]) else x.a 1 != b.length)]
  unavail := rulesDown
  run d x :=
    let b := x.body.drop 4
    (d.onInactive fun k =>
      { k with patterns := if x.a 1 = 0 then Tbl.erase k.patterns (x.a 0) else Tbl.set k.patterns (x.a 0) b }, .ok [])

/-- RULE_READ. -/
def cmdRuleRead : Cmd where
  op := 0x0703
  layout := [fd 1, fd 1, rs 2, fd 4]
  bad _ x := badIf [(0, decide (2 ≤ x.a 0)), (1, decide (2 ≤ x.a 1)), (4, decide ((if x.a 1 = 0 then 262144 else 4096) ≤ x.a 2))]
  unavail := rulesDown
  run d x :=
    let k := if x.a 0 = 0 then d.data.cls.bankA else d.data.cls.bankB
    let b := ((if x.a 1 = 0 then Tbl.get? k.rules (x.a 2) else Tbl.get? k.patterns (x.a 2))).getD []
    (d, .ok (le 2 b.length ++ le 2 0 ++ b))

/-- RULE_COPY. -/
def cmdRuleCopy : Cmd where
  op := 0x0704
  mirrored := true
  unavail := rulesDown
  run d _ := (d.onInactive fun _ => d.data.cls.bank d.data.cls.epoch, .ok [])

/-- RULE_SWAP (R335): ordered for a tick edge, answered after SWAP_DONE. -/
def cmdRuleSwap : Cmd where
  op := 0x0705
  mirrored := true
  unavail := rulesDown
  run d x :=
    let d := d.onCls fun c => { c with pending := true, done := false }
    (d.onPon fun p => { p with commits := p.commits ++ [{ x.req d.time.now with from' := d.nextCommit }] }, .later)
  atEdge := some fun d x =>
    let d := d.swapNow
    if d.data.cls.draining then (d.onCls fun c => { c with req := some (x.req d.time.now) }, .later)
    else
      let d := d.onCls fun c => { c with done := true }
      (d, .ok d.swapAnswer)

/-- RULE_STATUS. -/
def cmdRuleStatus : Cmd where
  op := 0x0706
  caller := .x
  unavail d _ := if d.domOn 15 then none else some 0
  run d _ :=
    let c := d.data.cls
    (d, .ok (le 1 (c.epoch % 2) ++ le 3 0 ++ le 4 c.epoch ++ le 4 c.swaps))

/-- Bucket that CLASS names: 16 for the total limit. -/
def excIndex (c : Nat) : Nat := if c = 0xFF then 16 else c

/-- EXC_CLASS_SET (R341). -/
def cmdExcClassSet : Cmd where
  op := 0x0707
  layout := [fd 1, rs 3, fd 4, fd 4]
  mirrored := true
  bad _ x :=
    badIf [(0, decide (16 ≤ x.a 0) && x.a 0 != 0xFF), (4, decide (16000000 < x.a 1)), (8, x.a 2 == 0 || decide (65536 < x.a 2))]
  unavail d _ := if d.domOn 15 then none else some 0
  run d x :=
    (d.onExc (excIndex (x.a 0)) fun b =>
      let b := ExcBucket.fill b d.uptimeNs
      { b with rate := x.a 1, burst := x.a 2, tokens := min b.tokens (x.a 2 * 1000000000) }, .ok [])

/-- EXC_CLASS_GET. The total has no dropped count; that field is a free value. -/
def cmdExcClassGet : Cmd where
  op := 0x0708
  caller := .x
  layout := [fd 1, rs 3]
  bad _ x := badIf [(0, decide (16 ≤ x.a 0) && x.a 0 != 0xFF)]
  unavail d _ := if d.domOn 15 then none else some 0
  run d x :=
    let b := d.exc (excIndex (x.a 0))
    if x.a 0 = 0xFF then
      let (r, d) := d.draw
      (d, .ok (le 4 b.rate ++ le 4 b.burst ++ le 8 (d.ctr A.excTotalPassed) ++ le 8 r))
    else (d, .ok (le 4 b.rate ++ le 4 b.burst ++ le 8 (d.ctr (A.excPassed (x.a 0))) ++ le 8 (d.ctr (A.excDropped (x.a 0)))))

/-- RULE_WRITE. -/
def execRuleWrite (m : Msg) (s : State) : Host.Outcome State Fault Refusal := request cmdRuleWrite m s
/-- PATTERN_WRITE. -/
def execPatternWrite (m : Msg) (s : State) : Host.Outcome State Fault Refusal := request cmdPatternWrite m s
/-- RULE_READ. -/
def execRuleRead (m : Msg) (s : State) : Host.Outcome State Fault Refusal := request cmdRuleRead m s
/-- RULE_COPY. -/
def execRuleCopy (m : Msg) (s : State) : Host.Outcome State Fault Refusal := request cmdRuleCopy m s
/-- RULE_SWAP. -/
def execRuleSwap (m : Msg) (s : State) : Host.Outcome State Fault Refusal := request cmdRuleSwap m s
/-- RULE_STATUS. -/
def execRuleStatus (m : Msg) (s : State) : Host.Outcome State Fault Refusal := request cmdRuleStatus m s
/-- EXC_CLASS_SET. -/
def execExcClassSet (m : Msg) (s : State) : Host.Outcome State Fault Refusal := request cmdExcClassSet m s
/-- EXC_CLASS_GET. -/
def execExcClassGet (m : Msg) (s : State) : Host.Outcome State Fault Refusal := request cmdExcClassGet m s

end Sys2Proof.Machine
end

