-- ==== Sys2Proof/Machine/Ranging.lean ====
section
/-! DEFINITION. Discovery, ranging, activation, drift and wavelength migration (10_discovery_ranging.md). Upstream positions are
counted in blocks of 64 line bits; block `a * M` is the first of upstream microframe `a`.
Choices and readings: log entries 100, 101, 102, 103, 104, 105, 106, 107 and 110. -/

namespace Sys2Proof.Machine

/-! ## Units (R249, R270, R282) -/

/-- Line bits of an upstream microframe, by US_RATE. -/
def mfBits (rate : Nat) : Nat := nth 777600 [77760, 97200, 194400, 388800, 777600] rate

/-- Blocks of an upstream microframe. -/
def mfBlocks (rate : Nat) : Nat := mfBits rate / 64

/-- Upstream bits in a time, rounded down. -/
def psBits (rate ps : Nat) : Nat := ps * 2 * mfBits rate / 15625000

/-- Upstream bits in a time, rounded up. -/
def psBitsUp (rate ps : Nat) : Nat := ceilDiv (ps * 2 * mfBits rate) 15625000

/-- Nanoseconds that upstream bits last, rounded up. -/
def bitsNs (rate bits : Nat) : Nat := ceilDiv (bits * 15625) (2 * mfBits rate)

/-- RTD_lo and RTD_hi of a distance in metres, in ps (Table 10-6). -/
def rtdLo (m : Nat) : Nat := 9795 * m + 34000000
def rtdHi (m : Nat) : Nat := 9795 * m + 37000000

/-- Minimum preamble and guard in bits (Table 9-1). -/
def preambleOf (rate : Nat) : Nat := nth 4800 [1216, 1280, 1600, 2816, 4800] rate
def guardOf (rate : Nat) : Nat := nth 1216 [128, 192, 320, 640, 1216] rate

/-- Blocks of guard, preamble and delimiter of a profile (R221, Table 9-2). -/
def overhead (rate profile : Nat) : Nat := (guardOf rate + 2 ^ profile * preambleOf rate + 64) / 64

/-- Line blocks of `i` content blocks with FEC parity (R229, R282). -/
def lineBlocks (rate i : Nat) : Nat :=
  if rate = 0 then 31 * (i / 29) + (if i % 29 = 0 then 0 else i % 29 + 2)
  else 270 * (i / 228) + (if i % 228 = 0 then 0 else i % 228 + 42)

/-- Line blocks of the content of a burst with one PLOAM message and no payload. -/
def ploamBurst (rate : Nat) : Nat := lineBlocks rate 8

/-- The upstream microframe that a map published at a tick addresses (R270). -/
def mfAddressed (mode tick : Nat) : Nat := if mode = 2 then tick else tick + 15

/-! ## Reach (R249 to R252, R255) -/

/-- D_MIN and D_MAX in use. -/
def Dev.reachOf (d : Dev) (c : Nat) : Nat × Nat := (d.recv c).reach.getD (clampReach (d.reg (A.rngReach c)))

/-- Teqd of a channel's tree in bits. -/
def Dev.teqd (d : Dev) (c : Nat) : Nat := psBitsUp (d.chan c).usRate (rtdHi (d.reachOf c).2)

/-- EQD_PRE of a window whose span begins at `m` metres (R254). -/
def Dev.eqdPreOf (d : Dev) (c m : Nat) : Nat := d.teqd c - psBits (d.chan c).usRate (rtdLo m)

/-- R252 in units of 100 m: the distance of an equalisation delay, rounded down and rounded up. -/
def Dev.distOf (d : Dev) (c eqd : Nat) : Nat × Nat :=
  let b := 2 * mfBits (d.chan c).usRate
  let num := (d.teqd c - eqd) * 15625000 - 35000000 * b
  (num / (b * 979500), ceilDiv num (b * 979500))

/-- R255: distances that bound D_LO and D_HI, as pairs rounded down and up to 100 m: the ranged entries and the fibre ends of the
last completed reflectometry run. -/
def Dev.geoPoints (d : Dev) (t : Nat) : List (Nat × Nat) :=
  let o := d.otdrOf t
  let evs := if o.valid then o.events else o.prev
  ((d.pon.onus.filter fun e => e.2.state != .absent && e.2.tree == t && e.2.eqd != 0).map fun e => d.distOf e.2.channel e.2.eqd) ++
    ((evs.filter fun e => e.2.1 == 0xFFFF).map fun e => (e.1 / 1000, ceilDiv e.1 1000))

/-- GEO_VALID, D_LO and D_HI (Table 10-16). -/
def Dev.geo (d : Dev) (c : Nat) : Bool × Nat × Nat :=
  match (d.chan c).tree with
  | none => (false, 0, 0)
  | some t =>
    let ranged := d.pon.onus.any fun e => e.2.state != .absent && e.2.tree == t && e.2.eqd != 0
    let l := d.geoPoints t
    if ranged then (true, min 1023 ((l.map Prod.fst).foldl min ((l.headD (0, 0)).1)), min 1023 ((l.map Prod.snd).foldl max 0))
    else (false, 0, 0)

/-- The span of the next serial-number window of a channel in metres (R255). -/
def Dev.span (d : Dev) (c : Nat) (full : Bool) : Nat × Nat :=
  let (lo, hi) := d.reachOf c
  let (valid, glo, ghi) := d.geo c
  let margin := 100 * fld (d.live' (A.rngParam c)) 24 8
  if valid && !full && bit (d.live' (A.rngCfg c)) 13 then (max lo (100 * glo - margin), min hi (100 * ghi + margin)) else (lo, hi)

/-- Length of a serial-number window in ps (R254). -/
def windowPs (lo hi : Nat) : Nat := 9795 * (hi - lo) + 53000000

/-! ## The engine runs -/

/-- The ranging engine acts for a channel: it serves, and this device transmits (R441). -/
def Dev.rngRuns (d : Dev) (c : Nat) : Bool := d.chanUp c && d.serves c && !d.shadow

/-- Firmware and engine both act: no Pavilion restart runs (R248). -/
def Dev.rngServes (d : Dev) (c : Nat) : Bool := d.rngRuns c && d.fwServes

/-! ## Placing windows (R253 to R256, R260, R261, R263, R267) -/

/-- No window of the channel overlaps the blocks `lo` to `hi`. -/
def winFree (wins : List Win) (lo hi : Nat) : Bool := wins.all fun w => decide (hi ≤ w.lo) || decide (w.hi ≤ lo)

/-- A signed offset added to a position. -/
def shift (p : Nat) (o : Int) : Nat := ((p : Int) + o).toNat

/-- Blocks that hold a signed number of bits: towards minus infinity, and towards plus infinity. -/
def blkDown (i : Int) : Int := i / 64
def blkUp (i : Int) : Int := -((-i) / 64)

/-- Place a window with offsets `lo` to `hi` blocks from its grant, at the first free of its candidate positions in microframe `a`. -/
def placeAt (wins : List Win) (first stop : Nat) (lo hi : Int) : Option Nat :=
  let after := wins.filterMap fun w =>
    let g := (w.hi : Int) - lo
    if (first : Int) ≤ g && g < (stop : Int) then some g.toNat else none
  (first :: after.mergeSort (· ≤ ·)).find? fun g => decide ((g : Int) + lo ≥ 0) && winFree wins (shift g lo) (shift g hi)

/-- The map entry of a window (Table 11-4, R261). -/
def Dev.winEntry (d : Dev) (c m : Nat) (w : Win) : Entry :=
  if w.kind = 0 || w.kind = 3 then
    { alloc := 1023, onu := 0x10000, ploamu := true, start := w.grant % m, profile := 1, ranging := true }
  else
    let o := d.onu w.who
    { alloc := o.lineId, onu := w.who, ploamu := true, start := w.grant % m, profile := 1, ranging := true }

/-- EQD_PRE that an ONU in activation uses: that of the last window, or of a full one (R261). -/
def Dev.preNow (d : Dev) (c : Nat) : Nat :=
  if (d.recv c).eqdPre = 0 then d.eqdPreOf c (d.reachOf c).1 else (d.recv c).eqdPre

/-- Window of an ONU in activation step 1, as offsets in bits with EQD_PRE (Table 10-9). -/
def Dev.rangeSpan (d : Dev) (c o : Nat) : Int × Int :=
  let rate := (d.chan c).usRate
  let e := d.onu o
  let pre : Int := d.preNow c
  let us2 : Int := psBitsUp rate 2000000
  if e.eqd ≠ 0 && e.tries = 0 then (pre - e.eqd - us2, pre - e.eqd + us2)
  else if e.est.1 = 1 then (e.est.2 + pre - psBitsUp rate 100000, e.est.2 + pre + psBitsUp rate 100000)
  else (e.est.2 + pre - psBitsUp rate 48000000, e.est.2 + pre + us2)

/-- Channels that carry arrival grants for a migrating ONU, each with the frames between which they stand (Tables 10-10 and 18-5). -/
def Dev.arrivalSpan (d : Dev) (o : Nat) : List (Nat × Nat × Nat) :=
  let e := d.onu o
  match e.migr with
  | some m =>
    let rb := 8 * (e.tuneMs + 10)
    if e.state ≠ .migrating || e.moveTo.isSome then []
    else if m.both then [(m.old, m.waitTo - rb, m.waitTo), (m.target, m.waitTo - rb, m.waitTo)]
    else if m.rollback then [(m.old, m.waitTo - rb, m.waitTo)]
    else [(m.target, m.fs + 8 * e.tuneMs, m.fs + rb + m.lost)]
  | none => []

/-- Add a placed window. -/
def Dev.addWin (d : Dev) (c : Nat) (w : Win) : Dev :=
  let d := d.onRecv c fun r => { r with wins := r.wins ++ [w] }
  if w.kind = 0 || w.kind = 1 then
    let rate := (d.chan c).usRate
    (d.bump (A.rngQw c)).bump (A.rngQwNs c) (bitsNs rate (64 * (w.hi - w.lo)))
  else d

/-- Arrival grants that this frame places on the channel. -/
def Dev.placeArrivals (d : Dev) (c a : Nat) : Dev :=
  let rate := (d.chan c).usRate
  let m := mfBlocks rate
  let us2 := ceilDiv (psBitsUp rate 2000000) 64
  let before := overhead rate 1 + us2
  let who := d.onusWith fun o => o.state == .migrating
  d.each who fun o d =>
    match (d.arrivalSpan o).find? fun x => x.1 == c with
    | some (_, f0, f1) =>
      if decide (f0 ≤ a / 16) && decide (a / 16 < f1) then
        match placeAt (d.recv c).wins (a * m + before) ((a + 1) * m - us2 - ploamBurst rate) (-(before : Int)) (us2 + ploamBurst rate) with
        | some g => d.addWin c { kind := 2, who := o, grant := g, lo := g - before, hi := g + us2 + ploamBurst rate, eqdPre := 0 }
        | none => d
      else d
    | none => d

/-- Ranging windows that this frame places on the channel. -/
def Dev.placeRanging (d : Dev) (c a : Nat) : Dev :=
  let rate := (d.chan c).usRate
  let m := mfBlocks rate
  let cfg := d.live' (A.rngCfg c)
  let who := d.onusWith fun o => o.state == .ranging && o.channel == c && o.step == 1
  d.each who fun o d =>
    let e := d.onu o
    let placed := (d.recv c).wins.any fun w => w.kind == 1 && w.who == o
    if placed || decide (d.frame < e.stepBy) || decide (max 1 (fld cfg 20 4) ≤ e.tries) then d
    else
      let (l, h) := d.rangeSpan c o
      let lo := blkDown l
      let hi := blkUp h + overhead rate 1 + ploamBurst rate
      match placeAt (d.recv c).wins (a * m + overhead rate 1) ((a + 1) * m) lo hi with
      | some g => d.addWin c { kind := 1, who := o, grant := g, lo := shift g lo, hi := shift g hi, eqdPre := d.preNow c }
      | none => d

/-- The serial-number window that is due, if one is; one that does not fit moves to the next frame. -/
def Dev.placeSerial (d : Dev) (c a : Nat) : Dev :=
  let rate := (d.chan c).usRate
  let m := mfBlocks rate
  match (d.recv c).wants with
  | (f, dlo, dhi) :: rest =>
    if d.frame < f then d
    else
      let len := ceilDiv (psBitsUp rate (windowPs dlo dhi)) 64 + overhead rate 1
      let lo := a * m
      if winFree (d.recv c).wins lo (lo + len) then
        (d.onRecv c fun r => { r with wants := rest }).addWin c
          { kind := 0, who := 0x10000, grant := lo + overhead rate 1, lo := lo, hi := lo + len, eqdPre := d.eqdPreOf c dlo }
      else d.onRecv c fun r => { r with wants := if rest.any fun w => w.1 == d.frame + 1 then rest else (d.frame + 1, dlo, dhi) :: rest }
  | [] => d

/-- R253, R254: two frames before a serial-number window its delay is announced. -/
def Dev.announce (d : Dev) (c : Nat) : Dev :=
  let cfg := d.live' (A.rngCfg c)
  let period := fld cfg 0 12
  let f := d.frame + 2
  if period = 0 || f % period ≠ c % period then d
  else
    let every := max 1 (fld cfg 16 4)
    let n := (d.recv c).sinceFull + 1
    let (lo, hi) := d.span c (decide (every ≤ n))
    let pre := d.eqdPreOf c lo
    let d := d.onRecv c fun r => { r with sinceFull := n % every, wants := r.wants ++ [(f, lo, hi)], eqdPre := pre }
    d.emit (.ploam c none "Pre-assigned_Delay" (le 4 pre))

/-- EXT_SPREAD_DISC (R257, R260, Table 10-7) with its acknowledged slots: (code, MF_INDEX, frame, START). -/
def Dev.spreadDisc (d : Dev) (c : Nat) (acks : List (Nat × Nat × Nat × Nat)) : Dev :=
  let p := d.live' (A.rngParam c)
  let ack := fun (a : Nat × Nat × Nat × Nat) => le 2 a.1 ++ le 1 a.2.1 ++ le 1 0 ++ le 4 a.2.2.1 ++ le 4 a.2.2.2
  let flags := 1 + 2 * nb (decide (1 ≤ acks.length)) + 4 * nb (decide (2 ≤ acks.length))
  let two := (acks.take 2).flatMap ack
  let body := le 1 flags ++ le 1 (fld p 0 6) ++ le 2 (fld p 8 3) ++ le 4 (d.eqdPreOf c (d.reachOf c).1) ++ two
              ++ List.replicate (24 - two.length) 0 ++ le 4 0
  d.emit (.ploam c none "EXT_SPREAD_DISC" body)

/-- Clock at which an upstream position reaches the receiver (R269). -/
def Dev.posClock (d : Dev) (c p : Nat) : Nat :=
  let ch := d.chan c
  let m := mfBlocks ch.usRate
  d.t0Of (p / m) + dsOffset ch.mode + bitsNs ch.usRate (((d.teqd c + 64 * (p % m) : Nat) : Int) + (d.recv c).shift).toNat

/-- Windows other than ranging windows go once they have passed; a spread slot without a message earns its code no
ACK in the next integration (R260). -/
def Dev.pruneWins (d : Dev) (c : Nat) : Dev :=
  let past := fun (w : Win) => w.kind != 1 && decide (d.posClock c w.hi + 7813 ≤ d.time.now)
  let silent := ((d.recv c).wins.filter fun w => past w && w.kind == 3).map (·.who)
  d.onRecv c fun r => { r with
    wins := r.wins.filter fun w => !past w, heard := r.heard.filter fun h => !past h.1, noAck := r.noAck ++ silent }

/-- The ranging engine's part of the build for the map of the next tick: its entries, and the windows it has placed. -/
def Dev.placeWindows (d : Dev) (c : Nat) : List Entry × Dev :=
  if !d.rngRuns c then ([], d)
  else
    let ch := d.chan c
    let m := mfBlocks ch.usRate
    let a := mfAddressed ch.mode (d.time.tick + 1)
    let d := d.pruneWins c
    let d := if d.time.tick % 16 = 0 then
        let d := d.announce c
        let d := if d.frame % 8 = 0 && bit (d.live' (A.rngCfg c)) 14 then d.spreadDisc c [] else d
        ((d.placeArrivals c a).placeRanging c a).placeSerial c a
      else d
    (((d.recv c).wins.filter fun w => w.grant / m == a).map fun w => d.winEntry c m w, d)

/-! ## Bursts in windows (R226) -/

/-- QUIET_WINDOW_BURST: a burst found in a window is handed to the ranging engine with its arrival offset from the grant. -/
def execQuietWindowBurst (channel win : Nat) (offset : Int) (s : State) : Host.Outcome State Fault Refusal :=
  act (decide (channel < 512)) (fun d =>
    match (d.recv channel).wins[win]? with
    | some w =>
      let at' := (64 * w.grant : Int) + offset
      if d.rngRuns channel && w.kind != 2 && decide ((64 * w.lo : Int) ≤ at') && decide (at' < (64 * w.hi : Int)) then
        d.onRecv channel fun r => { r with heard := r.heard ++ [(w, offset)] }
      else d
    | none => d) s

/-! ## Serial numbers (R245 to R248) -/

/-- The serial number is not admitted. -/
def Dev.discDrop (d : Dev) (c : Nat) : Dev := d.bump (A.rngDiscDrop c)

/-- Where an unknown serial number is admitted (R247). -/
def Dev.admitSerial (d : Dev) (t c serial : Nat) (est : Nat × Int) : Dev :=
  let d := d.onTree t fun x => Tree.fill x d.uptimeNs
  match d.tree? t with
  | some tr =>
    if 1000000000 ≤ tr.tokens && tr.rate != 0 && decide (d.treeUnauth t < 32) && decide (d.chanOnus c < 256)
        && decide ((d.treeOnus t).length < 512) then
      let d := d.onTree t fun x => { x with tokens := x.tokens - 1000000000 }
      let id := lowest (d.onusWith fun _ => true) ((d.onusWith fun _ => true).length + 1) 0
      (d.createOnu t c serial).onOnu id fun o => if o.serial = serial then { o with est := est } else o
    else d.discDrop c
  | none => d.discDrop c

/-- Table 10-5. -/
def Dev.serialRx (d : Dev) (t c serial : Nat) (est : Nat × Int) : Dev :=
  match (d.pon.onus.find? fun e => Onu.held' e.2 && e.2.serial == serial).map Prod.fst with
  | none => d.admitSerial t c serial est
  | some o =>
    let e := d.onu o
    let identOf := fun x => (d.tree? x).map (·.ident)
    if e.tree ≠ t then
      if identOf e.tree = identOf t then d.discDrop c
      else (d.onTree t fun x => { x with identOk := false }).evLineFault c o 4
    else
      match e.state with
      | .absent => d
      | .discovered =>
        if !e.auth then (d.onOnu o fun x => { x with est := est }).assignId o
        else if e.channel ≠ c && decide (256 ≤ d.chanOnus c) then d.discDrop c
        else (d.onOnu o fun x => { x with est := est, moveCh := some c }).orderMove o .ranging 1
      | .quarantined => (d.disableSn o true).discDrop c
      | _ => d.discDrop c

/-- SERIAL_NUMBER_RX (R245): the oldest burst that a quiet window or spread slot handed over carries a serial number. -/
def execSerialNumberRx (channel : Nat) (serial : BitVec 64) (s : State) : Host.Outcome State Fault Refusal :=
  act (decide (channel < 512)) (fun d =>
    match (d.recv channel).heard.find? fun h => h.1.kind == 0 || h.1.kind == 3 with
    | some (w, off) =>
      if d.rngRuns channel then
        let d := d.onRecv channel fun r => { r with
          heard := r.heard.filter fun h => h != (w, off), wins := if w.kind = 3 then r.wins.filter (· != w) else r.wins }
        let d := d.bump (A.rngSnRx channel)
        match (d.chan channel).tree with
        | some t =>
          if d.fwServes then d.serialRx t channel serial.toNat (if w.kind = 3 then 1 else 0, off - w.eqdPre) else d.discDrop channel
        | none => d.discDrop channel
      else d
    | none => d) s

/-- DISCOVERY_HOLD_EXPIRY (R244): 8 s in DISCOVERED without ONU_AUTHORISE. -/
def execDiscoveryHoldExpiry (onu : Nat) (s : State) : Host.Outcome State Fault Refusal :=
  act (decide (onu < 65536)) (fun d =>
    let e := d.onu onu
    if d.rngServes e.channel && e.state == .discovered && !e.auth && decide (e.since + 8000000000 ≤ d.uptimeNs) then
      d.orderTimer onu .quarantined 4
    else d) s

/-! ## Activation (R261, Table 10-8) -/

/-- Step 3: the registration is requested. -/
def Dev.askRegistration (d : Dev) (o : Nat) : Dev :=
  (d.ploamTo o "Request_Registration" []).onOnu o fun x => { x with step := 3, tries := x.tries + 1, stepBy := d.frame + 8 }

/-- Step 4: EXT_CAPS_QUERY. -/
def Dev.askCaps (d : Dev) (o : Nat) : Dev :=
  let olt := if (d.chan (d.onu o).channel).mode = 2 then 7 else 6
  (d.ploamTo o "EXT_CAPS_QUERY" (le 1 olt ++ le 1 1)).onOnu o fun x => { x with step := 4, tries := 1, stepBy := d.frame + 8 }

/-- Step 5: the first unicast key is requested. -/
def Dev.askKey (d : Dev) (o : Nat) : Dev :=
  let d := d.onOnu o fun x => { x with step := 5, tries := 1, keys := { x.keys with sent := 0, active := 0, k1 := none, k2 := none, frag := none } }
  d.keyRequest (.onu o)

/-- A step fails: DISCOVERED with cause 0x03, on a timer. -/
def Dev.activationFails (d : Dev) (o : Nat) : Dev := d.orderTimer o .discovered 3

/-- RANGING_RESPONSE: the ONU's burst in its ranging window; steps 2 and 3. -/
def execRangingResponse (onu : Nat) (s : State) : Host.Outcome State Fault Refusal :=
  act (decide (onu < 65536)) (fun d =>
    let e := d.onu onu
    match (d.recv e.channel).heard.find? fun h => h.1.kind == 1 && h.1.who == onu with
    | some (w, off) =>
      if d.rngRuns e.channel && e.state == .ranging && e.step == 1 then
        let d := d.onRecv e.channel fun r => { r with heard := r.heard.filter fun h => h != (w, off), wins := r.wins.filter (· != w) }
        let eqd := ((w.eqdPre : Int) - off).toNat
        let d := d.onOnu onu fun x => { x with eqd := eqd, step := 2, tries := 0, blockN := 0, blockSum := 0, eqdNext := none }
        (d.ploamTo onu "Ranging_Time" (le 4 eqd)).askRegistration onu
      else d
    | none => d) s

/-- ACTIVATION_STEP_TIMEOUT: the limit of the present step of Table 10-8 has passed without its answer. -/
def execActivationStepTimeout (onu : Nat) (s : State) : Host.Outcome State Fault Refusal :=
  act (decide (onu < 65536)) (fun d =>
    let e := d.onu onu
    let c := e.channel
    if !d.rngRuns c || e.state != .ranging then d
    else if e.step = 1 then
      match (d.recv c).wins.find? fun w => w.kind == 1 && w.who == onu with
      | some w =>
        if d.posClock c w.hi ≤ d.time.now then
          let d := (d.onRecv c fun r => { r with wins := r.wins.filter (· != w), heard := r.heard.filter fun h => h.1 != w }).bump (A.rngRangeFail c)
          let d := d.onOnu onu fun x => { x with tries := x.tries + 1, stepBy := d.frame + 2 }
          if max 1 (fld (d.live' (A.rngCfg c)) 20 4) ≤ e.tries + 1 then d.activationFails onu else d
        else d
      | none => d
    else if e.step = 3 && decide (e.stepBy ≤ d.frame) then
      if e.tries < 3 then d.askRegistration onu else d.activationFails onu
    else if e.step = 4 && decide (e.stepBy ≤ d.frame) then d.askKey onu
    else if e.step = 5 && decide (e.keys.sentAt + 100000000 ≤ d.uptimeNs) && d.fwServes then
      if e.keys.sent < 3 then d.keyRequest (.onu onu) else d.activationFails onu
    else d) s

/-- REGISTRATION_RX: step 3's answer. -/
def execRegistrationRx (onu : Nat) (regId : Bytes) (s : State) : Host.Outcome State Fault Refusal :=
  act (decide (onu < 65536) && decide (regId.length ≤ 36)) (fun d =>
    let e := d.onu onu
    if d.rngRuns e.channel && e.state == .ranging && e.step == 3 then
      if e.regId.all (· == 0) || slice regId 0 36 == slice e.regId 0 36 then d.askCaps onu else d.orderMove onu .quarantined 5
    else d) s

/-- EXT_CAPS_RX (R195, R196): step 4's answer; CAPS bits 1 and 2 and the tuning fields. -/
def execExtCapsRx (onu caps tuneDs tuneUs tuneMs : Nat) (s : State) : Host.Outcome State Fault Refusal :=
  act (decide (onu < 65536) && decide (caps < 256) && decide (tuneDs < 65536) && decide (tuneUs < 65536) && decide (tuneMs < 65536)) (fun d =>
    let e := d.onu onu
    if d.rngRuns e.channel && e.state == .ranging && e.step == 4 then
      (d.onOnu onu fun x => { x with
        caps := x.caps % 2 + 2 * fld caps 1 2, tuneDs := tuneDs, tuneUs := tuneUs, tuneMs := tuneMs }).askKey onu
    else d) s

/-- ONU_KEY_RX (R200, R261 step 5): the ONU reports a key, or with ALG 1 one of its two 16-byte fragments. -/
def execOnuKeyRx (onu : Nat) (key : Bytes) (s : State) : Host.Outcome State Fault Refusal :=
  act (decide (onu < 65536) && (key.length == 16 || key.length == 32)) (fun d =>
    let e := d.onu onu
    let alg := (d.chan e.channel).alg
    let r := Ring.onu onu
    let first := e.state == .ranging && e.step == 5 && e.keys.active == 0
    let roll := e.state == .operating && e.keys.rolling && (Keys.key e.keys (Keys.other e.keys)).isNone
    if !d.fwServes || d.standby || !(first || roll) then d
    else
      let take := fun (k : Bytes) =>
        if first then (d.firstKey r { alg := alg, key := k }).onOnu onu fun x => { x with step := 6 }
        else d.loadKey r { alg := alg, key := k }
      if key.length = keyBytes alg then take key
      else if alg = 1 then
        match e.keys.frag with
        | some f => take (f ++ key)
        | none => d.onRing r fun k => { k with frag := some key }
      else d) s

/-- ACTIVATION_COMPLETE (R244): every step of Table 10-8 is done. -/
def execActivationComplete (onu : Nat) (s : State) : Host.Outcome State Fault Refusal :=
  act (decide (onu < 65536)) (fun d =>
    let e := d.onu onu
    if d.rngRuns e.channel && e.state == .ranging && e.step == 6 then
      d.orderMove onu (if e.held then .suspended else .operating) 2
    else d) s

/-! ## Loss and drift (R244, R262) -/

/-- DYING_GASP: cause 0x08. -/
def execDyingGasp (onu : Nat) (s : State) : Host.Outcome State Fault Refusal :=
  act (decide (onu < 65536)) (fun d =>
    let e := d.onu onu
    if OnuState.losable e.state && !d.standby then d.orderMove onu .discovered 8 else d) s

/-- The nearest whole number to a block's mean; a tie is settled by a free value. -/
def roundMean (sum : Int) (n r : Nat) : Int :=
  if n = 0 then 0
  else
    let q := sum / (n : Int)
    let rem := 2 * (sum % (n : Int))
    if rem < (n : Int) then q else if rem > (n : Int) then q + 1 else q + ((r % 2 : Nat) : Int)

/-- EQD_DRIFT_BLOCK: the end of a block of 128 locked bursts. -/
def execEqdDriftBlock (onu : Nat) (s : State) : Host.Outcome State Fault Refusal :=
  act (decide (onu < 65536)) (fun d =>
    let e := d.onu onu
    if 128 ≤ e.blockN && !d.standby then
      let thr := max 1 (fld (d.live' (A.rngParam e.channel)) 16 4)
      let d := d.onOnu onu fun x => { x with blockN := 0, blockSum := 0 }
      if thr * e.blockN ≤ e.blockSum.natAbs then
        let (r, d) := d.draw
        let eqd := ((e.eqd : Int) - roundMean e.blockSum e.blockN r).toNat
        ((d.ploamTo onu "Ranging_Time" (le 4 eqd)).onOnu onu fun x => { x with eqdNext := some eqd }).bump (A.rngEqdUpd e.channel)
      else d
    else d) s

/-! ## Spread-sequence discovery (R257 to R260) -/

/-- The slot of a detection at phase `phi` chips: the first free one from two frames after the next frame on (DEDUCED, R260). -/
def Dev.spreadSlot (d : Dev) (c phi : Nat) : Nat → Nat → Option Win
  | 0, _ => none
  | fuel + 1, f =>
    let ch := d.chan c
    let rate := ch.usRate
    let m := mfBlocks rate
    let pre := overhead rate 1
    let off := psBits rate (phi * 6430)
    let tol := psBitsUp rate 13000
    let a := mfAddressed ch.mode (16 * f)
    let lo := ((off : Int) - (tol : Int)) / 64 - pre
    let hi := blkUp ((off + tol : Nat) : Int) + ploamBurst rate
    match placeAt (d.recv c).wins (a * m + pre) ((a + 1) * m) lo hi with
    | some g => some { kind := 3, who := 0, grant := g, lo := shift g lo, hi := shift g hi, eqdPre := d.eqdPreOf c (d.reachOf c).1 }
    | none => Dev.spreadSlot d c phi fuel (f + 1)

/-- Place a slot for each detection; answers the ACK entries. -/
def Dev.spreadAcks (d : Dev) (c : Nat) : List (Nat × Nat) → List (Nat × Nat × Nat × Nat) × Dev
  | [] => ([], d)
  | (code, phi) :: rest =>
    match d.spreadSlot c phi 16 (d.frame + 3) with
    | some w =>
      let m := mfBlocks (d.chan c).usRate
      let a := w.grant / m
      let d := d.addWin c { w with who := code }
      let (l, d) := Dev.spreadAcks d c rest
      ((code, a % 16, a / 16 % 2 ^ 32, w.grant % m) :: l, d)
    | none => Dev.spreadAcks d c rest

/-- SPREAD_INTEGRATION_END (R259, R260): detections (code, phase in chips), strongest first. -/
def execSpreadIntegrationEnd (channel : Nat) (detections : List (Nat × Nat)) (s : State) : Host.Outcome State Fault Refusal :=
  act (decide (channel < 512) && decide (detections.length ≤ 4) && detections.all fun x => decide (x.1 < 1024) && decide (x.2 < 77760)) (fun d =>
    let integ := 64 * min 4 (max 1 (fld (d.live' (A.rngParam channel)) 8 3))
    let r := d.recv channel
    if d.rngServes channel && bit (d.live' (A.rngCfg channel)) 14 && d.time.tick % integ = 0 && decide (r.integFrom < d.time.tick) then
      let take := detections.filter fun x => !r.noAck.contains x.1
      let d := (d.bump (A.rngSpreadDet channel) detections.length).onRecv channel fun r => { r with integFrom := d.time.tick, noAck := [], acks := take }
      let (l, d) := d.spreadAcks channel take
      let d := if l.isEmpty then d else d.spreadDisc channel (l.take 2)
      if 2 < l.length then d.spreadDisc channel (l.drop 2) else d
    else d) s

/-! ## Wavelength migration (R263 to R265) -/

/-- EXT_TUNE to a channel of the tree (Table 10-11). -/
def Dev.extTune (d : Dev) (o target fs : Nat) : Dev :=
  let e := d.onu o
  let t := d.chan target
  let d := d.onOnu o fun x => { x with tuneSeq := (x.tuneSeq + 1) % 256 }
  d.ploamTo o "EXT_TUNE" (le 1 t.dsWl ++ le 1 t.usWl ++ le 2 0 ++ le 4 t.ponId ++ le 8 fs ++ le 4 e.eqd ++ le 2 (e.tuneMs + 10)
    ++ le 1 ((e.tuneSeq + 1) % 256) ++ List.replicate 13 0)

/-- T0(16Fm): the migration starts. -/
def Dev.migrStart (d : Dev) (o : Nat) : Dev :=
  match (d.onu o).migr with
  | some m =>
    let d := d.moveOnu o .migrating 9
    let fs := d.frame + 16
    let d := d.onOnu o fun x => { x with migr := some { m with started := true, fs := fs, answerBy := d.frame + 4, sends := 1 } }
    d.extTune o m.target fs
  | none => d

/-- T0(16Fs): the ONU tunes and its node moves under the new channel with a deficit of 0 (R395); frames from the new channel wait for the old one's fence token (R264). -/
def Dev.migrSwitch (d : Dev) (o : Nat) : Dev :=
  match (d.onu o).migr with
  | some m =>
    let d := d.onNode (nodeKey 1 o) fun n => { n with deficit := 0 }
    d.onDie (m.old / 128) fun x => { x with onuFences := x.onuFences.filter (fun f => f.1 != o) ++ [(o, m.old, none, false)] }
  | none => d

/-- Migration steps of a frame boundary, after the moves of R266: starts and switches. -/
def Dev.migrEdge (d : Dev) : Dev :=
  if d.time.tick % 16 ≠ 0 then d
  else
    let d := d.each (d.onusWith fun e => e.migr.isSome) fun o d =>
      let e := d.onu o
      match e.migr with
      | some m =>
        if m.started then (if d.frame = m.fs && e.state = .migrating then d.migrSwitch o else d)
        else if e.state = .operating && !e.keys.rolling && decide (m.notBefore ≤ d.time.edges) then d.migrStart o
        else d
      | none => d
    d

/-- The channel on which a migrating ONU listens now, for whose account its node stands (Table 10-10). -/
def Dev.servChan (d : Dev) (o : Nat) : Nat :=
  let e := d.onu o
  match e.migr with
  | some m => if m.started && decide (m.fs ≤ d.frame) && !m.rollback then m.target else m.old
  | none => e.channel

/-- The ONU's downstream flows are served (Tables 10-2 and 10-10). -/
def Dev.served (d : Dev) (o : Nat) : Bool :=
  let e := d.onu o
  match e.state, e.migr with
  | .operating, _ => true
  | .migrating, some m => decide (d.frame + 1 < m.fs)
  | _, _ => false

/-- EXT_TUNE_RESP_RX: CODE 0 accepted, 1 cannot reach, 2 arrived on the target, 3 returned; `offset` is the burst's OFFSET. -/
def execExtTuneRespRx (onu seq code : Nat) (offset : Int) (s : State) : Host.Outcome State Fault Refusal :=
  act (decide (onu < 65536) && decide (seq < 256) && decide (code < 4)) (fun d =>
    let e := d.onu onu
    match e.migr with
    | some m =>
      if e.state != .migrating || d.standby || seq != e.tuneSeq then d
      else if code = 0 then
        if d.frame < m.fs then d.onOnu onu fun x => { x with migr := some { m with accepted := true } } else d
      else if code = 1 then
        if d.frame < m.fs then (d.onOnu onu fun x => { x with moveCh := some m.old }).orderMove onu .operating 9 else d
      else if code = 2 then
        if (m.fs ≤ d.frame && !m.rollback) || m.both then
          (d.onOnu onu fun x => { x with moveCh := some m.target, eqdNext := some ((e.eqd : Int) - offset).toNat }).orderMove onu .operating 9
        else d
      else if m.rollback then (d.onOnu onu fun x => { x with moveCh := some m.old }).orderMove onu .operating 9
      else d
    | none => d) s

/-- EXT_TUNE_RESP_TIMEOUT: no answer by the fourth frame after the send. -/
def execExtTuneRespTimeout (onu : Nat) (s : State) : Host.Outcome State Fault Refusal :=
  act (decide (onu < 65536)) (fun d =>
    let e := d.onu onu
    match e.migr with
    | some m =>
      if e.state == .migrating && m.started && !m.accepted && decide (m.answerBy ≤ d.frame) && !d.standby then
        if m.sends < 3 then
          let d := d.onOnu onu fun x => { x with migr := some { m with sends := m.sends + 1, fs := d.frame + 16, answerBy := d.frame + 4 } }
          d.extTune onu m.target (d.frame + 16)
        else (d.onOnu onu fun x => { x with moveCh := some m.old }).orderTimer onu .operating 9
      else d
    | none => d) s

/-- MIGRATION_ROLLBACK_EXPIRY: no arrival by Fs + 8 × ROLLBACK_MS, or no return within as many frames after. -/
def execMigrationRollbackExpiry (onu : Nat) (s : State) : Host.Outcome State Fault Refusal :=
  act (decide (onu < 65536)) (fun d =>
    let e := d.onu onu
    let rb := 8 * (e.tuneMs + 10)
    match e.migr with
    | some m =>
      if e.state != .migrating || e.moveTo.isSome || d.standby then d
      else if !m.rollback then
        if m.fs + rb + m.lost ≤ d.frame then
          if (d.chan m.old).state = .off then d.orderTimer onu .discovered 6
          else
            let d := d.onOnu onu fun x => { x with migr := some { m with rollback := true, waitTo := d.frame + rb, lost := 0 } }
            let d := d.onNode (nodeKey 1 onu) fun n => { n with deficit := 0 }
            d.onDie (m.old / 128) fun x => { x with onuFences := x.onuFences.filter (fun f => f.1 != onu) ++ [(onu, m.target, none, false)] }
        else d
      else if m.waitTo ≤ d.frame then d.orderTimer onu .discovered 6
      else d
    | none => d) s

end Sys2Proof.Machine
end

