-- ==== Sys2Proof/Machine/Dba.lean ====
section
/-! DEFINITION. Dynamic bandwidth assignment: allocations, credits, the build of a map and its publication, and the DBA policy
group of commands (11_dba.md, Table 6-13).
Choices and readings: log entries 36, 103, 112, 113, 114, 115, 116, 147, 148, 149 and 165. -/

namespace Sys2Proof.Machine

/-! ## The build's working state -/

/-- A burst in the build: its ONU, profile and entries in map order. -/
structure Burst where
  onu : Nat
  profile : Nat
  /-- Every grant of it is a fixed one (R256). -/
  fixed : Bool
  entries : List Entry

/-- The build of one channel's map. -/
structure Build where
  /-- US_RATE. -/
  rate : Nat
  /-- Blocks that no burst may take: windows and ranging bursts. -/
  blocked : List (Nat × Nat)
  /-- Blocks that no burst of fixed grants may take. -/
  blockedFixed : List (Nat × Nat)
  /-- Most entries and most bursts, less those of the ranging engine. -/
  maxEntries : Nat
  maxBursts : Nat
  /-- Bursts in the order of their first grant. -/
  bursts : List Burst := []

/-- Content blocks of a burst (R282). -/
def Burst.content (b : Burst) : Nat :=
  2 + (if b.entries.any (·.ploamu) then 6 else 0) + b.entries.foldl (fun a e => a + nb e.dbru + e.grant) 0

/-- Line cost of a burst. -/
def Burst.cost (rate : Nat) (b : Burst) : Nat := overhead rate b.profile + lineBlocks rate b.content

/-- The first block from which `len` blocks are free of a list of taken spans, in a microframe of `m` blocks. -/
def firstSpan (m len : Nat) (taken : List (Nat × Nat)) : Option Nat :=
  let cands := 0 :: (taken.map Prod.snd).mergeSort (· ≤ ·)
  cands.find? fun s => decide (s + len ≤ m) && taken.all fun t => decide (s + len ≤ t.1) || decide (t.2 ≤ s)

/-- R286: lay the bursts out in order, each in the first span that holds it; answers the first block of each. -/
def Build.layout (b : Build) : List Burst → List (Nat × Nat) → Option (List Nat)
  | [], _ => some []
  | x :: xs, placed =>
    let len := x.cost b.rate
    match firstSpan (mfBlocks b.rate) len ((if x.fixed then b.blockedFixed else b.blocked) ++ placed) with
    | some s => (b.layout xs ((s, s + len) :: placed)).map fun l => s :: l
    | none => none

/-- R286: every burst can be laid out, within the limits of R284. -/
def Build.ok (b : Build) : Bool :=
  decide (b.bursts.length ≤ b.maxBursts) && decide (b.bursts.foldl (fun a x => a + x.entries.length) 0 ≤ b.maxEntries)
    && (b.layout b.bursts []).isSome

/-- The build with a grant added: it joins its ONU's burst, and its allocation's entry. -/
def Build.add (b : Build) (profile : Nat) (fixed : Bool) (e : Entry) : Build :=
  let join := fun (l : List Entry) =>
    if l.any fun x => x.alloc == e.alloc then
      l.map fun x => if x.alloc == e.alloc then
        { x with grant := x.grant + e.grant, dbru := x.dbru || e.dbru, ploamu := x.ploamu || e.ploamu, hint := x.hint || e.hint } else x
    else l ++ [e]
  if b.bursts.any fun x => x.onu == e.onu then
    { b with bursts := b.bursts.map fun x => if x.onu == e.onu then { x with entries := join x.entries, fixed := x.fixed && fixed } else x }
  else { b with bursts := b.bursts ++ [{ onu := e.onu, profile := profile, fixed := fixed, entries := [e] }] }

/-- The most of `hi` blocks, at least `lo`, that still fit (monotone search). -/
def mostFit (fits : Nat → Bool) : Nat → Nat → Nat → Nat
  | 0, lo, _ => lo
  | k + 1, lo, hi =>
    if hi ≤ lo + 1 then (if fits hi then hi else lo)
    else let mid := (lo + hi) / 2
         if fits mid then mostFit fits k mid hi else mostFit fits k lo mid

/-! ## Allocations in the build -/

/-- What an ONU is granted in upstream microframe `a` of channel `c` (R293, R294): nothing, the per-frame default grant, all. -/
inductive Admit where
  | none | default | all
  deriving DecidableEq, Repr

/-- R293, R294, R523. -/
def Dev.admitOnu (d : Dev) (o a : Nat) : Admit :=
  let e := d.onu o
  if e.rogueOff then .none
  else
    match e.state, e.migr with
    | .operating, _ => .all
    | .suspended, _ => .default
    | .ranging, _ => if 2 ≤ e.step then .default else .none
    | .migrating, some m => if a < 16 * m.fs then .all else .none
    | _, _ => .none

/-- The profile of an ONU's next burst (R289). -/
def Onu.profile (o : Onu) : Nat := if o.profile1 then 1 else if o.robust then 2 else 0

/-- R287: the effective GRANT_MIN of a channel in blocks. -/
def Dev.grantMin (d : Dev) (c : Nat) : Nat :=
  let gcm := fun (k : Keys) => match Keys.key k k.active with
    | some v => v.alg == 1
    | none => false
  let any := (d.chan c).alg == 1 || gcm (d.chan c).bcast || d.pon.onus.any fun e => e.2.state != .absent && e.2.channel == c && gcm e.2.keys
  max (fld (d.live' (A.dbaCfg c)) 0 6) (if any then 4 else 2)

/-- R292: a reassembly context is open for an XGEM port of a flow that names the allocation. -/
def Dev.fragOpen (d : Dev) (key : Nat) (a : Alloc) : Bool :=
  d.pon.flows.any fun f => f.2.onu == a.onu && f.2.alloc == key % 16384 &&
    (d.die ((d.onu a.onu).channel / 128)).reasm.any fun r => r.1 == a.onu * 65536 + f.2.xgem

/-- Bytes that a credit in 1/1,024 byte holds. -/
def creditBytes (i : Int) : Nat := (i / 1024).toNat

/-- R278, R279: charge a grant of `g` bytes in microframe `a`. -/
def Alloc.charge (x : Alloc) (g a edge : Nat) (credits : Bool) : Alloc :=
  let x := if x.type = 0 then x else { x with d := x.d - g, out := x.out + g, granted := (a, g) :: x.granted }
  let x := if credits && x.type != 0 then { x with ac := x.ac - 1024 * g, mc := x.mc - 1024 * (g : Int) } else x
  { x with grantLog := (edge, g) :: x.grantLog.filter fun e => decide (edge < e.1 + 128) }

/-- R279: refill at a T0. -/
def Alloc.refill (x : Alloc) : Alloc :=
  let w := Nat.max x.maxWait 1
  if x.type = 0 then { x with fc := min (x.fc + x.fixed) (x.fixed * w) }
  else { x with ac := min (x.ac + x.assured) (x.assured * w), mc := min (x.mc + x.max) ((x.max * w : Nat) : Int) }

/-- Everything one build carries along: the block, the map so far. -/
structure Work where
  d : Dev
  b : Build
  /-- Channel, tick of the map, microframe it addresses. -/
  c : Nat
  tick : Nat
  mf : Nat
  gmin : Nat

/-- Note a grant in an allocation. -/
def Work.mark (w : Work) (key : Nat) (f : Alloc → Alloc) : Work :=
  { w with d := w.d.onAlloc key fun x => { f x with last := w.tick, lastFrame := w.mf / 16 + 1 } }

/-- An entry of an allocation. -/
def entryOf (key : Nat) (x : Alloc) (blocks : Nat) (hint : Bool) : Entry :=
  { alloc := key % 16384, onu := x.onu, dbru := x.type != 0, ploamu := isDefault key, grant := blocks, hint := hint }

/-- Try an entry: the build with it where it fits. -/
def Work.try' (w : Work) (key : Nat) (x : Alloc) (blocks : Nat) (hint : Bool) : Option Build :=
  let p := (w.d.onu x.onu).profile
  let b := w.b.add p (x.type = 0) { entryOf key x blocks hint with profile := p }
  if b.ok then some b else none

/-- R284, R286: a candidate that is not taken, or a due grant that does not fit. -/
def Work.defer (w : Work) (n : Nat) : Work := { w with d := w.d.bump (A.dbaDefer w.c) n }

/-- Blocks granted so far in this build to an allocation. -/
def Work.has (w : Work) (key : Nat) (x : Alloc) : Nat :=
  match w.b.bursts.find? fun b => b.onu == x.onu with
  | some b => (b.entries.filter fun e => e.alloc == key % 16384).foldl (fun a e => a + e.grant) 0
  | none => 0

/-- R287: whole blocks of a grant, raised so that the allocation's grant reaches GRANT_MIN. -/
def Work.raised (w : Work) (key : Nat) (x : Alloc) (blocks : Nat) : Nat := max blocks (w.gmin - w.has key x)

/-- Step 2 for one allocation. -/
def Work.fixedGrant (w : Work) (key : Nat) : Work :=
  match w.d.alloc? key with
  | some x =>
    let n := x.fc / 8192
    if n = 0 || decide (w.tick < x.last + x.maxWait) then w
    else
      let r := w.raised key x n
      match w.try' key x r false with
      | some b => { w with b := b }.mark key fun x =>
          let x := x.charge (8 * r) w.mf w.d.time.edges false
          { x with fc := x.fc - 8192 * n, mc := x.mc - 8192 * ((r - n : Nat) : Int) }
      | none => w.defer 1
  | none => w

/-- R290: the hint series after the grant that was due. -/
def Hint.next (h : Hint) : Option Hint :=
  match h.left with
  | some n => if n ≤ 1 || h.period = 0 then none else some { h with tick := h.tick + h.period, left := some (n - 1) }
  | none => some { h with tick := h.tick + h.period }

/-- Step 3 for one allocation: a replacing series takes over at its TICK, and a grant that is due is made or missed. -/
def Work.hintGrant (w : Work) (key : Nat) : Work :=
  let d := w.d.onAlloc key fun x =>
    match x.hintNext with
    | some h => if h.tick ≤ w.tick then { x with hint := if h.bytes = 0 then none else some h, hintNext := none } else x
    | none => x
  let w := { w with d := d }
  match (w.d.alloc? key).bind fun x => x.hint.map fun h => (x, h) with
  | some (x, h) =>
    if w.tick < h.tick then w
    else
      let w := { w with d := w.d.onAlloc key fun x => { x with hint := h.next } }
      let cfg := w.d.live' (A.dbaCfg w.c)
      let r := w.raised key x (ceilDiv h.bytes 8)
      let made := if h.tick = w.tick && (w.d.onu x.onu).state == .operating && w.d.admitOnu x.onu w.mf == .all && bit cfg 22
        then w.try' key x r true else none
      match made with
      | some b => { w with b := b, d := w.d.bump (A.dbaHintOk w.c) }.mark key fun x => x.charge (8 * r) w.mf w.d.time.edges false
      | none => { w with d := w.d.bump (A.dbaHintMiss w.c) }
  | none => w

/-- Grant payload to an allocation out of its credits; counts a grant that does not fit. -/
def Work.creditGrant (w : Work) (key : Nat) (x : Alloc) (bytes : Nat) (count : Dev → Dev) : Work :=
  let r := w.raised key x (ceilDiv bytes 8)
  match w.try' key x r false with
  | some b => { w with b := b, d := count w.d }.mark key fun x => x.charge (8 * r) w.mf w.d.time.edges true
  | none => w.defer 1

/-- Step 4 for one allocation. -/
def Work.fragGrant (w : Work) (key : Nat) : Work :=
  match w.d.alloc? key with
  | some x => w.creditGrant key x 1 fun d => d.bump (A.dbaFrag w.c)
  | none => w

/-- Step 5 for one allocation: min(D, ac, mc). -/
def Work.assuredGrant (w : Work) (key : Nat) : Work :=
  match w.d.alloc? key with
  | some x =>
    let n := min x.d (min (x.ac / 1024) (creditBytes x.mc))
    if n = 0 then w else w.creditGrant key x n id
  | none => w

/-- Step 6 for one allocation: a poll, or the per-frame grant of a default allocation (R280). -/
def Work.poll (w : Work) (key : Nat) : Work :=
  match w.d.alloc? key with
  | some x =>
    let all := w.d.admitOnu x.onu w.mf == .all
    let poll := max 1 (fld (w.d.live' (A.dbaCfg w.c)) 12 5)
    let p := if 0 < x.maxWait && x.maxWait < poll then x.maxWait else poll
    let polled := all && x.type != 0 && decide (x.last + p ≤ w.tick)
    let framed := isDefault key && w.d.admitOnu x.onu w.mf != .none && w.mf % 16 == key % 16384 % 16 && x.lastFrame != w.mf / 16 + 1
    if polled || framed then
      match w.try' key { x with type := if framed then 3 else x.type } 0 false with
      | some b => { w with b := b, d := if polled then w.d.bump (A.dbaPolls w.c) else w.d }.mark key id
      | none => w.defer 1
    else w
  | none => w

/-- What one turn of the round robin did. -/
inductive Turn where
  | stay | leave | cut

/-- One increment of step 7 (R288). -/
def Work.increment (w : Work) (key : Nat) : Turn × Work :=
  match w.d.alloc? key with
  | some x =>
    let quantum := max 1 (fld (w.d.live' (A.dbaCfg w.c)) 6 6)
    let want := x.weight * quantum * 64
    let inc := min want (min x.d (creditBytes x.mc))
    if inc = 0 then (.leave, w)
    else
      let r := w.raised key x (ceilDiv inc 8)
      let give := fun (n : Nat) (b : Build) => { w with b := b }.mark key fun x => x.charge (8 * n) w.mf w.d.time.edges true
      match w.try' key x r false with
      | some b => (if inc < want then .leave else .stay, give r b)
      | none =>
        let least := w.gmin - w.has key x
        let n := mostFit (fun n => (w.try' key x n false).isSome) 14 0 r
        if n = 0 || n < least then (.cut, w)
        else
          match w.try' key x n false with
          | some b => (.cut, give n b)
          | none => (.cut, w)
  | none => (.leave, w)

/-- One round: each candidate takes its increment. Answers the candidates that stay, and whether an increment was cut. -/
def Work.round : List Nat → Work → List Nat × Bool × Work
  | [], w => ([], false, w)
  | k :: ks, w =>
    match w.increment k with
    | (.cut, w) => ([], true, w)
    | (.leave, w) => Work.round ks w
    | (.stay, w) =>
      let (l, cut, w) := Work.round ks w
      (k :: l, cut, w)

/-- Rounds until no candidate remains or one is cut. -/
def Work.rounds : Nat → List Nat → Work → Bool × Work
  | 0, _, w => (false, w)
  | _, [], w => (false, w)
  | fuel + 1, ks, w =>
    match Work.round ks w with
    | (_, true, w) => (true, w)
    | (l, false, w) => Work.rounds fuel l w

/-- Step 7 under POLICY 1: one round robin per PRIO, from 7 down. -/
def Work.byPrio : List Nat → List Nat → Work → Bool × Work
  | [], _, w => (false, w)
  | p :: ps, ks, w =>
    let mine := ks.filter fun k => match w.d.alloc? k with | some x => x.prio == p | none => false
    match Work.rounds (mfBlocks w.b.rate) mine w with
    | (true, w) => (true, w)
    | (false, w) => Work.byPrio ps ks w

/-- Allocations of the ONUs on a channel, the older last grant first, then the lower Alloc-ID. -/
def Dev.onChannel (d : Dev) (c : Nat) : List (Nat × Alloc) :=
  (d.pon.allocs.filter fun e => (d.onu e.2.onu).channel == c).mergeSort fun a b =>
    decide (a.2.last < b.2.last) || (a.2.last == b.2.last && decide (a.1 % 16384 ≤ b.1 % 16384))

/-- Ascending Alloc-ID from the rotation start. -/
def rotated (rot : Nat) (ks : List Nat) : List Nat :=
  let l := ks.mergeSort fun a b => decide (a % 16384 ≤ b % 16384)
  (l.filter fun k => decide (rot ≤ k % 16384)) ++ l.filter fun k => decide (k % 16384 < rot)

/-- Most entries, bursts and computed allocations (Table 11-5). -/
def mapLimits (mode : Nat) : Nat × Nat × Nat := if mode = 2 then (512, 128, 128) else (32, 32, 32)

/-- Steps 2 to 7 of Table 11-6. -/
def Work.steps (w : Work) (limit : Nat) : Work :=
  let l := w.d.onChannel w.c
  let full := l.filter fun e => w.d.admitOnu e.2.onu w.mf == .all
  let w := (full.filter fun e => e.2.type == 0).foldl (fun w e => w.fixedGrant e.1) w
  let w := l.foldl (fun w e => w.hintGrant e.1) w
  let cfg := w.d.live' (A.dbaCfg w.c)
  let now := full.filterMap fun e => (w.d.alloc? e.1).map fun x => (e.1, x)
  let frag := (now.filter fun e => decide (e.2.last + max 2 (fld cfg 18 4) ≤ w.tick) && w.d.fragOpen e.1 e.2).map Prod.fst
  let sure := (now.filter fun e => (e.2.type == 1 || e.2.type == 2) && decide (0 < e.2.d)).map Prod.fst
  let more := (now.filter fun e => (e.2.type == 2 || e.2.type == 3) && decide (0 < e.2.d) && decide (0 < e.2.mc)).map Prod.fst
  let turn := rotated (w.d.chan w.c).rot more
  let order := (frag ++ sure ++ turn).eraseDups
  let taken := order.take limit
  let w := w.defer (order.length - taken.length)
  let w := (frag.filter taken.contains).foldl (fun w k => w.fragGrant k) w
  let w := (sure.filter taken.contains).foldl (fun w k => w.assuredGrant k) w
  let w := l.foldl (fun w e => w.poll e.1) w
  let turn' := turn.filter taken.contains
  let (_, w) := if bit cfg 17 then Work.byPrio [7, 6, 5, 4, 3, 2, 1, 0] turn' w else Work.rounds (mfBlocks w.b.rate) turn' w
  let rot := match turn with
    | [] => (w.d.chan w.c).rot
    | [k] => k % 16384 + 1
    | _ :: k :: _ => k % 16384
  { w with d := w.d.onChan w.c fun x => { x with rot := rot } }

/-- The entries of a finished build in map order, with their starts. -/
def Build.entries (b : Build) : List Entry :=
  let starts := (b.layout b.bursts []).getD []
  let l := (b.bursts.zip starts).mergeSort fun x y => decide (x.2 ≤ y.2)
  l.flatMap fun x =>
    match x.1.entries with
    | [] => []
    | e :: es => { e with start := x.2 + overhead b.rate x.1.profile, profile := x.1.profile } :: es.map fun e => { e with profile := x.1.profile }

/-- Blocks of a microframe that neither a burst nor a window takes. -/
def Build.idle (b : Build) : Nat :=
  let starts := (b.layout b.bursts []).getD []
  let bs := (b.bursts.zip starts).map fun x => (x.2, x.2 + x.1.cost b.rate)
  let spans := (b.blocked ++ bs).mergeSort fun x y => decide (x.1 ≤ y.1)
  let go := spans.foldl (fun (acc : Nat × Nat) s => (max acc.1 s.2, acc.2 + (s.1 - acc.1))) (0, 0)
  go.2 + (mfBlocks b.rate - go.1)

/-- The counters that a build counts in. -/
def buildCounters (c : Nat) : List Nat := [A.dbaPolls c, A.dbaHintOk c, A.dbaHintMiss c, A.dbaFrag c, A.dbaDefer c, A.dbaIdle c]

/-- Build the map of the next tick for a channel (R267, R285). -/
def Dev.buildMap (d : Dev) (c : Nat) : Dev :=
  if !d.chanUp c || !d.serves c then d
  else
    let ch := d.chan c
    let tick := d.time.tick + 1
    let a := mfAddressed ch.mode tick
    let m := mfBlocks ch.usRate
    let (wins, d) := d.placeWindows c
    let cut := fun (l : List Win) => (l.filter fun w => decide (w.lo < (a + 1) * m) && decide (a * m < w.hi)).map
      fun w => (max w.lo (a * m) - a * m, min w.hi ((a + 1) * m) - a * m)
    let all := (d.recv c).wins
    let keepFixed := bit (d.live' (A.rngCfg c)) 12
    let (ne, nburst, limit) := mapLimits ch.mode
    let b : Build :=
      { rate := ch.usRate, blocked := cut all
        blockedFixed := cut (if keepFixed then all.filter fun w => w.kind == 2 || w.kind == 3 else all)
        maxEntries := ne - wins.length, maxBursts := nburst - wins.length }
    let w : Work := { d := d, b := b, c := c, tick := tick, mf := a, gmin := d.grantMin c }
    let before := (ch.rot, (buildCounters c).map d.ctr)
    let was := d.onChannel c
    let w := w.steps limit
    let d := w.d.bump (A.dbaIdle c) w.b.idle
    let undo := was.filterMap fun e => (d.alloc? e.1).bind fun y =>
      if y.last = e.2.last && y.lastFrame = e.2.lastFrame then none
      else some { key := e.1, d := (e.2.d : Int) - y.d, out := (y.out : Int) - e.2.out, fc := (e.2.fc : Int) - y.fc
                  ac := (e.2.ac : Int) - y.ac, mc := e.2.mc - y.mc, last := e.2.last, lastFrame := e.2.lastFrame : Undo }
    let es := (wins ++ w.b.entries)
    d.onChan c fun x => { x with next := { tick := tick, entries := es, undo := undo, before := before } }

/-! ## Publication (R166, R171, R218) -/

/-- A bandwidth map entry as Table 11-4 lays it out. -/
def Entry.word (e : Entry) : BitVec 64 :=
  let hi := e.alloc * 2 ^ 50 + nb e.dbru * 2 ^ 49 + nb e.ploamu * 2 ^ 48 + e.start * 2 ^ 34 + e.grant * 2 ^ 20 + e.profile * 2 ^ 18
  w64 (hi + (Config.hec (hi / 2 ^ 13)).toNat)

/-- Bursts of a map: (ONU, START, profile) with its entries. -/
def burstsOf (l : List Entry) : List (Entry × List Entry) :=
  l.foldr (fun e acc =>
    if e.start = 0x3FFF then
      match acc with
      | (x, xs) :: rest => if x.onu = 0x20000 then (x, e :: xs) :: rest else ({ e with onu := 0x20000 }, [e]) :: acc
      | [] => [({ e with onu := 0x20000 }, [e])]
    else
      match acc with
      | (x, xs) :: rest => if x.onu = 0x20000 then (e, e :: xs) :: rest else (e, [e]) :: acc
      | [] => [(e, [e])]) []

/-- Send the map to the framer and the reset of every burst to the engine; count it. -/
def Dev.issueMap (d : Dev) (c : Nat) : Dev :=
  let ch := d.chan c
  let es := ch.map.entries
  let d := d.bump (A.dbaGrants c) es.length
  let d := d.bump (A.dbaBytes c) (es.foldl (fun a e => a + 8 * e.grant) 0)
  let bs := burstsOf es
  let used := fun (o : Nat) => bs.any fun b => b.1.onu == o && !b.1.ranging && b.1.profile == 1
  let clear := fun (o : Nat) (x : Onu) => if used o then { x with profile1 := false } else x
  let d := d.onPon fun p => { p with onus := Tbl.mapPut {} p.onus clear }
  if d.shadow || !d.ponRuns (c / 128) then d
  else
    let d := d.emit (.bwmap c ch.map.tick (es.map Entry.word))
    let cfg := d.live' (A.usCfg c)
    let a := mfAddressed ch.mode ch.map.tick
    let m := mfBlocks ch.usRate
    let width := max 1 (fld cfg 18 5)
    bs.foldl (fun d b =>
      let p := a * m + b.1.start - overhead ch.usRate b.1.profile
      let at' := d.posClock c p + bitsNs ch.usRate (guardOf ch.usRate)
      d.emit (.rxReset c ch.map.tick (at' - 2 - width) width (bit cfg 17))) d

/-- Publish the map built for this tick. -/
def Dev.publishMap (d : Dev) (c : Nat) : Dev :=
  let ch := d.chan c
  if !d.chanUp c || ch.state != .service then d
  else
    let new : BMap := if d.serves c && ch.next.tick = d.time.tick then ch.next else { tick := d.time.tick }
    (d.onChan c fun x => { x with map := new, next := {} }).issueMap c

/-- R171: discard the build for this tick. -/
def Dev.unbuild (d : Dev) (c : Nat) : Dev :=
  let n := (d.chan c).next
  let d := (n.before.2.zip (buildCounters c)).foldl (fun d e => d.setCtr e.2 e.1) d
  let d := d.onChan c fun x => { x with rot := n.before.1 }
  let built := d.time.edges - 1
  n.undo.foldl (fun d u => d.onAlloc u.key fun x => { x with
    d := ((x.d : Int) + u.d).toNat, out := ((x.out : Int) - u.out).toNat, fc := ((x.fc : Int) + u.fc).toNat
    ac := ((x.ac : Int) + u.ac).toNat, mc := x.mc + u.mc, last := u.last, lastFrame := u.lastFrame
    granted := x.granted.filter fun g => g.1 != mfAddressed (d.chan c).mode n.tick
    grantLog := x.grantLog.filter fun g => g.1 != built }) d

/-- R171, R295: the channel reuses its map: the grants of ONUs that are still OPERATING on it stand, and are charged again. -/
def Dev.reuseMap (d : Dev) (c : Nat) : Dev :=
  let ch := d.chan c
  let k := d.time.tick
  let a := mfAddressed ch.mode k
  let m := mfBlocks ch.usRate
  let stay := fun (e : Entry) => !e.ranging && (d.onu e.onu).state == .operating && (d.onu e.onu).channel == c
  -- an entry that continues a burst belongs to the burst's ONU, so a burst stays or goes whole
  let es := ch.map.entries.filter stay
  let d := d.unbuild c
  let d := d.bump (A.dbaHintMiss c) (ch.next.entries.filter fun e => e.hint).length
  let d := es.foldl (fun d e =>
    d.onAlloc (allocKey (d.onu e.onu).tree e.alloc) fun x =>
      let y := x.charge (8 * e.grant) a d.time.edges true
      { (if x.type = 0 then { y with fc := y.fc - 8192 * e.grant } else y) with last := k, lastFrame := a / 16 + 1 }) d
  -- windows whose grant stood in the discarded map are placed again
  let gone := (d.recv c).wins.filter fun w => w.grant / m == a
  let d := d.onRecv c fun r => { r with wins := r.wins.filter fun w => w.grant / m != a }
  let d := gone.foldl (fun d w =>
    let ns := bitsNs ch.usRate (64 * (w.hi - w.lo))
    let uncount := fun (d : Dev) => (d.setCtr (A.rngQw c) (d.ctr (A.rngQw c) - 1)).setCtr (A.rngQwNs c) (d.ctr (A.rngQwNs c) - ns)
    if w.kind = 0 then
      let hi := w.hi - w.lo - overhead ch.usRate 1
      let span := (bitsNs ch.usRate (64 * hi) * 1000 - 53000000) / 9795
      let lo := (d.reachOf c).1
      let f := d.frame
      (uncount d).onRecv c fun r => { r with wants := (f, lo, lo + span) :: r.wants }
    else if w.kind = 1 then
      let f := d.frame
      (uncount d).onOnu w.who fun x => { x with stepBy := f }
    else if w.kind = 2 then d.onOnu w.who fun x => { x with migr := x.migr.map fun g =>
      if g.rollback then { g with waitTo := g.waitTo + 1 } else { g with lost := g.lost + 1 } }
    else d.onRecv c fun r => { r with noAck := r.noAck.filter (· != w.who) }) d
  (d.onChan c fun x => { x with map := { tick := k, entries := es }, next := {} }).issueMap c

/-- R296: a chip that becomes active starts each allocation afresh. -/
def Alloc.restart (x : Alloc) : Alloc :=
  let w := Nat.max x.maxWait 1
  { x with d := 0, out := 0, granted := [], fc := if x.type = 0 then x.fixed * w else 0
           ac := if x.type = 0 then 0 else x.assured * w, mc := if x.type = 0 then 0 else ((x.max * w : Nat) : Int) }

/-- R278: a valid report of `bytes` in a burst of upstream microframe `mf`. -/
def Dev.report (d : Dev) (key bytes mf : Nat) : Dev :=
  d.onAlloc key fun x =>
    if x.type = 0 then x
    else
      let later := x.granted.filter fun g => decide (mf < g.1)
      let out := later.foldl (fun a g => a + g.2) 0
      { x with d := bytes - out, out := out, granted := later
               reported := (d.time.edges, bytes) :: x.reported.filter fun e => decide (d.time.edges < e.1 + 128) }

/-! ## Commands (Table 6-13) -/

/-- R273, Table 11-1: the first field that breaks its row. -/
def allocRow (x : Call) : List (Nat × Bool) :=
  let t := x.a 3
  let fixed := x.a 5
  let assured := x.a 6
  let max' := x.a 7
  let weight := x.a 8
  let wait := x.a 9
  [(8, if t = 0 then fixed == 0 else fixed != 0),
    (0xC, if t = 1 || t = 2 then assured == 0 else assured != 0),
    (0x10, if t = 0 then max' != fixed else if t = 1 then max' != assured else if t = 2 then decide (max' ≤ assured) else max' == 0),
    (0x14, if t < 2 then weight != 0 else weight == 0),
    (0x16, decide (t < 2) && wait == 0)]

/-- The allocation that ALLOC_SET would leave. -/
def allocNew (d : Dev) (x : Call) : Alloc :=
  { onu := x.a 2, type := x.a 3, prio := x.a 4, fixed := x.a 5, assured := x.a 6, max := x.a 7, weight := x.a 8, maxWait := x.a 9
    last := d.time.tick, born := d.time.edges }

/-- The channel's allocations with one replaced or added. -/
def replaced (l : List (Nat × Alloc)) (k : Nat) (a : Alloc) : List (Nat × Alloc) := (k, a) :: l.filter fun e => e.1 != k

/-- ALLOC_SET (R243, R272, R273, R275, R276). -/
def cmdAllocSet : Cmd where
  op := 0x0501
  layout := [fd 2, fd 2, fd 2, fd 1, fd 1, fd 4, fd 4, fd 4, fd 2, fd 1, rs 1]
  mirrored := true
  commit := true
  bad d x :=
    let e := d.onu (x.a 2)
    let named := e.state != .absent && e.tree == x.a 0 && e.lineId == x.a 1
    let other := match d.alloc? (allocKey (x.a 0) (x.a 1)) with
      | some y => y.onu != x.a 2
      | none => false
    badIf ([(0, decide (512 ≤ x.a 0)),
      (2, decide (16384 ≤ x.a 1) || (decide (512 ≤ x.a 1) && decide (x.a 1 < 1024)) || (decide (x.a 1 < 512) && !named)),
      (4, other), (6, decide (4 ≤ x.a 3)), (7, decide (8 ≤ x.a 4))] ++ (if x.a 3 < 4 then allocRow x else []))
  absent d x :=
    let e := d.onu (x.a 2)
    (treeAbsent d x).or (if e.state == .absent || e.tree != x.a 0 then some 4 else none)
  unavail := treeDown
  state d x := if (d.onu (x.a 2)).auth then none else some (OnuState.code (d.onu (x.a 2)).state)
  full d x :=
    let e := d.onu (x.a 2)
    let k := allocKey (x.a 0) (x.a 1)
    let chans := e.channel :: (match e.migr with | some m => [m.target] | none => [])
    if (d.alloc? k).isNone && !isDefault k && e.tenant != 0 && decide ((d.tenant e.tenant).allocs ≤ d.useAllocs e.tenant) then some 6
    else if chans.all fun c => d.admits c (replaced (d.chanAllocs c) k (allocNew d x)) then none
    else some 7
  run d x :=
    let k := allocKey (x.a 0) (x.a 1)
    let new := allocNew d x
    let w := max new.maxWait 1
    let v := match d.alloc? k with
      | some y =>
        { new with
          last := y.last, lastFrame := y.lastFrame, born := y.born, d := y.d, out := y.out, granted := y.granted
          hint := y.hint, hintNext := y.hintNext, reported := y.reported, grantLog := y.grantLog
          fc := if new.type = 0 then min y.fc (new.fixed * w) else 0
          ac := if new.type = 0 then 0 else min y.ac (new.assured * w)
          mc := if new.type = 0 then 0 else min y.mc ((new.max * w : Nat) : Int) }
      | none => new
    (d.onPon fun p => { p with allocs := Tbl.set p.allocs k v }, .ok [])

/-- The allocation exists. -/
def allocAbsent (d : Dev) (x : Call) : Option Nat :=
  (treeAbsent d x).or <|
    match d.alloc? (allocKey (x.a 0) (x.a 1)) with
    | some y => if d.sees x.func (d.onu y.onu).tenant then none else some 2
    | none => some 2

/-- ALLOC_DELETE. -/
def cmdAllocDelete : Cmd where
  op := 0x0502
  layout := [fd 2, fd 2]
  mirrored := true
  commit := true
  bad _ x := badIf [(0, decide (512 ≤ x.a 0)), (2, decide (x.a 1 < 1024) || decide (16384 ≤ x.a 1))]
  absent := allocAbsent
  unavail := treeDown
  state d x :=
    if d.pon.flows.any fun f => f.2.alloc == x.a 1 && bit f.2.dir 1 && (d.onu f.2.onu).tree == x.a 0 then some 0x21 else none
  run d x := (d.onPon fun p => { p with allocs := Tbl.erase p.allocs (allocKey (x.a 0) (x.a 1)) }, .ok [])

/-- Mean bytes per tick over the last 128 ticks. -/
def meanTick (l : List (Nat × Nat)) (edges : Nat) : Nat :=
  ((l.filter fun e => decide (edges < e.1 + 128)).foldl (fun a e => a + e.2) 0) / 128

/-- ALLOC_GET. -/
def cmdAllocGet : Cmd where
  op := 0x0503
  caller := .r
  layout := [fd 2, fd 2]
  bad _ x := badIf [(0, decide (512 ≤ x.a 0)), (2, decide (16384 ≤ x.a 1))]
  absent := allocAbsent
  unavail := treeDown
  run d x :=
    match d.alloc? (allocKey (x.a 0) (x.a 1)) with
    | some y =>
      (d, .ok (le 2 y.onu ++ le 1 y.type ++ le 1 y.prio ++ le 4 y.fixed ++ le 4 y.assured ++ le 4 y.max ++ le 2 y.weight
        ++ le 1 y.maxWait ++ le 1 0 ++ le 4 (meanTick y.reported d.time.edges) ++ le 4 (meanTick y.grantLog d.time.edges)))
    | none => (d, .err 0x0008 2)

/-- A hint series is held against the tree's 64. -/
def Alloc.hinted (a : Alloc) : Bool :=
  a.hint.isSome || (match a.hintNext with | some h => h.bytes != 0 | none => false)

/-- DBA_HINT (R168, R290, R291). -/
def cmdDbaHint : Cmd where
  op := 0x0504
  lvl := 3
  since := 2
  layout := [fd 2, fd 2, fd 8, fd 4, fd 2, fd 2]
  mirrored := true
  bad _ x := badIf [(0, decide (512 ≤ x.a 0)), (2, decide (16384 ≤ x.a 1)), (0xC, decide (65536 < x.a 3))]
  absent := allocAbsent
  unavail := treeDown
  full d x :=
    let mine := match d.alloc? (allocKey (x.a 0) (x.a 1)) with
      | some y => y.hinted
      | none => false
    let n := countP (fun e => e.1 / 16384 == x.a 0 && e.2.hinted) d.pon.allocs
    if !mine && x.a 3 != 0 && decide (64 ≤ n) then some 0x0F else none
  special d x := if d.time.tick + 2 ≤ x.a 2 then none else some (0x8006, d.time.tick % 2 ^ 32)
  run d x :=
    let h : Hint := { tick := x.a 2, bytes := x.a 3, period := x.a 4
                      left := if x.a 4 = 0 then some 1 else if x.a 5 = 0 then none else some (x.a 5) }
    (d.onAlloc (allocKey (x.a 0) (x.a 1)) fun y =>
      if x.a 3 = 0 && y.hint.isNone then { y with hintNext := none } else { y with hintNext := some h }, .ok [])

/-- DBA_POLICY (R297): POLICY of every channel of the tree. -/
def cmdDbaPolicy : Cmd where
  op := 0x0505
  layout := [fd 2, fd 1, rs 1]
  mirrored := true
  bad _ x := badIf [(0, decide (512 ≤ x.a 0)), (2, decide (2 ≤ x.a 1))]
  absent := treeAbsent
  unavail := treeDown
  run d x :=
    (d.each (d.treeChans (x.a 0)) fun c d => d.writeEdge (A.dbaCfg c) (withBit (d.reg (A.dbaCfg c)) 17 (x.a 1 == 1)), .ok [])

/-- ALLOC_SET. -/
def execAllocSet (m : Msg) (s : State) : Host.Outcome State Fault Refusal := request cmdAllocSet m s
/-- ALLOC_DELETE. -/
def execAllocDelete (m : Msg) (s : State) : Host.Outcome State Fault Refusal := request cmdAllocDelete m s
/-- ALLOC_GET. -/
def execAllocGet (m : Msg) (s : State) : Host.Outcome State Fault Refusal := request cmdAllocGet m s
/-- DBA_HINT. -/
def execDbaHint (m : Msg) (s : State) : Host.Outcome State Fault Refusal := request cmdDbaHint m s
/-- DBA_POLICY. -/
def execDbaPolicy (m : Msg) (s : State) : Host.Outcome State Fault Refusal := request cmdDbaPolicy m s

end Sys2Proof.Machine
end

