-- ==== Sys2Proof/Machine/Egress.lean ====
section
/-! DEFINITION. What an egress pipeline does to a packet that leaves: trailer, rewrite, R-TAG, timestamps, learning and counts
(R327, R351, R354, R418 to R421, R449).
Choices and readings: log entries 47, 50, 51, 52 and 154. -/

namespace Sys2Proof.Machine

/-! ## Ports (R413) -/

/-- Rate of a subport in Gbit/s, from its port's MODE. -/
def Dev.upRate (d : Dev) (sp : Nat) : Nat := nth 100 [800, 400] (fld (d.reg (A.uplCfg (sp / 8))) 1 2)

/-- Signed correction register in units of 2^-32 ns (0.125 ns each). -/
def corr (w : Nat) : Int := signed 32 w * 2 ^ 29

/-- A time in units of 2^-32 ns as seconds, nanoseconds and fraction in 2^-16 ns, with a resolution of 0.125 ns (R419). -/
def stampOf (t : Int) : Nat × Nat × Nat :=
  let n := (t / 2 ^ 29).toNat
  let ns := n / 8
  (ns / 1000000000 % 2 ^ 48, ns % 1000000000, n % 8 * 8192)

/-- The time of a subport's domain (UPL_s_PTP_CFG bit 0). -/
def Dev.subTime (d : Dev) (sp : Nat) : Int := ((d.ptp (d.regFld (A.subPtpCfg sp) 0 1)).count : Int)

/-! ## Frame bytes -/

/-- A frame body with its FCS. -/
def withFcs (body : Bytes) : Bytes := body ++ le 4 (crc32 body)

/-- A frame without its FCS. -/
def bodyOf (data : Bytes) : Bytes := data.take (data.length - 4)

/-- Bytes after the datagram that an IP length leaves over (R327). -/
def trimmed (p : Parsed) (body : Bytes) : Bytes :=
  match p.ip? with
  | some h =>
    let total := if h.kind = .ipv4 then beAt body (h.off + 2) 2 else beAt body (h.off + 4) 2 + 40
    if h.off + total < body.length then body.take (h.off + total) else body
  | none => body

/-- Offset after the Ethernet addresses and the tags that follow them. -/
def afterTags (p : Parsed) : Nat := 12 + 4 * ((p.hdrs.drop 1).takeWhile fun h => h.kind == .tag).length

/-- R351: the next hop's destination address and VLAN (PRESUMED: the tags of the frame give way to one of the next hop). -/
def rewriteHop (p : Parsed) (pkt : Pkt) (body : Bytes) : Bytes :=
  match pkt.rewrite with
  | some (dmac, vlan) =>
    let rest := body.drop (afterTags p)
    let tag := if vlan ≤ 4095 then be 2 0x8100 ++ be 2 (pkt.cls * 8192 + vlan) else []
    be 6 dmac ++ slice body 6 6 ++ tag ++ rest
  | none => body

/-- R449: the R-TAG that carries the sequence number, after the tags. -/
def insertRtag (pkt : Pkt) (body : Bytes) : Bytes :=
  match pkt.rtag with
  | some n =>
    let k := afterTags (parse body (body.length + 4))
    body.take k ++ be 2 0xF1C1 ++ be 2 0 ++ be 2 n ++ body.drop k
  | none => body

/-- The frame as it leaves on an uplink, zero-padded to the 64 bytes of Table 17-2. -/
def upBytes (pkt : Pkt) : Bytes :=
  let body := bodyOf pkt.data
  let p := parse pkt.data pkt.len
  let out := insertRtag pkt (rewriteHop p pkt (trimmed p body))
  let out := out ++ List.replicate (60 - out.length) 0
  if out = body then pkt.data else withFcs out

/-- Length on an uplink of a frame, from its length under R367 while its tail is still to come. -/
def upLen (pkt : Pkt) : Nat :=
  if pkt.whole then (upBytes pkt).length
  else
    let p := parse pkt.data pkt.len
    let tags := afterTags p - 12
    let hop := match pkt.rewrite with
      | some (_, v) => 4 * nb (decide (v ≤ 4095)) + pkt.len - tags
      | none => pkt.len
    max 64 (hop + 6 * nb pkt.rtag.isSome)

/-! ## One-step insertion (R421) -/

/-- Offset of the PTP header of a Sync message, and of its UDP header if it has one. -/
def syncAt (body : Bytes) : Option (Nat × Option Hdr) :=
  let p := parse body (body.length + 4)
  let k := afterTags p
  let sync := fun (o : Nat) => leAt body o 1 % 16 == 0
  if beAt body k 2 = 0x88F7 && sync (k + 2) then some (k + 2, none)
  else
    match p.hdrs.find? fun h => h.kind == .udp with
    | some u => if beAt body (u.off + 2) 2 = 319 && sync (u.off + 8) then some (u.off + 8, some u) else none
    | none => none

/-- Replace bytes of a string. -/
def splice (b : Bytes) (off : Nat) (x : Bytes) : Bytes := b.take off ++ x ++ b.drop (off + x.length)

/-- A Sync message with its transmit time. -/
def oneStep (frame : Bytes) (at' : Nat) (udp : Option Hdr) (t : Nat × Nat × Nat) : Bytes :=
  let body := bodyOf frame
  let cf := (beAt body (at' + 8) 8 + t.2.2) % 2 ^ 64
  let new := splice (splice body (at' + 8) (be 8 cf)) (at' + 34) (be 6 t.1 ++ be 4 t.2.1)
  let new := match udp with
    | some u =>
      let v4 := (parse body (body.length + 4)).hdrs.any fun h => h.kind == .ipv4 && decide (h.off < u.off)
      if v4 then splice new (u.off + 6) (be 2 0)
      else
        let sum := fun (b : Bytes) => onesSum 24 (slice b (at' + 8) 8 ++ slice b (at' + 34) 10) 0
        let old := 65535 - beAt body (u.off + 6) 2
        let s := old + (65535 - sum body) + sum new
        let s := s % 65536 + s / 65536
        let s := s % 65536 + s / 65536
        splice new (u.off + 6) (be 2 (65535 - s))
    | none => new
  withFcs new

/-! ## Learning (R354) -/

/-- A die learns from a packet that its egress transmits. -/
def Dev.learnFrom (d : Dev) (die : Nat) (pkt : Pkt) : Dev :=
  let cfg := d.reg (A.emCfg die)
  let both := fun (f : Nat) => match d.flow? f with
    | some fl => fl.dir == 3
    | none => false
  let flows := (match pkt.upFlow with | some f => [f] | none => []) ++ (match pkt.dest with | .flow f => [f] | _ => [])
  if !bit cfg 0 || bit pkt.lookup 2 || pkt.injected || pkt.poisoned || !flows.all both then d
  else
    let p := parse pkt.data pkt.len
    let dest := match pkt.upFlow with
      | some f => (1, f)
      | none => (0, pkt.src)
    let d := d.learnPush die (emEntry 0 pkt.vrf (p.vid pkt.data) (slice pkt.data 6 6) dest false 0)
    match pkt.upFlow, p.ip? with
    | some _, some h =>
      if bit cfg 1 then
        let (af, sip, _) := ipAddrs pkt.data h
        let key := if af = 4 then be 4 sip else be 16 sip
        d.learnPush die (emEntry (if af = 4 then 1 else 2) pkt.vrf 0 key dest false 0)
      else d
    | _, _ => d

/-! ## Leaving on an uplink -/

/-- The buffer of a packet that the egress has taken stays allocated until the egress frees it; a staged packet leaves its area. -/
def Dev.toEgress (d : Dev) (pkt : Pkt) : Dev :=
  let d := if pkt.seg = 1 then d.onBuf fun b => { b with staged := b.staged - pkt.len } else d
  match pkt.buf with
  | some b => d.onBuf fun x => { x with egress := b :: x.egress }
  | none => d

/-- R420: the timestamp of a frame that asked for one. -/
def Dev.txStamp (d : Dev) (sp : Nat) (pkt : Pkt) (frame : Bytes) : Bytes × Dev :=
  match pkt.tsTag with
  | none => (frame, d)
  | some tag =>
    let t := stampOf (d.subTime sp + corr (d.reg (A.uplTxCorr (sp / 8))))
    match (if d.regFld (A.subPtpCfg sp) 1 1 = 1 then syncAt (bodyOf frame) else none) with
    | some (o, u) => (oneStep frame o u t, d.bump (A.subOneStep sp))
    | none =>
      if 64 ≤ (d.sub sp).fifo.length then (frame, (d.bump (A.subTsfLost sp)).uplCauseSet (sp / 8) 8)
      else (frame, (d.onSub sp fun s => { s with fifo := s.fifo ++ [(tag, t.1, t.2.1, t.2.2)] }).uplCauseSet (sp / 8) 4)

/-- A whole frame leaves on subport `sp`. -/
def Dev.sendUp (d : Dev) (sp : Nat) (pkt : Pkt) : Dev :=
  let die := 4 + sp / 256
  let (frame, d) := d.txStamp sp pkt (upBytes pkt)
  let d := ((d.emit (.upFrame sp frame)).bump (A.subTxFrames sp)).bwCount 0 sp 1 frame.length
  let d := (d.perf die 0x012 1 [(2, sp)]).perf die 0x013 frame.length [(2, sp)]
  let d := (((d.stamp pkt 7).stamp pkt 8).stamp pkt 9).traceEnd pkt 0
  d.learnFrom die pkt

/-- Frames that the egress had started and whose tail has now come leave whole (R234). -/
def Dev.flushSending (d : Dev) : Dev :=
  let go := fun (e : Dest × Pkt) => e.2.whole && !e.2.poisoned
  let done := d.data.sending.filter go
  let d := d.onData fun x => { x with sending := x.sending.filter fun e => !go e }
  done.foldl (fun d e =>
    match e.1 with
    | .uplink sp => d.sendUp sp e.2
    | _ => d) d

end Sys2Proof.Machine
end

