-- ==== Sys2Proof/Machine/Burst.lean ====
section
/-! DEFINITION. Burst-mode reception: bursts, measurements, codewords, XGEM frames, reassembly and rogue detection
(09_burst_receive.md, R521 to R525).
Choices and readings: log entries 21, 32, 37, 99, 111, 136, 144, 145, 151 and 164. -/

namespace Sys2Proof.Machine

/-! ## Line cipher (R193, R197, R198, R232) -/

/-- The nonce of Table 8-8: microframe, direction, downstream wavelength identifier, position. -/
def lineNonce (mf dir wl pos : Nat) : Bytes :=
  be 12 (mf / 16 % 2 ^ 51 * 2 ^ 45 + mf % 16 * 2 ^ 41 + dir * 2 ^ 40 + wl % 16 * 2 ^ 36 + pos % 2 ^ 14 * 2 ^ 22)

/-- GCM tag of a line frame: the additional data are the 51 header bits 63:13. -/
def lineTag (key nonce : Bytes) (hdr : Nat) (cipher : Bytes) : Bytes :=
  let ks := aesKeys (nats key)
  let h := ofBe (bytesOf (aesBlock ks (List.replicate 16 0)))
  let text := pad16 (be 7 (hdr * 32)) ++ pad16 cipher ++ be 8 51 ++ be 8 (8 * cipher.length)
  let s := ghash h (text.length / 16) text 0
  be 16 (Nat.xor s (ofBe (bytesOf (aesBlock ks (nats nonce ++ [0, 0, 0, 1])))))

/-- Encrypt or decrypt payload bytes of a frame under a line key. -/
def lineCrypt (k : LineKey) (nonce : Bytes) (dir mf pos : Nat) (data : Bytes) : Bytes :=
  if k.alg = 1 then aesCtr k.key nonce 2 data
  else xorBytes data ((List.range data.length).map fun i => Config.lineStream k.key dir mf pos i)

/-- XGEM header fields: PLI, key index, port, LF, as the recommendation lays them out. -/
def xgemPli (w : Nat) : Nat := fld w 50 14
def xgemKey (w : Nat) : Nat := fld w 48 2
def xgemPort (w : Nat) : Nat := fld w 32 16
def xgemLf (w : Nat) : Bool := bit w 13

/-- Bytes of a payload with its padding (R193). -/
def padded (mode pli : Nat) : Nat := if mode = 2 then ceilDiv pli 8 * 8 else ceilDiv pli 4 * 4

/-! ## Where packets stand -/

/-- Apply a function to every packet inside the device. -/
def Dev.mapPkts (d : Dev) (f : Pkt → Pkt) : Dev :=
  let order := fun (_ : Nat) (o : Order) => { o with done := o.done.map fun e => (e.1, e.2.1.map f, e.2.2) }
  let die := fun (_ : Nat) (x : Die) => { x with
    recirc := x.recirc.map f, fenced := x.fenced.map f, holding := x.holding.map fun h => (h.1, f h.2.1, h.2.2)
    order := Tbl.mapVals x.order order }
  let sub := fun (_ : Nat) (s : Sub) => { s with queues := Tbl.mapVals s.queues fun _ l => l.map f }
  let d := d.onData fun x => { x with
    dies := Tbl.mapVals x.dies die, subs := Tbl.mapVals x.subs sub, excWait := Tbl.mapVals x.excWait fun _ l => l.map f
    sending := x.sending.map fun e => (e.1, f e.2)
    dma := Tbl.mapVals x.dma fun _ c => { c with pkt := c.pkt.map f } }
  let d := d.onBuf fun b => { b with held := b.held.map fun h => { h with pkt := f h.pkt }, recvQ := b.recvQ.map f }
  let d := d.onPon fun p => { p with queues := Tbl.mapVals p.queues fun _ l => l.map f }
  { d with redch := Tbl.mapVals d.redch fun _ r => { r with heldF := r.heldF.map fun h => (h.1, h.2.map f) } }

/-- A frame of which only the first part has gone on. -/
def Pkt.openOf (p : Pkt) (die src xgem : Nat) : Bool := !p.whole && p.die == die && p.src == src && p.xgem == xgem

/-! ## Delivery to the ingress pipelines (R231, R303, R306, R328, R400, R449, R450) -/

/-- The upstream flow of an ONU on an XGEM port. -/
def Dev.upFlow (d : Dev) (onu xgem : Nat) : Option Nat :=
  (d.pon.flows.find? fun f => f.2.onu == onu && f.2.xgem == xgem && bit f.2.dir 1).map Prod.fst

/-- Any flow of an ONU on an XGEM port, for its counters. -/
def Dev.anyFlow (d : Dev) (onu xgem : Nat) : Option Nat :=
  (d.pon.flows.find? fun f => f.2.onu == onu && f.2.xgem == xgem).map Prod.fst

/-- R232 to R235: a frame discarded or poisoned. -/
def Dev.poisonCount (d : Dev) (c onu xgem : Nat) : Dev :=
  let d := d.bump (A.usPoisoned c)
  match d.anyFlow onu xgem with
  | some f => d.onFlow f fun x => { x with poisoned := x.poisoned + 1 }
  | none => d

/-- R449: upstream frames are numbered. -/
def Dev.numbers (d : Dev) : Bool := d.red.enable && (d.red.role == .active || d.red.role == .ready)

/-- A numbered frame enters the census of its microframe. -/
def Dev.censusAdd (d : Dev) (c mf flow seq : Nat) : Dev :=
  d.onRedCh c fun r =>
    if r.cens.any fun e => e.1 == mf then { r with cens := r.cens.map fun e => if e.1 == mf then (mf, e.2 ++ [(flow, seq)]) else e }
    else { r with cens := r.cens ++ [(mf, [(flow, seq)])] }

/-- A frame of a flow passes its policer and enters the spread stage, or is dropped. -/
def Dev.policed (d : Dev) (pkt : Pkt) : Dev :=
  match pkt.upFlow with
  | some f =>
    match d.police f pkt.len with
    | (true, d) => d.spread pkt.die pkt
    | (false, d) => d.lost pkt.die pkt
  | none => d.spread pkt.die pkt

/-- R450: a standby holds a frame, charged to the ONU's upstream owner, until its census arrives. -/
def Dev.holdFrame (d : Dev) (c : Nat) (pkt : Pkt) : Dev :=
  match poolOf pkt.len with
  | none => d.bump A.bufOversize
  | some p =>
    match d.sramRequest pkt.die pkt p (ownerTag 2 pkt.src) with
    | (.granted, d, pkt) =>
      d.onRedCh c fun r =>
        if r.heldF.any fun e => e.1 == pkt.mf then { r with heldF := r.heldF.map fun e => if e.1 == pkt.mf then (e.1, e.2 ++ [pkt]) else e }
        else { r with heldF := r.heldF ++ [(pkt.mf, [pkt])] }
    | (_, d, pkt) => d.lost pkt.die pkt

/-- A frame, or the first part of one, leaves the receiver of channel `c`. -/
def Dev.upstreamIn (d : Dev) (c : Nat) (of : OpenFrame) (data : Bytes) (whole : Bool) : Dev :=
  let die := c / 128
  let base : Pkt := { data := data, len := of.pli, die := die, ch := c, src := of.onu, xgem := of.xgem, mf := of.mf, whole := whole }
  if of.xgem < 1024 then (if whole && !d.standby then d.omciArrive of.onu data else d)
  else
    match d.upFlow of.onu of.xgem with
    | none =>
      if d.standby then d else (d.bump (A.cls die 0x040)).toException die base 2
    | some f =>
      match d.flow? f with
      | none => d
      | some fl =>
        let d := if whole then d.bwCount 1 c 0 of.pli else d
        let (tag, d) := if d.numbers then
            (some fl.rseq.toNat, (d.onFlow f fun x => { x with rseq := x.rseq + 1 }).censusAdd c of.mf f fl.rseq.toNat)
          else (none, d)
        let pkt := { base with upFlow := some f, rtag := tag }
        if d.standby then (if d.red.role == .ready then d.holdFrame c pkt else d.lost die pkt) else d.policed pkt

/-- The tail of a frame whose first part has gone on. -/
def Dev.tailIn (d : Dev) (c : Nat) (of : OpenFrame) (rest : Bytes) (bad : Bool) : Dev :=
  let die := c / 128
  let d := if bad then d else d.bwCount 1 c 0 of.pli
  (d.mapPkts fun p => if p.openOf die of.onu of.xgem then { p with data := p.data ++ rest, whole := true, poisoned := bad } else p).flushSending

/-! ## Frames (R230 to R235) -/

/-- Plain bytes of the part of a frame received so far. -/
def OpenFrame.plain (of : OpenFrame) : Bytes :=
  let body := of.bytes.take of.pli
  match of.key with
  | some k => lineCrypt k of.nonce 1 of.mf of.pos body
  | none => body

/-- A context of an XGEM port (R235). -/
def reasmKeyOf (onu xgem : Nat) : Nat := onu * 65536 + xgem
def Dev.context (d : Dev) (die onu xgem : Nat) : Option (Nat × Nat × Bytes × Nat × Bool) :=
  (d.die die).reasm.find? fun r => r.1 == reasmKeyOf onu xgem

/-- Store a fragment, or note a failed one, in its port's context. -/
def Dev.fragmentIn (d : Dev) (c : Nat) (of : OpenFrame) (data : Bytes) (bad : Bool) : Dev :=
  let die := c / 128
  let key := reasmKeyOf of.onu of.xgem
  let edge := d.time.edges
  match d.context die of.onu of.xgem with
  | some _ =>
    d.onDie die fun x => { x with reasm := x.reasm.map fun r =>
      if r.1 == key then (r.1, r.2.1, r.2.2.1 ++ data, r.2.2.2.1, r.2.2.2.2 || bad) else r }
  | none =>
    let full := decide (16384 ≤ (d.die die).reasm.length)
    d.onDie die fun x => { x with reasm := x.reasm ++ [(key, of.onu, if full then [] else data, edge, bad || full)] }

/-- The frame in reception ends badly: the outcome of R233. -/
def Dev.poison (d : Dev) (c : Nat) (of : OpenFrame) : Dev :=
  if of.skip then d
  else if !of.lf || (d.context (c / 128) of.onu of.xgem).isSome then d.fragmentIn c of [] true
  else
    let d := d.poisonCount c of.onu of.xgem
    if of.sent = 0 then d else d.tailIn c of [] true

/-- A tag fails under a key index (R233). -/
def Dev.tagFail (d : Dev) (onu idx : Nat) : Dev :=
  d.onOnu onu fun x => { x with acc := if idx = 1 then { x.acc with tagFail1 := x.acc.tagFail1 + 1 } else { x.acc with tagFail2 := x.acc.tagFail2 + 1 } }

/-- The last byte of a frame has been decoded. -/
def Dev.frameEnd (d : Dev) (c : Nat) (of : OpenFrame) : Dev :=
  let die := c / 128
  let size := padded (d.chan c).mode of.pli
  let ok := match of.key with
    | some k => k.alg != 1 || lineTag k.key of.nonce of.hdr (of.bytes.take size) == (of.bytes.drop size).take 16
    | none => true
  if of.skip then d
  else if !ok then (d.tagFail of.onu of.idx).poison c of
  else
    let data := of.plain
    if !of.lf then d.fragmentIn c of data false
    else
      match d.context die of.onu of.xgem with
      | some (key, _, first, _, bad) =>
        let d := d.onDie die fun x => { x with reasm := x.reasm.filter fun r => r.1 != key }
        if bad then d.poisonCount c of.onu of.xgem
        else d.upstreamIn c { of with pli := first.length + of.pli } (first ++ data) true
      | none => if of.sent = 0 then d.upstreamIn c of data true else d.tailIn c of (data.drop of.sent) false

/-- Bytes of a frame after which its first part goes on (R18, DEDUCED: log entry 21). -/
def headBytes : Nat := 512

/-- Bytes of the open frame arrive: the frame ends, or its first part goes on. -/
def Dev.frameBytes (d : Dev) (c : Nat) (b : Bytes) : Dev :=
  match (d.recv c).openF with
  | none => d
  | some of0 =>
    let of := { of0 with bytes := of0.bytes ++ b }
    let tag := match of.key with
      | some k => if k.alg = 1 then 16 else 0
      | none => 0
    let total := padded (d.chan c).mode of.pli + tag
    if total ≤ of.bytes.length then (d.onRecv c fun r => { r with openF := none }).frameEnd c { of with bytes := of.bytes.take total }
    else
      let n := min of.bytes.length of.pli
      let go := of.lf && !of.skip && of.sent == 0 && decide (1024 ≤ of.xgem) && decide (headBytes ≤ n)
        && (d.context (c / 128) of.onu of.xgem).isNone && (d.upFlow of.onu of.xgem).isSome
      if go then (d.onRecv c fun r => { r with openF := some { of with sent := n } }).upstreamIn c of of.plain false
      else d.onRecv c fun r => { r with openF := some of }

/-- Delineation stops or the burst ends inside a frame (R230, R233). -/
def Dev.frameCut (d : Dev) (c : Nat) : Dev :=
  match (d.recv c).openF with
  | some of => (d.onRecv c fun r => { r with openF := none }).poison c of
  | none => d

/-- An XGEM header (R230, R232, R306). -/
def Dev.frameStart (d : Dev) (c onu mf pos : Nat) (word : BitVec 64) : Dev :=
  let w := word.toNat
  let port := xgemPort w
  let idx := xgemKey w
  let pli := xgemPli w
  let ch := d.chan c
  let key := if idx = 0 then none else Keys.accept (d.onu onu).keys idx (mf / 16)
  let noKey := idx == 3 || (idx != 0 && key.isNone)
  let bare := idx == 0 && (match (d.upFlow onu port).bind d.flow? with | some f => f.encrypt == 1 | none => false)
  let idle := port == 0xFFFF
  let d := if idle then d else if noKey then d.bump (A.usPoisoned c) else if bare then d.poisonCount c onu port else d
  let of : OpenFrame :=
    { onu := onu, mf := mf, xgem := port, pli := pli, lf := xgemLf w, idx := idx, key := key, nonce := lineNonce mf 1 ch.dsWl pos
      pos := pos, hdr := w / 2 ^ 13, skip := idle || noKey || bare }
  if pli = 0 then d else d.onRecv c fun r => { r with openF := some of }

/-- One item of a decoded codeword. -/
def Dev.cwItem (d : Dev) (c onu mf : Nat) (i : CwItem) : Dev :=
  let r := d.recv c
  match i with
  | .alloc id report =>
    let d := (d.frameCut c).onRecv c fun r => { r with stopped := false }
    let key := allocKey (d.onu onu).tree id
    match report, d.alloc? key with
    | some occ, some a => if a.onu = onu && !d.standby && decide ((d.redCh c).listenTo ≤ mf) && occ != 0xFFFFFF then d.report key (4 * occ) mf else d
    | _, _ => d
  | .header pos word ok =>
    if r.stopped then d
    else
      let d := d.frameCut c
      if ok then d.frameStart c onu mf pos word else d.onRecv c fun r => { r with stopped := true }
  | .bytes b => if r.stopped then d else d.frameBytes c b
  | .burstEnd => (d.frameCut c).onRecv c fun r => { r with burst := none, stopped := false }

/-! ## Rows -/

/-- The receiver of a channel runs (R216, R239). -/
def Dev.rxRuns (d : Dev) (c : Nat) : Bool :=
  d.chanUp c && d.ponRuns (c / 128) && (d.chan c).state != .off

/-- Count a request for RSSI and hold its place for the record, or note that none will come (R209, R227, R238). -/
def Dev.rssiAsk (d : Dev) (c : Nat) (onu : Option Nat) : Dev :=
  if d.standby then d
  else
    let none' := fun (d : Dev) => match onu with
      | some o => d.onOnu o fun x => { x with acc := { x.acc with rxPower := 0x8000 } }
      | none => d
    if !bit (d.live' (A.usCfg c)) 17 then none' d
    else
      let seq := ((d.chan c).rssiReqs + 1) % 256
      let d := d.onChan c fun x => { x with rssiReqs := x.rssiReqs + 1 }
      if !(d.eng (c / 16)).up then none' d
      else
        match onu with
        | some o => d.onRecv c fun r => { r with rssi := r.rssi ++ [(seq, o, d.time.edges)] }
        | none => d

/-- R222: a robust state that the ONU takes at the next T0. -/
def Dev.robustAfter (d : Dev) (c onu : Nat) : Dev :=
  let e := d.onu onu
  let lock := bit (d.live' (A.usCfg c)) 23
  let next := if lock then false else if 2 ≤ e.missRun then true else if 128 ≤ e.lockRun then false else e.robustNext
  d.onOnu onu fun x => { x with robustNext := next }

/-- BURST_LOCKED (R222 to R228, R236, R237, R262): a granted burst of an ONU locks; `mf` is the upstream microframe that its grant
addressed, `collision` the first codeword that a collision spoils. -/
def execBurstLocked (channel onu mf lock : Nat) (offset : Int) (collision : Option Nat) (s : State) : Host.Outcome State Fault Refusal :=
  act (decide (channel < 512) && decide (onu < 65536) && decide (lock < 65536)) (fun d =>
    if !d.rxRuns channel || (d.onu onu).state == .absent then d
    else
      let c := channel
      let d := d.frameCut c
      let d := (d.bump (A.usBursts c)).perf (c / 128) 0x040 1 [(3, c), (1, onu)]
      let hit := if bit (d.live' (A.usCfg c)) 16 then collision else none
      let d := if hit.isSome then (d.setBit (A.usStatus c) 5 true).bumpSat (A.usCollide c) else d
      let d := d.setBit (A.usStatus c) 4 false
      let d := d.onRecv c fun r => { r with
        lastOffset := offset, lockedNow := true, lossRun := 0, stopped := false, burst := some (onu, mf, 0, hit) }
      let d := d.onOnu onu fun x => { x with
        missRun := 0, lockRun := x.lockRun + 1
        blockN := if x.blockN < 128 then x.blockN + 1 else x.blockN, blockSum := if x.blockN < 128 then x.blockSum + offset else x.blockSum
        acc := { x.acc with lock := lock, offset := offset, bursts := x.acc.bursts + 1 } }
      (d.rssiAsk c (some onu)).robustAfter c onu) s

/-- BURST_MISSED (R222, R224, R244): no delimiter in the search window. -/
def execBurstMissed (channel onu : Nat) (s : State) : Host.Outcome State Fault Refusal :=
  act (decide (channel < 512) && decide (onu < 65536)) (fun d =>
    if !d.rxRuns channel || (d.onu onu).state == .absent then d
    else
      let c := channel
      let d := (d.bump (A.usMissed c)).perf (c / 128) 0x041 1 [(3, c), (1, onu)]
      let d := d.onOnu onu fun x => { x with lockRun := 0, acc := { x.acc with missed := x.acc.missed + 1 } }
      let d := d.rssiAsk c none
      if (d.onu onu).rogueOff || d.standby then d
      else
        let d := (d.onOnu onu fun x => { x with missRun := x.missRun + 1 }).robustAfter c onu
        let lob := max 4 (fld (d.live' (A.rngCfg c)) 24 6)
        if lob ≤ (d.onu onu).missRun && OnuState.losable (d.onu onu).state then d.orderMove onu .discovered 6 else d) s

/-- BURST_OUTSIDE_WINDOW (R225, R236). -/
def execBurstOutsideWindow (channel onu : Nat) (s : State) : Host.Outcome State Fault Refusal :=
  act (decide (channel < 512) && decide (onu < 65536)) (fun d =>
    if !d.rxRuns channel || (d.onu onu).state == .absent then d
    else
      let d := d.onOnu onu fun x => { x with acc := { x.acc with window := x.acc.window + 1 } }
      let now := d.time.edges
      d.onRecv channel fun r => { r with outside := (onu, now) :: r.outside.filter fun e => decide (now < e.2 + 128) }) s

/-- CODEWORD_DECODED (R229 to R235): a codeword of the burst in reception, with its information bits and what they hold. -/
def execCodewordDecoded (channel info corrected : Nat) (uncorrectable : Bool) (items : List CwItem) (s : State) : Host.Outcome State Fault Refusal :=
  act (decide (channel < 512) && decide (info ≤ 14592)) (fun d =>
    match (d.recv channel).burst with
    | some (onu, mf, n, hit) =>
      if !d.rxRuns channel then d
      else
        let c := channel
        let bad := uncorrectable || (match hit with | some h => decide (h ≤ n) | none => false)
        let err := if bad then info else corrected
        let d := ((d.bump (A.usCw c)).bump (A.usBits c) info).bump (A.usPrefec c) err
        let d := if bad then d.bump (A.usCwUncorr c) else d
        let d := d.onOnu onu fun x => { x with acc := { x.acc with preFec := x.acc.preFec + err, bits := x.acc.bits + info } }
        let d := d.onRecv c fun r => { r with burst := some (onu, mf, n + 1, hit) }
        if bad then
          let d := (d.frameCut c).onRecv c fun r => { r with stopped := true }
          (items.filter (· == .burstEnd)).foldl (fun d i => d.cwItem c onu mf i) d
        else items.foldl (fun d i => d.cwItem c onu mf i) d
    | none => d) s

/-- Drop the poisoned packets of a list that pass a test; answers those that stay. -/
def stay (die src : Nat) (l : List Pkt) : List Pkt := l.filter fun p => !(p.poisoned && p.die == die && p.src == src)

/-- POISONED_TAIL_ARRIVAL (R234): the poisoned marks of a source reach the Polder. -/
def execPoisonedTailArrival (die src : Nat) (s : State) : Host.Outcome State Fault Refusal :=
  act (decide (die < 4)) (fun d =>
    let hit := fun (p : Pkt) => p.poisoned && p.die == die && p.src == src
    -- frames that the egress has started end with the complement of their FCS
    let started := d.data.sending.filter fun e => hit e.2
    let d := d.onData fun x => { x with sending := x.sending.filter fun e => !hit e.2 }
    let d := started.foldl (fun d e =>
      let body := e.2.data.take (e.2.data.length - 4)
      (d.emit (.badTail e.1 (le 4 (0xFFFFFFFF - crc32 body)))).freePkt e.2) d
    -- frames still inside are dropped
    let x := d.die die
    let waiting := (x.order.flatMap fun o => o.2.done.filterMap fun e => e.2.1).filter hit
    let inside := x.recirc.filter hit ++ x.fenced.filter hit ++ (x.holding.map fun h => h.2.1).filter hit ++ waiting
    let clear := fun (_ : Nat) (o : Order) => { o with done := o.done.map fun e =>
      match e.2.1 with
      | some p => if hit p then (e.1, none, e.2.2) else e
      | none => e }
    let d := d.onDie die fun x => { x with
      recirc := stay die src x.recirc, fenced := stay die src x.fenced, holding := x.holding.filter fun h => !hit h.2.1
      order := Tbl.mapPut {} x.order clear }
    let d := (x.recirc.filter hit).foldl (fun d p => d.giveUp die p) d
    let held := (d.data.buf.held.filter fun h => hit h.pkt).map (·.pkt)
    let d := d.onBuf fun b => { b with held := b.held.filter fun h => !hit h.pkt, recvQ := stay die src b.recvQ }
    let d := (inside ++ held).foldl (fun d p => d.lost die p) d
    let d := d.each (Tbl.keys d.pon.queues) fun f d => (d.purgeQ (.flow f) hit).2
    let d := d.each (Tbl.keys d.data.subs) fun sp d => d.each (List.range 8) fun k d => (d.purgeQ (.up sp k) hit).2
    let d := d.each (List.range 16) fun k d => (d.purgeQ (.exc k) hit).2
    d.each (Tbl.keys d.redch) fun c d =>
      let gone := (d.redCh c).heldF.flatMap fun h => h.2.filter hit
      let d := d.onRedCh c fun r => { r with heldF := r.heldF.map fun h => (h.1, stay die src h.2) }
      gone.foldl (fun d p => d.freePkt p) d) s

/-- REASSEMBLY_TIMEOUT (R235): a context not completed within 16 ticks of its opening. -/
def execReassemblyTimeout (onu xgem : Nat) (s : State) : Host.Outcome State Fault Refusal :=
  act (decide (onu < 65536) && decide (xgem < 65536)) (fun d =>
    let c := (d.onu onu).channel
    match d.context (c / 128) onu xgem with
    | some (key, _, _, edge, _) =>
      if edge + 16 ≤ d.time.edges then
        (d.onDie (c / 128) fun x => { x with reasm := x.reasm.filter fun r => r.1 != key }).poisonCount c onu xgem
      else d
    | none => d) s

/-! ## Rogue detection and isolation (R236, R523 to R525) -/

/-- Start an isolation on a channel, or note the trigger while one runs on its Dike. -/
def Dev.rogueStart (d : Dev) (c kind : Nat) : Dev :=
  let n := c / 128
  if !bit (d.reg A.pavCfg) 1 || (d.chan c).state != .service || !d.fwServes then d
  else if (d.die n).rogue.isSome then d.onDie n fun x => { x with rogueWait := x.rogueWait ++ [(c, kind)] }
  else
    let cands := (d.onusWith fun o => o.state != .absent && o.channel == c).mergeSort fun a b => decide ((d.onu a).lineId ≤ (d.onu b).lineId)
    let r : Isolation := { channel := c, kind := kind, cands := cands, from' := d.time.edges }
    (d.onDie n fun x => { x with rogue := some r }).setReg (A.rogueStatus n) (c % 128 + 0x80 + 0xFFFF0000)

/-- A reflectometry run is ordered or in progress on the tree. -/
def Dev.otdrBusy (d : Dev) (t : Nat) : Bool := (d.otdrOf t).run.isSome || (d.otdrOf t).ordered.isSome

/-- Dike `n` runs four reflectometry runs (Table 6-6, 0x0E). -/
def Dev.otdrFull (d : Dev) (n : Nat) : Bool :=
  decide (4 ≤ countP (fun e => (e.2.run.isSome || e.2.ordered.isSome) && e.2.channel / 128 == n) d.otdr)

/-- Order a run; it starts at the next T0 (R516). The results of the tree are dropped (R153), and stay for the comparison of R520. -/
def Dev.otdrOrder (d : Dev) (t c span avg : Nat) : Dev :=
  d.onOtdr t fun o =>
    { ordered := some (span, avg), channel := c, role := d.red.role, restarts := d.pav.begun, prior := o.prior || o.valid
      prev := if o.valid then o.events else o.prev }

/-- R520: loss of upstream starts a run on the channel's tree while AUTO_OTDR is 1. -/
def Dev.otdrAuto (d : Dev) (c : Nat) : Dev :=
  match (d.chan c).tree with
  | some t =>
    let first := (d.treeChans t).headD c
    if bit (d.reg A.pavCfg) 0 && d.fwServes && !d.standby && !d.otdrBusy t && !d.otdrFull (c / 128) && (d.chan first).state != .off then
      d.otdrOrder t first (d.reachOf c).2 1024
    else d
  | none => d

/-- ROGUE_DETECT (R236): kind 0 energy in unallocated time, 1 continuous transmitter, 2 bursts outside their window (of `onu`), 3 loss
of upstream; kinds 2 and 3 rest on what the receiver has counted. -/
def execRogueDetect (channel kind onu : Nat) (s : State) : Host.Outcome State Fault Refusal :=
  act (decide (channel < 512) && decide (kind < 4) && decide (onu < 65536)) (fun d =>
    let c := channel
    let now := d.time.edges
    let r := d.recv c
    let holds := if kind = 2 then decide (4 ≤ countP (fun e => e.1 == onu && decide (now < e.2 + 128)) r.outside)
      else if kind = 3 then decide (32 ≤ r.lossRun) else true
    if !d.rxRuns c || (d.chan c).state != .service || !bit (d.live' (A.usCfg c)) 16 || !holds then d
    else
      let d := (d.setBit (A.usStatus c) (kind + 1) true).bumpSat (A.usRogue c)
      let d := if kind = 2 then d.onRecv c fun r => { r with outside := r.outside.filter fun e => e.1 != onu } else d
      let d := d.limited [0xE005, c, kind] 1000000000 fun d =>
        let d := d.evLineFault c (if kind = 2 then onu else 0xFFFF) kind
        if kind < 2 then d.rogueStart c kind else if kind = 3 then d.otdrAuto c else d
      d) s

/-- The entries that a round disables, and the end of those it no longer disables (R523). -/
def Dev.rogueRound (d : Dev) (n : Nat) (h : List Nat) : Dev :=
  match (d.die n).rogue with
  | some r =>
    let d := d.each (r.off.filter fun o => !h.contains o) fun o d => (d.disableSn o false).onOnu o fun x => { x with rogueOff := false }
    let d := d.each (h.filter fun o => !r.off.contains o) fun o d => (d.disableSn o true).onOnu o fun x => { x with rogueOff := true }
    d.onDie n fun x => { x with rogue := some { r with off := h, round := r.round + 1, from' := d.time.edges } }
  | none => d

/-- The half of the candidates that the next round disables. -/
def firstHalf (c : List Nat) : List Nat := c.take ((c.length + 1) / 2)

/-- After an isolation has ended, the oldest waiting trigger is examined again. -/
def Dev.rogueNext (d : Dev) (n : Nat) : Dev :=
  match (d.die n).rogueWait with
  | (c, k) :: rest => (d.onDie n fun x => { x with rogueWait := rest }).rogueStart c k
  | [] => d

/-- R524 step 1: a locked-out channel's OPERATING tunable ONUs migrate to another SERVICE channel of the tree with room. -/
def Dev.lockoutMoves (d : Dev) (c : Nat) : Dev :=
  if !(d.chan c).lockNext then d
  else
    let mates := (d.mates c).filter fun t => (d.chan t).state == .service
    d.each (d.onusWith fun o => o.state == .operating && o.channel == c && o.migr.isNone && bit o.caps 2) fun o d =>
      let e := d.onu o
      let fits := fun (t : Nat) => decide (d.chanOnus t < 256) && bit e.tuneDs (d.chan t).dsWl && bit e.tuneUs (d.chan t).usWl
        && d.admits t (d.chanAllocs t ++ d.pon.allocs.filter fun a => a.2.onu == o)
      match mates.find? fits with
      | some t => d.onOnu o fun y => { y with migr := some { old := c, target := t, notBefore := d.nextCommit } }
      | none => d

/-- ROGUE_ROUND_END (R523): the 16 observed ticks of a round are over; `energy` says whether the round found energy. -/
def execRogueRoundEnd (die : Nat) (energy : Bool) (s : State) : Host.Outcome State Fault Refusal :=
  act (decide (die < 4)) (fun d =>
    match (d.die die).rogue with
    | some r =>
      if d.time.edges < r.from' + 18 || !d.fwServes then d
      else
        let cands := if r.round = 0 then r.cands else if energy then r.cands.filter (fun o => !r.off.contains o) else r.off
        let last := r.round != 0 && r.cands.length == 1
        let c := r.channel
        if r.round = 0 && !energy then (d.rogueEnd die 3 none).rogueNext die
        else if last then
          (if energy then ((d.rogueEnd die 2 none).lockoutMoves c).rogueNext die else (d.rogueEnd die 1 r.cands.head?).rogueNext die)
        else if cands.isEmpty then ((d.rogueEnd die 2 none).lockoutMoves c).rogueNext die
        else
          let d := d.onDie die fun x => { x with rogue := some { r with cands := cands } }
          d.rogueRound die (if cands.length = 1 then cands else firstHalf cands)
    | none => d) s

end Sys2Proof.Machine
end

