-- ==== Sys2Proof/Machine/Tenants.lean ====
section
/-! DEFINITION. Service flows, tenants and the measurement of ONUs and channels (12_isolation_and_crypto.md, Tables 6-12, 6-20 and 6-22).
Choices and readings: log entries 123 and 139. -/

namespace Sys2Proof.Machine

/-! ## Service flows (R145, R303 to R306) -/

/-- Service flows of the whole device. -/
def flowMax : Nat := 2097152

/-- The tenant of a flow is its ONU's (R302). -/
def Dev.tenantOfFlow (d : Dev) (f : Nat) : Nat :=
  match d.flow? f with
  | some fl => d.flowTenant fl
  | none => 0

/-- The allocation that a FLOW_CREATE names, on the tree of its ONU. -/
def flowAlloc (d : Dev) (x : Call) : Option Alloc :=
  let e := d.onu (x.a 1)
  if e.state == .absent || x.a 3 == 0xFFFF then none else d.alloc? (allocKey e.tree (x.a 3))

/-- The tree of an ONU. -/
def Dev.flowTree (d : Dev) (fl : Flow) : Nat := (d.onu fl.onu).tree

/-- The flow of a tree that holds an XGEM port. -/
def Dev.xgemHolder (d : Dev) (tree xgem : Nat) : Option Nat :=
  (d.pon.flows.find? fun e => e.2.xgem == xgem && d.flowTree e.2 == tree).map Prod.fst

/-- FLOW_CREATE (Table 12-1). -/
def cmdFlowCreate : Cmd where
  op := 0x0401
  caller := .t
  layout := [fd 4, fd 2, fd 2, fd 2, fd 1, fd 1, fd 1, rs 3]
  mirrored := true
  commit := true
  bad d x :=
    let other := match flowAlloc d x with
      | some a => a.onu != x.a 1 && d.sees x.func (d.onu (x.a 1)).tenant
      | none => false
    badIf [(0x00, decide (flowMax ≤ x.a 0) || (d.flow? (x.a 0)).isSome),
      (0x06, decide (x.a 2 < 1024) || x.a 2 == 0xFFFF),
      (0x08, (decide (16384 ≤ x.a 3) && x.a 3 != 0xFFFF) || (x.a 3 == 0xFFFF) == bit (x.a 5) 1 || other),
      (0x0A, decide (7 < x.a 4)), (0x0B, x.a 5 == 0 || decide (3 < x.a 5)), (0x0C, decide (1 < x.a 6))]
  absent d x :=
    let e := d.onu (x.a 1)
    if e.state == .absent || !d.sees x.func e.tenant then some 0x04
    else if x.a 3 == 0xFFFF then none
    else match flowAlloc d x with
      | some a => if d.sees x.func (d.onu a.onu).tenant then none else some 0x08
      | none => some 0x08
  unavail d x := if d.chanUp (d.onu (x.a 1)).channel then none else some 0x04
  state d x := if (d.onu (x.a 1)).auth then none else some (OnuState.code (d.onu (x.a 1)).state)
  full d x :=
    let t := (d.onu (x.a 1)).tenant
    if flowMax ≤ d.pon.flows.length then some 0x03
    else if t != 0 && decide ((d.tenant t).flows ≤ d.useFlows t) then some 0x05
    else none
  special d x :=
    match d.xgemHolder (d.onu (x.a 1)).tree (x.a 2) with
    | some f => some (0x800A, if d.sees x.func (d.tenantOfFlow f) then f else 0xFFFFFFFF)
    | none => none
  run d x :=
    let f := x.a 0
    let fl : Flow := { onu := x.a 1, xgem := x.a 2, alloc := x.a 3, cls := x.a 4, dir := x.a 5, encrypt := x.a 6 }
    let d := d.onPon fun p => { p with flows := Tbl.set p.flows f fl }
    let d := if bit fl.dir 0 then d.onNode (nodeKey 2 f) fun _ => { prio := fl.cls, edge := d.time.edges } else d
    let d := if bit fl.dir 1 then d.onPol f fun _ => { edge := d.time.edges } else d
    (d, .ok [])

/-- The flow exists and the caller sees it. -/
def flowAbsent (d : Dev) (x : Call) : Option Nat :=
  match d.flow? (x.a 0) with
  | some fl => if d.sees x.func (d.flowTenant fl) then none else some 0
  | none => some 0

/-- The flow's channel is up (R487). -/
def flowDown (d : Dev) (x : Call) : Option Nat :=
  match d.flow? (x.a 0) with
  | some fl => if d.chanUp (d.onu fl.onu).channel then none else some 0
  | none => none

/-- FLOW_DELETE (R145, R305, R388, R395). -/
def cmdFlowDelete : Cmd where
  op := 0x0402
  caller := .t
  layout := [fd 4]
  mirrored := true
  commit := true
  bad _ x := badIf [(0, decide (flowMax ≤ x.a 0))]
  absent := flowAbsent
  unavail := flowDown
  run d x := (d.dropFlows fun f _ => f == x.a 0, .ok [])

/-- FLOW_GET. -/
def cmdFlowGet : Cmd where
  op := 0x0403
  caller := .r
  layout := [fd 4]
  bad _ x := badIf [(0, decide (flowMax ≤ x.a 0))]
  absent := flowAbsent
  unavail := flowDown
  run d x :=
    match d.flow? (x.a 0) with
    | some fl =>
      (d, .ok (le 2 fl.onu ++ le 2 fl.xgem ++ le 2 fl.alloc ++ le 1 fl.cls ++ le 1 fl.dir ++ le 1 fl.encrypt
        ++ le 1 (d.flowTenant fl) ++ le 2 0))
    | none => (d, .err 0x0008 0)

/-- FLOW_CREATE. -/
def execFlowCreate (m : Msg) (s : State) : Host.Outcome State Fault Refusal := request cmdFlowCreate m s
/-- FLOW_DELETE. -/
def execFlowDelete (m : Msg) (s : State) : Host.Outcome State Fault Refusal := request cmdFlowDelete m s
/-- FLOW_GET. -/
def execFlowGet (m : Msg) (s : State) : Host.Outcome State Fault Refusal := request cmdFlowGet m s

/-! ## Tenants (R155, R298 to R301) -/

/-- TENANT is 1 to 62. -/
def tenantBad (x : Call) : Bool := x.a 0 == 0 || decide (62 < x.a 0)

/-- The function of a bound tenant, or WRONG_STATE 0x30. -/
def tenantUnbound (d : Dev) (x : Call) : Option Nat := if (d.funcOfTenant (x.a 0)).isSome then none else some 0x30

/-- TENANT_BIND (R299, R118). -/
def cmdTenantBind : Cmd where
  op := 0x0E01
  lvl := 3
  layout := [fd 1, fd 1, rs 2]
  mirrored := true
  bad _ x := badIf [(0, tenantBad x), (1, decide (x.a 1 < 2) || decide (63 < x.a 1))]
  state d x := if (d.funcOfTenant (x.a 0)).isSome || (d.fn (x.a 1)).tenant != 0 then some 0x31 else none
  run d x :=
    (d.onFn (x.a 1) fun f => { f with
      tenant := x.a 0
      kiosk := { f.kiosk with tokens := (d.tenant (x.a 0)).cmdDepth * 1000000000, filledAt := d.time.now } }, .ok [])

/-- TENANT_UNBIND (R300). -/
def cmdTenantUnbind : Cmd where
  op := 0x0E02
  lvl := 3
  layout := [fd 1, rs 3]
  mirrored := true
  bad _ x := badIf [(0, tenantBad x)]
  state := tenantUnbound
  run d x :=
    match d.funcOfTenant (x.a 0) with
    | some f =>
      let d := d.fillBudget f
      let d := d.onFn f fun y => { y with tenant := 0, grant := false, tk := none }
      (d.cryptoClear f 255, .ok [])
    | none => (d, .ok [])

/-- TENANT_SET_QUOTA (R140, R118). -/
def cmdTenantSetQuota : Cmd where
  op := 0x0E03
  lvl := 3
  layout := [fd 1, rs 1, fd 2, fd 4, fd 4, fd 4, fd 4, fd 2, rs 2]
  mirrored := true
  bad _ x := badIf [(0, tenantBad x)]
  run d x :=
    let q : Tenant := { onus := x.a 1, flows := x.a 2, allocs := x.a 3, bufKib := x.a 4, cmdRate := x.a 5, cmdDepth := x.a 6 }
    let d := match d.funcOfTenant (x.a 0) with
      | some f => (d.fillBudget f).onKiosk f fun k => { k with tokens := min k.tokens (x.a 6 * 1000000000) }
      | none => d
    (d.onTenant (x.a 0) fun _ => q, .ok [])

/-- TENANT_GET (R371: the buffer use is rounded up). -/
def cmdTenantGet : Cmd where
  op := 0x0E04
  lvl := 3
  caller := .t
  since := 2
  layout := [fd 1, rs 3]
  bad _ x := badIf [(0, tenantBad x)]
  absent d x := if d.sees x.func (x.a 0) then none else some 0
  run d x :=
    let t := x.a 0
    let q := d.tenant t
    let f := d.funcOfTenant t
    (d, .ok (le 1 (f.getD 0) ++ le 1 (nb f.isSome) ++ le 2 (d.useOnus t) ++ le 4 (d.useFlows t) ++ le 4 (d.useAllocs t)
      ++ le 4 (ceilDiv (d.tenantUse t) 4) ++ le 2 q.onus ++ le 4 q.flows ++ le 4 q.allocs ++ le 4 q.bufKib ++ le 4 q.cmdRate
      ++ le 2 q.cmdDepth ++ le 2 0))

/-- COUNTER_GRANT. -/
def cmdCounterGrant : Cmd where
  op := 0x0E05
  lvl := 3
  layout := [fd 1, fd 1, rs 2]
  mirrored := true
  bad _ x := badIf [(0, tenantBad x), (1, decide (1 < x.a 1))]
  state := tenantUnbound
  run d x :=
    match d.funcOfTenant (x.a 0) with
    | some f => (d.onFn f fun y => { y with grant := x.a 1 == 1 }, .ok [])
    | none => (d, .ok [])

/-- TENANT_BIND. -/
def execTenantBind (m : Msg) (s : State) : Host.Outcome State Fault Refusal := request cmdTenantBind m s
/-- TENANT_UNBIND. -/
def execTenantUnbind (m : Msg) (s : State) : Host.Outcome State Fault Refusal := request cmdTenantUnbind m s
/-- TENANT_SET_QUOTA. -/
def execTenantSetQuota (m : Msg) (s : State) : Host.Outcome State Fault Refusal := request cmdTenantSetQuota m s
/-- TENANT_GET. -/
def execTenantGet (m : Msg) (s : State) : Host.Outcome State Fault Refusal := request cmdTenantGet m s
/-- COUNTER_GRANT. -/
def execCounterGrant (m : Msg) (s : State) : Host.Outcome State Fault Refusal := request cmdCounterGrant m s

/-! ## Measurements (R153, R228) -/

/-- MEAS_ONU. -/
def cmdMeasOnu : Cmd where
  op := 0x0C01
  lvl := 2
  caller := .r
  layout := [fd 2, rs 2]
  absent := onuAbsent
  unavail := onuDown
  run d x :=
    let a := (d.onu (x.a 0)).acc
    (d, .ok (le 2 a.rxPower ++ le 2 a.lock ++ le 4 (field 32 a.offset) ++ le 8 a.preFec ++ le 8 a.bits ++ le 8 a.bursts))

/-- MEAS_CHAN. -/
def cmdMeasChan : Cmd where
  op := 0x0C02
  lvl := 2
  caller := .x
  layout := [fd 2, rs 2]
  bad _ x := badIf [(0, decide (512 ≤ x.a 0))]
  unavail := chanDown
  run d x :=
    let c := x.a 0
    (d, .ok (le 8 (d.ctr (A.usPrefec c)) ++ le 8 (d.ctr (A.usBits c)) ++ le 8 (d.ctr (A.usCwUncorr c))
      ++ le 4 (d.reg (A.usRogue c)) ++ le 4 (d.reg (A.ovrCnt c))))

/-- MEAS_ONU. -/
def execMeasOnu (m : Msg) (s : State) : Host.Outcome State Fault Refusal := request cmdMeasOnu m s
/-- MEAS_CHAN. -/
def execMeasChan (m : Msg) (s : State) : Host.Outcome State Fault Refusal := request cmdMeasChan m s

end Sys2Proof.Machine
end

