-- ==== Sys2Proof/Machine/Dma.lean ====
section
/-! DEFINITION. The DMA engine: channels, descriptors, units, injection and errors (R463 to R476).
Choices and readings: log entries 41, 42 and 43. -/

namespace Sys2Proof.Machine

/-! ## Descriptors (Tables 19-2 to 19-4) -/

def dAddr (b : Bytes) : Nat := leAt b 0x00 8
def dLen (b : Bytes) : Nat := leAt b 0x08 4
def dCtrl (b : Bytes) : Nat := leAt b 0x0C 4
def dNext (b : Bytes) : Nat := leAt b 0x10 8
def dDest (b : Bytes) : Nat := leAt b 0x18 4

/-- Requester of channel `n`. -/
def Dev.dmaReq (d : Dev) (n : Nat) : Nat := d.regFld (A.dmaCfg n) 8 8

/-- The channel injects packets from the host. -/
def Dev.dmaInjects (d : Dev) (n : Nat) : Bool := d.dmaReq n == 0

/-- Offset in the descriptor RAM that an address names, if it names one. -/
def ramOffset (addr : Nat) : Option Nat := if bit addr 0 then some (fld addr 5 11 * 32) else none

/-- STATUS (Table 19-3). -/
def dmaStatus (last sop eop : Bool) (code count : Nat) : Nat :=
  1 + 2 * nb (code == 1 || code == 2 || code == 6) + 4 * nb last + 8 * nb sop + 16 * nb eop + 32 * code + 65536 * (count % 32768)

/-- Metadata of a unit: bytes 0x00 to 0x0F, and 0x18 (Table 19-4). -/
def dmaMeta (p : Option Pkt) (written : Nat) : Bytes × Bytes :=
  match p with
  | some p =>
    let (sec, ns, frac) := p.ts.getD (0, 0, 0)
    let cls := match p.dest with
      | .exc c => c
      | _ => 0
    (le 4 ns ++ le 4 sec ++ le 4 (frac + 65536 * written + 2 ^ 31 * nb p.ts.isSome)
      ++ le 4 (p.rule.getD 0 % 2 ^ 18 + 2 ^ 18 * (p.epoch % 256) + 2 ^ 26 * cls + 2 ^ 30 * nb (p.raised == 2) + 2 ^ 31 * nb (p.raised == 0)),
      le 4 (p.src + 65536 * p.die))
  | none => (le 8 0 ++ le 4 (65536 * written) ++ le 4 0, le 4 0)

/-- R465: the write-back of the current descriptor, with its causes (R475). -/
def Dev.dmaWriteBack (d : Dev) (n : Nat) (last sop eop : Bool) (code count written : Nat) : Dev :=
  let c := d.dmaCh n
  match c.cur with
  | some b =>
    let st := le 4 (dmaStatus last sop eop code count)
    let bs := if d.dmaInjects n then slice b 0 0x0C ++ le 4 (withBit (dCtrl b) 0 false) ++ slice b 0x10 0x0C ++ st
      else
        let (m, s) := dmaMeta c.pkt written
        m ++ le 8 (dNext b) ++ s ++ st
    let d := match ramOffset c.desc with
      | some o => d.onData fun x => { x with descRam := Mem.write x.descRam o bs }
      | none => d.emit (.dmaWrite (d.dmaOwner n) c.desc bs)
    let d := (d.bump (A.dmaDescs n)).onDma n fun x => { x with cur := none, count := count }
    let req := d.dmaReq n
    if !bit (dCtrl b) 1 then d
    else if 1 ≤ req && req ≤ 16 then d.setCause (A.dmaCause n) (A.dmaIntEn n) 1 (35 + (req - 1)) 1
    else d.dmaCauseSet n 1
  | none => d

/-- R466: after a write-back the channel follows NEXT, or waits at the end of the list. -/
def Dev.dmaFollow (d : Dev) (n : Nat) (b : Bytes) : Dev :=
  if bit (dCtrl b) 4 then d.onDma n fun x => { x with state := .fin, descNew := false }
  else d.onDma n fun x => { x with desc := dNext b }

/-! ## Offering units (R463, R468) -/

/-- The oldest unit that a requester has waiting, with its packet if it is one. -/
def Dev.nextUnit (d : Dev) (req : Nat) : Option (Bytes × Option Pkt) :=
  if req ≤ 16 then ((d.getQ (.exc (req - 1))).head?).map fun p => (p.data, some p)
  else ((Tbl.look [] d.data.units req).head?).map fun u => (u, none)

/-- Take the oldest unit of a requester off its queue. -/
def Dev.popUnit (d : Dev) (req : Nat) : Dev :=
  if req ≤ 16 then d.setQ (.exc (req - 1)) ((d.getQ (.exc (req - 1))).drop 1)
  else d.onData fun x => { x with units := Tbl.put [] x.units req ((Tbl.look [] x.units req).drop 1) }

/-- A channel holds a descriptor and no unit. -/
def Dev.dmaReady (d : Dev) (n : Nat) : Bool :=
  let c := d.dmaCh n
  c.en && c.state == .run && c.cur.isSome && c.unit.isNone

/-- Offer waiting units to a requester's ready channels in turn, in ascending channel order. -/
def Dev.dmaOffer (d : Dev) (req : Nat) : Nat → Dev
  | 0 => d
  | k + 1 =>
    let last := Tbl.look 0 d.data.offered req
    let turn := (List.range 32).map fun i => (last + 1 + i) % 32
    match d.nextUnit req, turn.find? fun n => d.dmaReq n == req && d.dmaReady n with
    | some (u, p), some n =>
      let d := (d.popUnit req).onDma n fun c => { c with unit := some u, done := 0, pkt := p }
      Dev.dmaOffer (d.onData fun x => { x with offered := Tbl.put 0 x.offered req n }) req k
    | _, _ => d

/-- Bring the offers of a channel's requester up to date. -/
def Dev.dmaServe (d : Dev) (n : Nat) : Dev := if d.dmaInjects n || decide (0x13 < d.dmaReq n) then d else d.dmaOffer (d.dmaReq n) 32

/-! ## Injection (R467) -/

/-- The packet of an injection whose first descriptor is `b`, `total` bytes long. -/
def injected (b : Bytes) (total : Nat) : Pkt :=
  let w := dDest b
  { data := [], len := total, die := 6, cls := fld w 24 3, injected := true
    dest := if bit w 23 then .flow (fld w 0 21) else .uplink (fld w 0 21)
    tsTag := if bit (dCtrl b) 3 then some (fld (dCtrl b) 16 16) else none }

/-- The packet goes to the Basin and takes no buffer (step 2 of Table 15-4). -/
def Dev.spills (d : Dev) (p : Pkt) : Bool :=
  match poolOf p.len, queueOf p with
  | some pool, some q =>
    let owner := d.ownerOf p
    let l := d.getQ q
    let head := (l.filter fun x => x.seg == 0).foldl (fun a x => a + x.len) 0
    let thr := d.spillThr owner pool
    (l.any fun x => x.seg == 2) || (decide (head + p.len > thr) && thr != 0 && d.canSpill owner)
  | _, _ => false

/-- The buffer request of an injected packet, as its first descriptor has been read. -/
def Dev.dmaRequest (d : Dev) (n : Nat) (p : Pkt) : Dev :=
  match poolOf p.len with
  | none => (d.bump A.bufOversize).onDma n fun c => { c with pkt := some p, code := 4 }
  | some pool =>
    if d.spills p then d.onDma n fun c => { c with pkt := some p }
    else
      match d.sramRequest (6 + n) p pool (d.ownerOf p) with
      | (.granted, d, p) => (d.perf 6 0x051 1 [(5, pool)]).onDma n fun c => { c with pkt := some p }
      | (.held, d, p) =>
        let d := (d.perf 6 0x052 1 [(5, pool)]).onBuf fun b => { b with held := b.held ++ [{ who := 6 + n, pkt := p, pool := pool, at' := d.time.now }] }
        d.onDma n fun c => { c with pkt := some p, state := .hold }
      | (_, d, p) => d.onDma n fun c => { c with pkt := some p, code := 3 }

/-- A held request of a channel has been decided: it has its buffer, or its packet's descriptors take CODE 3. -/
def Dev.dmaDecided (d : Dev) (n : Nat) (p : Pkt) (ok : Bool) : Dev :=
  d.onDma n fun c => { c with pkt := some p, state := .run, code := if ok then 0 else 3 }

/-- Hand a gathered packet to the traffic manager. -/
def Dev.handOver (d : Dev) (p : Pkt) : Dev :=
  let spilled := match queueOf p with
    | some q => (d.getQ q).any fun x => x.seg == 2
    | none => false
  let dead := match p.dest with
    | .flow f => !d.flowQueues f
    | .uplink sp => decide (512 ≤ sp)
    | _ => true
  let pon := match p.dest with
    | .flow _ => true
    | _ => false
  if dead then (d.freePkt p).lost 6 p
  else if p.buf.isNone || spilled then
    let d := d.freePkt p
    if d.spills p then
      if d.shadow && pon then (d.bump A.redDsDiscard).lost 6 p
      else ((d.bufRequest (6 + 32) { p with buf := none }).2.1)
    else (d.bufSettle (6 + 32) { p with buf := none }).2
  else if d.shadow && pon then ((d.bump A.redDsDiscard).freePkt p).lost 6 p
  else d.pushQ p

/-! ## Host writes (R463, R466, R471, R472) -/

/-- A write of EN = 1. -/
def Dev.dmaEnable (d : Dev) (n : Nat) : Dev :=
  if (d.dmaCh n).en then d
  else if 0x14 ≤ d.dmaReq n then d.dmaCauseSet n 8
  else d.onDma n fun c => { c with en := true, state := .run }

/-- A write of EN = 0: DESC and COUNT become undefined (R472). -/
def Dev.dmaDisable (d : Dev) (n : Nat) : Dev :=
  if !(d.dmaCh n).en then d
  else
    let (a, d) := (d.dmaServe n).draw
    let (k, d) := d.draw
    (d.dmaLose n).onDma n fun c => { c with en := false, state := .disabled, desc := a % 2 ^ 64, count := k % 32768 }

/-- A write of RESUME. -/
def Dev.dmaResume (d : Dev) (n : Nat) : Dev :=
  if (d.dmaCh n).en && (d.dmaCh n).state == .halt then d.onDma n fun c => { c with state := .run, cur := none } else d

/-- A write of KICK. -/
def Dev.dmaKick (d : Dev) (n : Nat) : Dev :=
  let c := d.dmaCh n
  if c.en && (c.state == .wait || (c.state == .fin && c.descNew)) then d.onDma n fun c => { c with state := .run } else d

/-! ## Transfers -/

/-- The alignment and length rules of Table 19-2. -/
def descBad (inject : Bool) (addr : Nat) (b : Bytes) : Bool :=
  (ramOffset addr).isNone && addr % 32 != 0 || dLen b == 0 || decide (16384 < dLen b)
    || (!inject && (dAddr b % 64 != 0 || dLen b % 64 != 0))

/-- Discard the unit or packet in transfer (R469). -/
def Dev.dmaUnitDrop (d : Dev) (n : Nat) : Dev :=
  let c := d.dmaCh n
  let d := if c.unit.isSome || c.sopAt.isSome then d.bump (A.dmaUnitDrop n) else d
  d.dmaLose n

/-- R469: the halt of a bus error, its write-back included. -/
def Dev.dmaHalt (d : Dev) (n addr : Nat) (write last : Bool) (code count : Nat) : Dev :=
  let c := d.dmaCh n
  let len := match c.cur with
    | some b => dLen b
    | none => 0
  let inj := d.dmaInjects n
  let sop := if inj then c.sopAt == some c.desc else c.done == 0
  let eop := if inj then (match c.cur with | some b => bit (dCtrl b) 2 | none => false)
    else (match c.unit with | some u => decide (u.length ≤ c.done + len) | none => false)
  let d := d.setCtr (A.dmaErrAddr n) addr
  let d := d.onDma n fun x => { x with state := .halt, haltCause := 1, errDir := nb write, lastBeat := last }
  let d := d.dmaWriteBack n last sop eop code count (len - count)
  let back := if inj then c.sopAt.getD c.desc else c.desc
  let d := (d.dmaUnitDrop n).onDma n fun x => { x with desc := back }
  d.dmaCauseSet n 2

/-- DMA_DESCRIPTOR_FETCH (R464, R466 to R468): the channel has read the descriptor at DMA_CHn_DESC; `desc` is what host memory holds
there, and `more` the bytes that the packet's later descriptors add. -/
def execDmaDescriptorFetch (channel : Nat) (desc : Bytes) (more : Nat) (s : State) : Host.Outcome State Fault Refusal :=
  act (decide (channel < 32)) (fun d =>
    let n := channel
    let d := d.dmaServe n
    let c := d.dmaCh n
    if !d.domOn 21 || !c.en || c.state != .run || c.cur.isSome || !d.mayIssue (d.dmaOwner n) then d
    else
      let b := match ramOffset c.desc with
        | some o => Mem.read d.data.descRam o 32
        | none => slice desc 0 32
      let d := if (ramOffset c.desc).isSome then d else d.emit (.dmaRead (d.dmaOwner n) c.desc 32)
      if !bit (dCtrl b) 0 then (d.onDma n fun x => { x with state := .wait }).dmaCauseSet n 4
      else
        let first := d.dmaInjects n && c.sopAt.isNone
        let d := d.onDma n fun x => { x with cur := some b, count := dLen b % 32768, sopAt := if first then some c.desc else x.sopAt }
        if descBad (d.dmaInjects n) c.desc b then d.dmaHalt n c.desc false false 2 (dLen b % 32768)
        else if first then d.dmaRequest n (injected b (dLen b + (if bit (dCtrl b) 2 then 0 else more)))
        else d.dmaServe n) s

/-- DMA_DESCRIPTOR_COMPLETE (R465 to R468, R475, R81): the transfer of the current descriptor has ended well; `data` is what an
injection channel has read from the host buffer. -/
def execDmaDescriptorComplete (channel : Nat) (data : Bytes) (s : State) : Host.Outcome State Fault Refusal :=
  act (decide (channel < 32)) (fun d =>
    let n := channel
    let d := d.dmaServe n
    let c := d.dmaCh n
    match c.cur with
    | none => d
    | some b =>
      if !d.domOn 21 || !c.en || c.state != .run || !d.mayIssue (d.dmaOwner n) then d
      else if d.dmaInjects n then
        let d := if c.code = 0 then
            ((d.emit (.dmaRead (d.dmaOwner n) (dAddr b) (dLen b))).perf 6 0x080 (dLen b) [(5, n)]).onDma n fun x =>
              { x with part := x.part ++ slice data 0 (dLen b) }
          else d
        let eop := bit (dCtrl b) 2
        let d := d.dmaWriteBack n false (c.sopAt == some c.desc) eop c.code (if c.code = 0 then 0 else dLen b) 0
        let d := d.dmaFollow n b
        if eop then
          let part := (d.dmaCh n).part
          let d := d.onDma n fun x => { x with sopAt := none, part := [], pkt := none, code := 0 }
          match c.pkt with
          | some p => if c.code = 0 then d.handOver { p with data := part } else d
          | none => d
        else d
      else
        match c.unit with
        | none => d
        | some u =>
          let left := u.drop c.done
          let now := left.take (dLen b)
          let eop := decide (left.length ≤ dLen b)
          let d := (d.emit (.dmaWrite (d.dmaOwner n) (dAddr b) now)).perf 6 0x080 now.length [(5, n)]
          let d := d.dmaWriteBack n false (c.done == 0) eop 0 (dLen b - now.length) now.length
          let d := (d.dmaFollow n b).onDma n fun x => { x with done := x.done + now.length }
          if eop then
            let d := match c.pkt with
              | some p => (d.freePkt p).traceEnd p 2
              | none => d
            d.onDma n fun x => { x with unit := none, done := 0, pkt := none }
          else d) s

/-- DMA_BUS_ERROR (R469, R470): `addr` the failing address, `write` its direction, `last` whether it covers the last beat, `count`
the bytes not yet issued. An error in the descriptor's own fetch writes nothing back. -/
def execDmaBusError (channel addr : Nat) (write last ecc : Bool) (count : Nat) (s : State) : Host.Outcome State Fault Refusal :=
  act (decide (channel < 32)) (fun d =>
    let n := channel
    let d := d.dmaServe n
    let c := d.dmaCh n
    if !d.domOn 21 || !c.en then d
    else if c.state == .halt && c.haltCause == 1 then d.bump (A.dmaErrs n)
    else if c.state != .run then d
    else
      let at' := if c.cur.isSome then addr else c.desc
      (d.bump (A.dmaErrs n)).dmaHalt n at' (write && c.cur.isSome) (last && c.cur.isSome) (if ecc then 6 else 1) count) s

/-- DMA_UNIT_WITHDRAWN (R468): the requester has withdrawn the unit in transfer after `written` bytes of the descriptor. -/
def execDmaUnitWithdrawn (channel written : Nat) (s : State) : Host.Outcome State Fault Refusal :=
  act (decide (channel < 32)) (fun d =>
    let n := channel
    let d := d.dmaServe n
    let c := d.dmaCh n
    match c.cur, c.unit with
    | some b, some _ =>
      if !d.domOn 21 || !c.en || c.state != .run || c.pkt.isSome then d
      else
        let d := (d.dmaWriteBack n false (c.done == 0) true 5 (dLen b - written) written).dmaFollow n b
        d.onDma n fun x => { x with unit := none, done := 0 }
    | _, _ => d) s

end Sys2Proof.Machine
end

