-- ==== Sys2Proof/Machine/Sched.lean ====
section
/-! DEFINITION. Held buffer requests, freeing and reclaiming, the Basin's reads and stacks, and the downstream hierarchy with its
commands (15_buffers.md, R390 to R401, R410).
Choices and readings: log entries 32, 47, 48, 59, 60, 61, 120, 121, 142, 158 and 159. -/

namespace Sys2Proof.Machine

/-! ## Held requests (R376, R378) -/

/-- The class of a requester: die links of Dikes, of Sluices, DMA channels. -/
def whoClass (who : Nat) : Nat := if who < 4 then 0 else if who < 6 then 1 else 2

/-- Held requests of a pool in the order in which the allocator tests them. -/
def Dev.heldOrder (d : Dev) (p : Nat) : List HeldBuf :=
  (List.range 3).flatMap fun c =>
    let l := d.data.buf.held.filter fun h => h.pool == p && whoClass h.who == c
    let last := Tbl.look 0 d.data.buf.lastGrant (p * 3 + c)
    let whos := ((l.map (·.who)).eraseDups).mergeSort fun a b => decide (a ≤ b)
    ((whos.filter fun w => decide (last < w)) ++ (whos.filter fun w => decide (w ≤ last))).flatMap fun w => l.filter fun h => h.who == w

/-- Test a held request again from step 3; a request that is decided leaves the list and its requester goes on. -/
def Dev.heldRetest (d : Dev) (h : HeldBuf) : Dev :=
  let rest := d.data.buf.held.filter fun x => x != h
  let gone := match h.pkt.dest with
    | .flow f => (d.flow? f).isNone
    | _ => false
  let out : BufRes × Dev × Pkt :=
    if gone && decide (h.who < 6) then (.dropped, d, h.pkt) else d.sramRequest h.who h.pkt h.pool (d.ownerOf h.pkt)
  match out with
  | (.held, _, _) => d
  | (.granted, d, pkt) =>
    let d := (d.perf 6 0x051 1 [(5, h.pool)]).onBuf fun b => { b with held := rest }
    if h.who < 6 then ((d.pushQ pkt).stamp pkt 5).drainLink h.who
    else if h.who < 38 then d.dmaDecided (h.who - 6) pkt true
    else d.handOver pkt
  | (_, d, pkt) =>
    let d := d.onBuf fun b => { b with held := rest }
    if h.who < 6 then ((d.flowDrop pkt).lost 6 pkt).drainLink h.who
    else if h.who < 38 then d.dmaDecided (h.who - 6) pkt false
    else d.lost 6 pkt

/-- HELD_BUFFER_GRANT (R376, R378): the allocator of a pool tests its held requests again. -/
def execHeldBufferGrant (pool : Nat) (s : State) : Host.Outcome State Fault Refusal :=
  act (decide (pool < 4)) (fun d => (d.heldOrder pool).foldl (fun d h => if d.data.buf.held.contains h then d.heldRetest h else d) d) s

/-- R374: held requests fail when compatibility mode comes into force. -/
def Dev.failHeld (d : Dev) : Dev :=
  let l := d.data.buf.held
  let d := d.onBuf fun b => { b with held := [] }
  let d := l.foldl (fun d h =>
    if h.who < 6 then ((d.bump A.bufEmptyFail).flowDrop h.pkt).lost 6 h.pkt
    else if h.who < 38 then d.dmaDecided (h.who - 6) h.pkt false
    else d.lost 6 h.pkt) d
  d.each (List.range 6) fun n d => d.drainLink n

/-- BUFFER_HOLD_EXPIRY (R376): a die-link request has been held for BUF_CTRL.HOLD × 100 ns. -/
def execBufferHoldExpiry (die : Nat) (s : State) : Host.Outcome State Fault Refusal :=
  act (decide (die < 6)) (fun d =>
    match d.data.buf.held.find? fun h => h.who == die with
    | some h =>
      d.timer (h.at' + 100 * max 1 (fld (d.live' A.bufCtrl) 8 8)) fun d =>
        let d := d.onBuf fun b => { b with held := b.held.filter fun x => x != h }
        (((d.bump A.bufHoldDrop).flowDrop h.pkt).lost 6 h.pkt).drainLink die
    | none => d) s

/-! ## Freeing (R381, R382) -/

/-- BUFFER_FREE (R381): a free request with the buffer's index and the tag the freeing queue holds for it. -/
def execBufferFree (pool index tag : Nat) (s : State) : Host.Outcome State Fault Refusal :=
  act (decide (pool < 4) && decide (index < poolCount pool) && decide (tag < 2 ^ 32)) (fun d =>
    if d.domOn 15 then d.freeBuf pool index tag else d) s

/-- Every queue of packets. -/
def Dev.allQueues (d : Dev) : List QId :=
  (Tbl.keys d.pon.queues).map .flow ++ (Tbl.keys d.data.subs).flatMap (fun s => (List.range 8).map fun c => .up s c)
    ++ (List.range 16).map .exc

/-- Buffers that a descriptor names: queues, standby holds, DMA, started frames and the egress. -/
def Dev.bufRefs (d : Dev) : List (Nat × Nat) :=
  let pk := d.allQueues.flatMap (fun q => d.getQ q) ++ (d.redch.flatMap fun e => e.2.heldF.flatMap (·.2)) ++ d.data.sending.map (·.2)
    ++ d.data.dma.filterMap (fun e => e.2.pkt) ++ (d.pon.chans.filterMap fun e => e.2.part.map fun x => x.2.1)
    ++ d.data.subs.flatMap (fun e => (match e.2.cut with | some x => [x.2.1] | none => []) ++ (match e.2.air with | some x => [x.2.1] | none => []))
  pk.filterMap (·.buf) ++ d.data.buf.egress

/-- BUFFER_RECLAIM_SWEEP (R382). -/
def execBufferReclaimSweep (s : State) : Host.Outcome State Fault Refusal :=
  act true (fun d =>
    if !d.domOn 15 then d
    else
      let refs := d.bufRefs.map fun b => bufKey b.1 b.2
      let lone := (d.data.buf.alloc.filter fun e => !refs.contains e.1).map Prod.fst
      let gone := lone.filter fun k => d.data.buf.orphans.contains k
      let d := d.each gone fun k d =>
        match Tbl.get? d.data.buf.alloc k with
        | some tag =>
          let d := ((d.dropBuf (k / 2 ^ 20) (k % 2 ^ 20) tag).bump A.bufReclaim).bufCauseSet 0x40
          d.log 0x0504 6 []
        | none => d
      d.onBuf fun b => { b with orphans := lone.filter fun k => !gone.contains k }) s

/-! ## The Basin (R384 to R387) -/

/-- Bytes of the staging area. -/
def stagingBytes : Nat := 16777216

/-- A queue by kind: 0 a flow, 1 an uplink class queue, 2 an exception queue. -/
def queueId (kind index cls : Nat) : QId := if kind = 0 then .flow index else if kind = 1 then .up index cls else .exc index

/-- A packet of the Basin overlaps a failing word. -/
def overlaps (p : Pkt) (w : Nat × Nat) : Bool := p.seg == 2 && decide (p.off < w.1 + w.2) && decide (w.1 < p.off + 8 + p.len)

/-- Move packets from the Basin segment to the staged part while 64 KiB and the staging area allow it. -/
def stageRun : List Pkt → Nat → Nat → List Pkt
  | [], _, _ => []
  | p :: l, mine, room =>
    if p.seg != 2 then p :: stageRun l mine room
    else if p.len ≤ mine && p.len ≤ room then { p with seg := 1, pages := [] } :: stageRun l (mine - p.len) (room - p.len)
    else p :: l

/-- BASIN_STAGE_READ (R385, R386): the controller reads on for a spilled queue; `bad` is an uncorrectable word's place in the chain. -/
def execBasinStageRead (kind index cls : Nat) (bad : Option (Nat × Nat)) (s : State) : Host.Outcome State Fault Refusal :=
  act (decide (kind < 3) && decide (cls < 8) && decide (index < (if kind = 0 then flowMax else if kind = 1 then 512 else 16))) (fun d =>
    let q := queueId kind index cls
    let l := d.getQ q
    let head := (l.filter fun p => p.seg == 0).foldl (fun a p => a + p.len) 0
    if !d.domOn 15 || 65536 ≤ head || l.all (fun p => p.seg != 2) then d
    else
      -- an uncorrectable word: its packets go and its page is retired when it is freed
      let d := match bad with
        | some w =>
          let hit := (l.filter fun p => overlaps p w).length
          if hit = 0 then d
          else
            let page := w.1 / 16384
            let markRef := fun (r : PageRef) => if r.idx == page then { r with bad := true } else r
            let mark := fun (p : Pkt) => { p with pages := p.pages.map markRef }
            let d := match q with
              | .flow f => d.setQueue f (l.map mark)
              | .up sp c => d.onSub sp fun x => { x with queues := Tbl.put [] x.queues c (l.map mark) }
              | .exc c => d.onData fun x => { x with excWait := Tbl.put [] x.excWait c (l.map mark) }
            let d := (d.purgeQ q fun p => overlaps p w).2
            (d.bump A.basinEccUncorr hit).bufCauseSet 0x100
        | none => d
      let l := d.getQ q
      let mine := 65536 - stagedBytes l
      let room := stagingBytes - d.data.buf.staged
      let new := stageRun l mine room
      let d := d.onBuf fun b => { b with staged := b.staged + (stagedBytes new - stagedBytes l) }
      d.setQ q new) s

/-- Drop the packets that overlap a page of a stack (R387). -/
def Dev.dropStack (d : Dev) (stack : Nat) : Dev :=
  d.allQueues.foldl (fun d q =>
    let (n, d) := d.purgeQ q fun p => p.pages.any fun r => r.stack == stack
    if n = 0 then d else d.bump A.basinStackDrop n) d

/-- BASIN_STACK_DRAIN_END (R387): the stack holds no page, or 1 s has passed since the order. -/
def execBasinStackDrainEnd (stack : Nat) (s : State) : Host.Outcome State Fault Refusal :=
  act (decide (stack < 4)) (fun d =>
    match Tbl.get? d.data.buf.draining stack with
    | some t =>
      if nth 0 d.data.buf.used stack = 0 || decide (t + 1000000000 ≤ d.time.now) then
        (d.dropStack stack).onBuf fun b => { b with draining := Tbl.erase b.draining stack }
      else d
    | none => d) s

/-- STACK_PLACES_PAGES (R484): 2 ms after the bring-up of the stack's domain. -/
def execStackPlacesPages (stack : Nat) (s : State) : Host.Outcome State Fault Refusal :=
  act (decide (stack < 4)) (fun d =>
    if d.domOn (16 + stack) && (Tbl.get? d.data.buf.draining stack).isNone && !bit d.pav.hbmHot stack then
      d.timer (Tbl.look 0 d.power.upAt (16 + stack) + 2000000) fun d =>
        d.onBuf fun b => { b with placing := setAt b.placing stack true }
    else d) s

/-! ## Buffer quotas (Table 15-5) -/

/-- The owner exists in the encoding of Table 15-2. -/
def ownerBad (tag : Nat) : Bool :=
  let k := tag / 2 ^ 24
  let i := tag % 2 ^ 24
  !((1 ≤ k && k ≤ 2 && decide (i < 65536)) || (k == 3 && decide (i < 512)) || (k == 4 && decide (i < 16)) || (k == 5 && i == 0))

/-- An ONU owner of an ABSENT entry. -/
def ownerAbsent (d : Dev) (x : Call) : Option Nat :=
  if isOnuOwner (x.a 0) && (d.onu (x.a 0 % 2 ^ 24)).state == .absent then some 0 else none

/-- The buffer manager is on, and the owner's channel is up (R133, R487). -/
def ownerDown (d : Dev) (x : Call) : Option Nat :=
  if d.domOn 15 && (!isOnuOwner (x.a 0) || d.chanUp (d.onu (x.a 0 % 2 ^ 24)).channel) then none else some 0

/-- Reserved quarter KiB of a tenant's owners, with one reservation replaced. -/
def Dev.tenantReserved (d : Dev) (t tag pool reserved : Nat) : Nat :=
  let others := d.data.buf.owners.filter fun e => d.ownerTenant e.1 == t
  let sum := others.foldl (fun a e => a + (List.range 4).foldl (fun s p =>
    if e.1 = tag && p = pool then s else s + nth 0 e.2.reserved p * poolQuarters p) 0) 0
  sum + reserved * poolQuarters pool

/-- BUF_QUOTA_SET (R379, R380). -/
def cmdBufQuotaSet : Cmd where
  op := 0x0905
  layout := [fd 4, fd 1, rs 3, fd 4, fd 4]
  mirrored := true
  commit := true
  bad _ x := badIf [(0, ownerBad (x.a 0)), (4, decide (3 < x.a 1)), (8, decide (x.a 3 < x.a 2))]
  absent := ownerAbsent
  unavail := ownerDown
  full d x :=
    let o := d.owner (x.a 0)
    let t := d.ownerTenant (x.a 0)
    if d.poolReserved (x.a 1) - nth 0 o.reserved (x.a 1) + x.a 2 > poolCount (x.a 1) then some 0x0C
    else if isOnuOwner (x.a 0) && t != 0 && decide (d.tenantReserved t (x.a 0) (x.a 1) (x.a 2) > 4 * (d.tenant t).bufKib) then some 0x0D
    else none
  run d x :=
    ((d.onOwner (x.a 0) fun o => { o with reserved := setAt o.reserved (x.a 1) (x.a 2), quota := setAt o.quota (x.a 1) (x.a 3) }).poolWatch
      (x.a 1), .ok [])

/-- BUF_QUOTA_GET (R370): the peak starts again. -/
def cmdBufQuotaGet : Cmd where
  op := 0x0906
  layout := [fd 4, fd 1, rs 3]
  bad _ x := badIf [(0, ownerBad (x.a 0)), (4, decide (3 < x.a 1))]
  absent := ownerAbsent
  unavail := ownerDown
  run d x :=
    let o := d.owner (x.a 0)
    let p := x.a 1
    (d.onOwner (x.a 0) fun o => { o with peak := setAt o.peak p (nth 0 o.inUse p) },
      .ok (le 4 (nth 0 o.reserved p) ++ le 4 (nth 0 o.quota p) ++ le 4 (nth 0 o.inUse p) ++ le 4 (nth 0 o.peak p)))

/-- BUF_QUOTA_SET. -/
def execBufQuotaSet (m : Msg) (s : State) : Host.Outcome State Fault Refusal := request cmdBufQuotaSet m s
/-- BUF_QUOTA_GET. -/
def execBufQuotaGet (m : Msg) (s : State) : Host.Outcome State Fault Refusal := request cmdBufQuotaGet m s

/-! ## Nodes (R390 to R399) -/

/-- A node with its refills applied (R396). -/
def Node.filled (n : Node) (edges : Nat) : Node := { n with tokens := refill n.tokens n.rate n.burst (edges - n.edge), edge := edges }

/-- R391: TOKENS permit selection. -/
def Node.ready (n : Node) : Bool := n.rate == 0xFFFFFFFF || decide (0 ≤ n.tokens)

/-- A node with its refills applied. -/
def Dev.nodeNow (d : Dev) (k : Nat) : Node := Node.filled (d.node k) d.time.edges

/-- Kind and index of a NODE (Table 6-2). -/
def nodeKind (n : Nat) : Nat := n / 2 ^ 30
def nodeIdx (n : Nat) : Nat := n % 2 ^ 30

/-- Key of a NODE. -/
def nodeOf (n : Nat) : Nat := nodeKey (2 - nodeKind n) (nodeIdx n)

/-- The node exists. -/
def Dev.nodeExists (d : Dev) (n : Nat) : Bool :=
  if nodeKind n = 0 then d.flowQueues (nodeIdx n) else if nodeKind n = 1 then (d.onu (nodeIdx n)).state != .absent else decide (nodeIdx n < 512)

/-- NODE is out of range (Table 16-2). -/
def nodeBad (n : Nat) : Bool :=
  nodeKind n == 3 || decide ((if nodeKind n = 0 then flowMax else if nodeKind n = 1 then 65536 else 512) ≤ nodeIdx n)

/-- Channel under which a node stands. -/
def Dev.nodeChan (d : Dev) (n : Nat) : Nat :=
  if nodeKind n = 2 then nodeIdx n
  else if nodeKind n = 1 then (d.onu (nodeIdx n)).channel
  else match d.flow? (nodeIdx n) with
    | some fl => (d.onu fl.onu).channel
    | none => 0

/-- Tenant of a node, 0 for a channel's. -/
def Dev.nodeTenant (d : Dev) (n : Nat) : Nat :=
  if nodeKind n = 1 then (d.onu (nodeIdx n)).tenant else if nodeKind n = 0 then d.tenantOfFlow (nodeIdx n) else 0

/-- The node exists and the caller sees it (R397). -/
def nodeAbsent (d : Dev) (x : Call) : Option Nat :=
  if d.nodeExists (x.a 0) && d.sees x.func (d.nodeTenant (x.a 0)) then none else some 0

/-- The node's channel is up, and the traffic manager is on. -/
def nodeDown (d : Dev) (x : Call) : Option Nat :=
  if d.domOn 15 && d.chanUp (d.nodeChan (x.a 0)) then none else some 0

/-- R398: a later command for the same object reaches the same T0. -/
def Dev.superseded (d : Dev) (op obj : Nat) : Bool :=
  d.pon.commits.any fun r => r.op == op && nth 0 r.args 0 == obj && decide (r.from' ≤ d.time.edges)

/-- TOKENS at a commit: clamped to the new BURST, or 0 under CLEAR_DEBT (R398). -/
def clampTokens (t : Int) (burst : Nat) (clear : Bool) : Int := if clear then 0 else min t ((burst * 1024 : Nat) : Int)

/-- SHAPER_SET: the old rate refills up to the edge before, the new one from this edge on. -/
def cmdShaperSet : Cmd where
  op := 0x0901
  layout := [fd 4, fd 4, fd 4, fd 1, rs 3]
  mirrored := true
  commit := true
  bad _ x := badIf [(0, nodeBad (x.a 0)), (8, decide (x.a 2 < 16384)), (12, decide (1 < x.a 3))]
  absent := nodeAbsent
  unavail := nodeDown
  run d x :=
    if d.superseded 0x0901 (x.a 0) then (d, .ok [])
    else
      (d.onNode (nodeOf (x.a 0)) fun n =>
        let n := Node.filled n (d.time.edges - 1)
        { n with rate := x.a 1, burst := x.a 2, tokens := clampTokens n.tokens (x.a 2) (x.a 3 == 1) }, .ok [])

/-- SHAPER_GET (R396: TOKENS in whole bytes, rounded towards minus infinity). -/
def cmdShaperGet : Cmd where
  op := 0x0902
  caller := .r
  layout := [fd 4]
  bad _ x := badIf [(0, nodeBad (x.a 0))]
  absent := nodeAbsent
  unavail := nodeDown
  run d x :=
    let n := d.nodeNow (nodeOf (x.a 0))
    (d.onNode (nodeOf (x.a 0)) fun _ => n, .ok (le 4 n.rate ++ le 4 n.burst ++ le 8 (field 64 (n.tokens / 1024))))

/-- The flow exists with an upstream bit. -/
def policerAbsent (d : Dev) (x : Call) : Option Nat :=
  match d.flow? (x.a 0) with
  | some fl => if bit fl.dir 1 && d.sees x.func (d.flowTenant fl) then none else some 0
  | none => some 0

/-- POLICER_SET (R398, R401). -/
def cmdPolicerSet : Cmd where
  op := 0x0903
  layout := [fd 4, fd 4, fd 4]
  mirrored := true
  commit := true
  bad _ x := badIf [(0, decide (flowMax ≤ x.a 0)), (8, x.a 2 == 0)]
  absent := policerAbsent
  unavail := flowDown
  run d x :=
    if d.superseded 0x0903 (x.a 0) then (d, .ok [])
    else
      (d.onPol (x.a 0) fun p =>
        let p := Policer.filled p (d.time.edges - 1)
        { p with rate := x.a 1, burst := x.a 2, tokens := min p.tokens (1024 * x.a 2) }, .ok [])

/-- SCHED_SET. -/
def cmdSchedSet : Cmd where
  op := 0x0904
  layout := [fd 4, fd 1, rs 1, fd 2]
  mirrored := true
  commit := true
  bad _ x := badIf [(0, nodeBad (x.a 0) || nodeKind (x.a 0) == 2), (4, decide (7 < x.a 1)), (6, x.a 2 == 0)]
  absent := nodeAbsent
  unavail := nodeDown
  run d x := (d.onNode (nodeOf (x.a 0)) fun n => { n with prio := x.a 1, weight := x.a 2 }, .ok [])

/-- SHAPER_SET. -/
def execShaperSet (m : Msg) (s : State) : Host.Outcome State Fault Refusal := request cmdShaperSet m s
/-- SHAPER_GET. -/
def execShaperGet (m : Msg) (s : State) : Host.Outcome State Fault Refusal := request cmdShaperGet m s
/-- POLICER_SET. -/
def execPolicerSet (m : Msg) (s : State) : Host.Outcome State Fault Refusal := request cmdPolicerSet m s
/-- SCHED_SET. -/
def execSchedSet (m : Msg) (s : State) : Host.Outcome State Fault Refusal := request cmdSchedSet m s

/-! ## Selection (R391 to R394) -/

/-- A child as its parent sees it: index, key, charged length of its head frame, eligible. -/
structure Child where
  idx : Nat
  key : Nat
  len : Nat
  elig : Bool

/-- Charged length (R394). -/
def charged (p : Pkt) : Nat := p.len + 8

/-- The head frame of a flow's queue, if the egress can take it. -/
def Dev.headOf (d : Dev) (f : Nat) : Option Pkt :=
  match d.queue f with
  | p :: _ => if p.seg != 2 && p.whole && !p.poisoned then some p else none
  | [] => none

/-- Bytes that a turn adds to a child's deficit. -/
def Dev.quantum (d : Dev) (key : Nat) : Nat := (d.node key).weight * max 1 (d.liveFld A.tmCfg 0 6) * 64

/-- Turns in order until a child's deficit covers its head frame (R393). -/
def Dev.turnOn (d : Dev) (parent prio : Nat) : Nat → List Child → List Child → Option Child × Dev
  | 0, _, _ => (none, d)
  | k + 1, all, [] => Dev.turnOn d parent prio k all all
  | k + 1, all, c :: rest =>
    let q := d.quantum c.key
    if !c.elig then Dev.turnOn (d.onNode c.key fun n => { n with deficit := min n.deficit q }) parent prio k all rest
    else
      let d := d.onNode c.key fun n => { n with deficit := n.deficit + q }
      if c.len ≤ (d.node c.key).deficit then (some c, d.onNode parent fun n => { n with turns := Tbl.set n.turns prio (c.idx + 1) })
      else Dev.turnOn d parent prio k all rest

/-- Select among children of equal PRIO, of which one at least is eligible. -/
def Dev.drr (d : Dev) (parent prio : Nat) (l : List Child) : Option Child × Dev :=
  let last := Tbl.look 0 (d.node parent).turns prio
  match l.find? fun c => c.idx + 1 == last && c.elig && decide (c.len ≤ (d.node c.key).deficit) with
  | some c => (some c, d)
  | none =>
    let order := (l.filter fun c => decide (last ≤ c.idx)) ++ l.filter fun c => decide (c.idx < last)
    d.turnOn parent prio (300 * (l.length + 1)) order order

/-- The highest PRIO among eligible children. -/
def Dev.topPrio (d : Dev) (l : List Child) : Option Nat :=
  match (l.filter (·.elig)).map fun c => (d.node c.key).prio with
  | [] => none
  | p :: ps => some (ps.foldl max p)

/-- A parent's choice: strict PRIO, then deficit round robin. -/
def Dev.choose (d : Dev) (parent : Nat) (l : List Child) : Option Child × Dev :=
  match d.topPrio l with
  | some p => d.drr parent p (l.filter fun c => (d.node c.key).prio == p)
  | none => (none, d)

/-- The flow children of an ONU node, ascending. -/
def Dev.flowChildren (d : Dev) (o : Nat) : List Child :=
  d.pon.queues.filterMap fun e =>
    match d.flow? e.1, d.headOf e.1 with
    | some fl, some p =>
      if fl.onu = o && bit fl.dir 0 then
        some { idx := e.1, key := nodeKey 2 e.1, len := charged p, elig := Node.ready (d.nodeNow (nodeKey 2 e.1)) && d.served o }
      else none
    | _, _ => none

/-- The ONU children of a channel node that hold a frame, ascending, with the frame each would send. -/
def Dev.onuChildren (d : Dev) (c : Nat) : List Child :=
  let onus := ((d.pon.queues.filterMap fun e => (d.flow? e.1).map (·.onu)).eraseDups.filter fun o => d.servChan o == c).mergeSort
    fun a b => decide (a ≤ b)
  onus.filterMap fun o =>
    match (d.choose (nodeKey 1 o) (d.flowChildren o)).1 with
    | some f => some { idx := o, key := nodeKey 1 o, len := f.len, elig := Node.ready (d.nodeNow (nodeKey 1 o)) }
    | none => none

/-- Charge a selection to a node (R394). -/
def Dev.chargeNode (d : Dev) (key len : Nat) : Dev :=
  let n := d.nodeNow key
  d.onNode key fun _ => { n with tokens := n.tokens - (1024 * len : Nat), sent := (n.sent + len) % 2 ^ 64 }

/-- Subtract a selection from a child's deficit; a child left ineligible keeps at most one quantum, one left empty none. -/
def Dev.spend (d : Dev) (key len : Nat) (empty : Bool) : Dev :=
  let q := d.quantum key
  d.onNode key fun n =>
    let left := n.deficit - len
    { n with deficit := if empty then 0 else if Node.ready n then left else min left q }

/-- R392: select a frame for a channel; it leaves its queue and is charged. -/
def Dev.selectFrame (d : Dev) (c : Nat) : Option (Nat × Pkt) × Dev :=
  if !d.serves c || !Node.ready (d.nodeNow (nodeKey 0 c)) || !d.domOn 15 || !d.linkCarries (c / 128) then (none, d)
  else
    match d.choose (nodeKey 0 c) (d.onuChildren c) with
    | (some o, d) =>
      match d.choose o.key (d.flowChildren o.idx) with
      | (some f, d) =>
        match d.queue f.idx with
        | p :: _ =>
          let d := d.setQ (.flow f.idx) ((d.queue f.idx).drop 1)
          let d := ((d.chargeNode f.key f.len).chargeNode o.key f.len).chargeNode (nodeKey 0 c) f.len
          let d := d.spend f.key f.len (d.headOf f.idx).isNone
          let d := d.spend o.key f.len (d.flowChildren o.idx).isEmpty
          (some (f.idx, p), (d.perf 6 0x050 1 [(3, c), (4, f.idx)]).toEgress p)
        | [] => (none, d)
      | (none, d) => (none, d)
    | (none, d) => (none, d)

/-! ## The framer (R193, R194, R197, R198, R306) -/

/-- The key of a flow's downstream frames, with its index. -/
def Dev.dsKey (d : Dev) (f : Nat) : Option (Nat × LineKey) :=
  match d.flow? f with
  | some fl =>
    let k := (d.onu fl.onu).keys
    if fl.encrypt = 1 then (Keys.key k k.active).map fun v => (k.active, v) else none
  | none => none

/-- Bytes that a frame of the flow costs on the line beside its payload. -/
def tagBytes (k : Option (Nat × LineKey)) : Nat :=
  match k with
  | some (_, v) => if v.alg = 1 then 16 else 0
  | none => 0

/-- Send payload bytes of flow `f` as one XGEM frame at POSITION `pos`. -/
def Dev.xgemSend (d : Dev) (c f pos : Nat) (data : Bytes) (last : Bool) : Dev :=
  let k := d.dsKey f
  let ch := d.chan c
  let idx := match k with | some (i, _) => i | none => 0
  let port := match d.flow? f with | some fl => fl.xgem | none => 0
  let hdr := data.length * 2 ^ 37 + idx * 2 ^ 35 + port * 2 ^ 19 + nb last
  let word := hdr * 2 ^ 13 + (Config.hec hdr).toNat
  let nonce := lineNonce d.time.tick 0 ch.dsWl pos
  let pad := List.replicate (padded ch.mode data.length - data.length) (0 : Byte)
  let body := match k with
    | some (_, v) =>
      let ct := lineCrypt v nonce 0 d.time.tick pos (data ++ pad)
      ct ++ (if v.alg = 1 then lineTag v.key nonce hdr ct else [])
    | none => data ++ pad
  d.emit (.dsFrame c f idx (be 8 word ++ body))

/-- R194: fill the rest of the microframe with one idle frame. -/
def Dev.idleFrame (d : Dev) (c space : Nat) : Dev :=
  let hdr := (space - 8) * 2 ^ 37 + 0xFFFF * 2 ^ 19 + 1
  d.emit (.dsFrame c flowMax 0 (be 8 (hdr * 2 ^ 13 + (Config.hec hdr).toNat) ++ List.replicate (space - 8) 0))

/-- The rest of a frame goes at `pos` with `space` bytes left: whole, a first part of it, or not at all. -/
def Dev.framePart (d : Dev) (c f pos space : Nat) (p : Pkt) (sent : Nat) : Dev :=
  let body := p.data.drop sent
  let mode := (d.chan c).mode
  let cost := 8 + tagBytes (d.dsKey f)
  let die := c / 128
  if cost + padded mode body.length ≤ space && body.length < 16384 then
    let d := (d.xgemSend c f pos body true).onChan c fun x => { x with part := none }
    let d := (d.perf die 0x012 1 [(3, c)]).perf die 0x013 p.data.length [(3, c)]
    let d := match d.flow? f with
      | some fl => (d.perf die 0x012 1 [(1, fl.onu)]).perf die 0x013 p.data.length [(1, fl.onu)]
      | none => d
    ((d.bwCount 1 c 1 p.data.length).traceEnd p 0).learnFrom die p
  else if cost + 8 ≤ space then
    let n := min (min ((space - cost) / 8 * 8) 16376) (body.length - 1)
    (d.xgemSend c f pos (body.take n) false).onChan c fun x => { x with part := some (f, p, sent + n) }
  else d.idleFrame c space

/-- The frame as the egress pipeline of a Dike passes it on (R327). -/
def dsBytes (p : Pkt) : Bytes :=
  let body := bodyOf p.data
  let out := trimmed (parse p.data p.len) body
  if out = body then p.data else withFcs out

/-- DOWNSTREAM_SELECT (R392, R194): the framer of a channel has `space` bytes left at POSITION `pos` of its payload region. -/
def execDownstreamSelect (channel pos space : Nat) (s : State) : Host.Outcome State Fault Refusal :=
  act (decide (channel < 512) && decide (pos < 16384) && decide (8 ≤ space) && decide (space % 8 = 0)) (fun d =>
    let c := channel
    if !d.chanUp c || (d.chan c).state == .off || d.shadow || !d.ponRuns (c / 128) then d
    else
      match (d.chan c).part with
      | some (f, p, n) => if d.serves c then d.framePart c f pos space p n else d.idleFrame c space
      | none =>
        match d.selectFrame c with
        | (some (f, p), d') =>
          if 8 + tagBytes (d.dsKey f) + 8 ≤ space || 8 + tagBytes (d.dsKey f) + padded (d.chan c).mode (dsBytes p).length ≤ space then
            let d := ((((d'.stamp p 6).stamp p 7).stamp p 8).stamp p 9)
            d.framePart c f pos space { p with data := dsBytes p } 0
          else d.idleFrame c space
        | (none, _) => d.idleFrame c space) s

end Sys2Proof.Machine
end

