-- ==== Sys2Proof/Machine/Startup.lean ====
section
/-! DEFINITION. From power to service (02_package_pins_supplies.md, 03_startup.md): reset, rail checks, the three stages and their failures.
Choices and readings: log entries 24, 25, 78, 81 and 97. -/

namespace Sys2Proof.Machine

/-! ## Rails -/

/-- Nominal mV and tolerance in percent of rail `i` in the numbering of R37 (Table 22-2); `set` gives an adaptive rail's setpoint. -/
def railSpec (set : List Nat) (i : Nat) : Nat × Nat :=
  if i = 0 then (800, 5)
  else if i = 1 then (nth 750 set 0, 3)
  else if i ≤ 5 then (nth 750 set (i + 1), 3)
  else if i ≤ 7 then (nth 750 set (i - 5), 3)
  else if i = 9 || i = 11 then (1200, 3)
  else if i = 12 then (1100, 3)
  else if i = 13 then (400, 3)
  else if i = 14 || i = 16 then (1800, 5)
  else (900, 3)

/-- R528: a rail of `mv` lies inside its operating range. -/
def railInRange (set : List Nat) (i mv : Nat) : Bool :=
  let (nom, pct) := railSpec set i
  decide (100 * mv ≤ (100 + pct) * nom) && decide ((100 - pct) * nom ≤ 100 * mv)

/-- R43: every rail in range, adaptive rails against 0.75 V. -/
def railsGood (rails : List Nat) : Bool :=
  (List.range 18).all fun i => railInRange (List.replicate 7 750) i (nth 0 rails i)

/-- Voltages of a move from `a` to `b` in steps of at most 25 mV (R497). -/
def avsSteps : Nat → Nat → Nat → List Nat
  | 0, _, _ => []
  | k + 1, a, b =>
    if a = b then []
    else
      let x := if a < b then min (a + 25) b else max (a - 25) b
      x :: avsSteps k x b

/-- AVSBus of adaptive rail `r` (Table 20-6). -/
def avsBus (r : Nat) : Nat := if r < 3 then 0 else 1

/-- R43: begin start-up when every rail is in range, else wait for the next check. -/
def Dev.railCheck (d : Dev) (rails : List Nat) : Dev :=
  if railsGood rails then d.onBoot fun b => { b with waitRails := false, started := true }
  else d.onBoot fun b => { b with waitRails := true }

/-- R32, R31, R38, R43. -/
def Dev.resetRise (d : Dev) (straps : Nat) (testEn avs0 avs1 : Bool) (rails : List Nat) : Dev :=
  if d.boot.resetHigh then d
  else
    let d := d.onBoot fun b => { b with
      railsUp := true, resetHigh := true
      strapFlash := fld straps 0 2, strapSlot := fld straps 2 2, strapRole := fld straps 4 2 }
    let d := d.each (List.range 7) fun r d =>
      if (if avsBus r = 0 then avs0 else avs1) then
        let d := d.each (avsSteps 16 (nth 750 d.power.set r) 750) fun mv d => d.emit (.avs r mv)
        d.onPower fun p => { p with set := setAt p.set r 750 }
      else d
    if testEn then d else d.railCheck rails

/-- SYS_RESET_N_RISE. -/
def execSysResetNRise (straps : Nat) (testEn avs0 avs1 : Bool) (rails : List Nat) (s : State) : Host.Outcome State Fault Refusal :=
  act true (fun d => d.resetRise straps testEn avs0 avs1 rails) s

/-- What stands after SYS_RESET_N falls: everything at its reset value but the board's pins and setpoints and the flash log (R64). -/
def Dev.resetAll (d : Dev) : Dev :=
  { draws := d.draws, out := d.out,
    boot := { railsUp := d.boot.railsUp }
    pins := d.pins
    power := { set := d.power.set }
    pav := { flash := d.pav.flash } }

/-- SYS_RESET_N_ASSERT (R64). -/
def execSysResetNAssert (s : State) : Host.Outcome State Fault Refusal := act true Dev.resetAll s

/-- RAIL_CHECK (R43). -/
def execRailCheck (rails : List Nat) (s : State) : Host.Outcome State Fault Refusal :=
  act true (fun d => if d.boot.resetHigh && d.boot.waitRails then d.railCheck rails else d) s

/-- INPUT_POWER_FAIL (R42): Off; log entries not yet in flash are lost. -/
def execInputPowerFail (s : State) : Host.Outcome State Fault Refusal :=
  act true (fun d => { Dev.resetAll d with boot := { railsUp := false }, power := {}, pins := {} }) s

/-! ## Stages -/

/-- R65: start-up stops with a fail code. -/
def Dev.stopStartup (d : Dev) (code : Nat) : Dev :=
  let d := d.allOff
  let d := d.onBoot fun b => { b with stage := 7, failCode := code, devReady := false }
  d.onPcie fun p => { p with cfgOk := true }

/-- PD00_LEAVES_RESET (R159, R175): stage 1 begins; the operand holds the reference clocks that are good (Table 2-6, bits 9:0). -/
def execPd00LeavesReset (clocks : Nat) (s : State) : Host.Outcome State Fault Refusal :=
  act true (fun d =>
    if d.boot.started && !d.boot.pd00 then
      let d := d.onTime fun _ => {}
      let d := d.setReg A.refclk (clocks % 1024)
      let (_, d) := d.draw
      d.onBoot fun b => { b with pd00 := true, stage := 1, seed := d.draws }
    else d) s

/-- FUSE_READ_DONE (R49): stage 1 ends, or start-up stops with code 0x01. -/
def execFuseReadDone (chanEn : Nat) (extEn : Bool) (corrected : Nat) (keyHashOk uncorrectable : Bool) (fused : List Nat)
    (s : State) : Host.Outcome State Fault Refusal :=
  act true (fun d =>
    if d.boot.pd00 && d.boot.stage == 1 && !d.boot.halted then
      let d := { d with fuses := { chanEn := chanEn % 1024, extEn := extEn, corrected := sat 255 corrected, keyHashOk := keyHashOk } }
      if uncorrectable then d.stopStartup 1
      else
        let d := d.onPower fun p => { p with fused := (List.range 7).map fun r => nth 750 fused r }
        (d.emit .xspiReset).onBoot fun b => { b with stage := 2 }
    else d) s

/-- MEMORY_INIT_DONE (R50): failed dies are marked; a Polder memory failure stops start-up with code 0x06, six failed datapath dies with
0x05 (Table 3-8). -/
def execMemoryInitDone (failed : Nat) (s : State) : Host.Outcome State Fault Refusal :=
  act true (fun d =>
    if d.boot.stage == 2 && !d.boot.memDone && !d.boot.halted then
      let d := d.onBoot fun b => { b with memDone := true, dieFail := Nat.lor b.dieFail (failed % 128) }
      if bit failed 6 then d.stopStartup 6 else if Nat.land d.boot.dieFail 0x3F = 0x3F then d.stopStartup 5 else d
    else d) s

/-! ### Stage 2 -/

/-- R54: a directory copy is valid: magic, CRC-32 over its first 12 bytes, active slot 0 or 1. -/
def dirValid (b : Bytes) : Bool :=
  leAt b 0 4 == 0x52494444 && leAt b 12 4 == crc32 (slice b 0 12) && decide (leAt b 8 4 < 2)

/-- R54: the slot that the directory names. -/
def activeSlot (c0 c1 : Bytes) : Nat :=
  match dirValid c0, dirValid c1 with
  | true, true => if leAt c1 4 4 > leAt c0 4 4 then leAt c1 8 4 else leAt c0 8 4
  | true, false => leAt c0 8 4
  | false, true => leAt c1 8 4
  | false, false => 0

/-- Table 3-3: slots in order. -/
def slotOrder (strap active : Nat) : List Nat :=
  if strap = 0 then [active, 1 - active] else if strap = 1 then [0, 1] else if strap = 2 then [1, 0] else [active]

/-- Table 3-5 section table: (body offset, length). -/
def sections (h : Bytes) : List (Nat × Nat) :=
  (List.range (leAt h 0x18 4)).map fun i => (leAt h (0x160 + 16 * i + 4) 4, leAt h (0x160 + 16 * i + 8) 4)

/-- Two sections do not overlap. -/
def apart (a b : Nat × Nat) : Bool := a.2 == 0 || b.2 == 0 || decide (a.1 + a.2 ≤ b.1) || decide (b.1 + b.2 ≤ a.1)

/-- Every two of a list of sections are apart. -/
def allApart : List (Nat × Nat) → Bool
  | [] => true
  | x :: xs => xs.all (apart x) && allApart xs

/-- Table 3-6: result code of a slot. -/
def slotResult (x : SlotFacts) : Nat :=
  let h := x.header
  let len := leAt h 8 4
  let n := leAt h 0x18 4
  if !x.answers then 6
  else if !(leAt h 0 4 == 0x4E445345 && leAt h 4 2 == 1 && len % 4096 == 0 && decide (len ≤ 0x07800000)
            && decide (1 ≤ n) && decide (n ≤ 224)) then 2
  else if !((sections h).all (fun e => decide (e.1 + e.2 ≤ len)) && allApart (sections h)) then 2
  else if !bit (leAt h 0xC 4) 4 then 5
  else if !x.keyOk then 3
  else if !x.sigOk then 4
  else 1

/-- Record a slot's result code. -/
def Boot.setResult (b : Boot) (slot r : Nat) : Boot := if slot = 0 then { b with slotA := r } else { b with slotB := r }

/-- Table 17-4: the timestamp corrections of a MODE, in 0.125 ns. -/
def Dev.loadCorr (d : Dev) (p : Nat) : Dev :=
  let m := d.regFld (A.uplCfg p) 1 2
  (d.setReg (A.uplRxCorr p) (nth 2413 [1907, 2097] m)).setReg (A.uplTxCorr p) (nth 972 [774, 834] m)

/-- R415: the ports and lanes of Sluice `n` take what the booted image gives them; MODE 3 stands for 0. -/
def Dev.loadPorts (d : Dev) (n : Nat) : Dev :=
  let d := d.each (List.range 32) fun q d =>
    let p := 32 * n + q
    let w := Nat.land (nth 0 d.image.uplCfg p).toNat 0xFFFF0007
    (d.setReg (A.uplCfg p) (if fld w 1 2 = 3 then w - 6 else w)).loadCorr p
  d.each (List.range 128) fun k d => d.setReg (A.laneCfg (128 * n + k)) ((nth 0 d.image.laneCfg (128 * n + k)).toNat % 2)

/-- The die links train; how many spare lanes a link keeps free is a free value of 0 to 8 (Table 1-6). -/
def Dev.linksTrain (d : Dev) : Dev :=
  d.each (List.range 6) fun n d =>
    if d.dieFailed n || (d.dlink n).fatal then d
    else
      let (r, d) := d.draw
      d.onDlink n fun x => { x with up := true, retraining := false, spareUsed := 0, spareLeft := r % 9 }

/-- Apply the configuration of a passing slot and start its firmware (R56, R59, stage 3). -/
def Dev.applyImage (d : Dev) (slot : Nat) (h : Bytes) (config : ImageConfig) : Dev :=
  let untrained := (List.range 6).foldl (fun m i => withBit m i (!bit config.linksUp i && !bit d.boot.dieFail i)) 0
  let d := d.onBoot fun b => { b with dieFail := Nat.lor b.dieFail untrained, slot := slot }
  let image : Image :=
    { fwIfVer := leAt h 0x10 4, imageVer := leAt h 0x14 4, offMask := config.offMask % 2 ^ 24, uplCfg := config.uplCfg
      laneCfg := config.laneCfg }
  let d := { d with image := image }
  let d := (d.loadPorts 0).loadPorts 1
  let d := d.linksTrain
  if Nat.land d.boot.dieFail 0x3F = 0x3F then d.stopStartup 5
  else d.onBoot fun b => { b with stage := 3, stage3At := d.time.now }

/-- R58: try the slots that start-up has not tried yet, in order. -/
def Dev.trySlots (d : Dev) (slotA slotB : SlotFacts) (config : ImageConfig) : List Nat → Dev
  | [] => d.stopStartup 4
  | x :: xs =>
    if d.boot.tried.contains x then Dev.trySlots d slotA slotB config xs
    else
      let facts := if x = 0 then slotA else slotB
      let r := slotResult facts
      let d := d.onBoot fun b => { Boot.setResult b x r with tried := x :: b.tried, firstSlot := some (b.firstSlot.getD x) }
      if r = 1 then d.applyImage x facts.header config else Dev.trySlots d slotA slotB config xs

/-- IMAGE_LOAD_DONE (R51 to R59); stage 2 waits for the memory initialisation. -/
def execImageLoadDone (flashOk : Bool) (dir0 dir1 : Bytes) (slotA slotB : SlotFacts) (config : ImageConfig)
    (s : State) : Host.Outcome State Fault Refusal :=
  act true (fun d =>
    if d.boot.stage == 2 && d.boot.memDone && !d.boot.halted then
      if d.boot.strapFlash = 3 then d.stopStartup 3
      else if !flashOk then d.stopStartup 2
      else
        let d := d.onBoot fun b => { b with dir0 := slice dir0 0 16, dir1 := slice dir1 0 16 }
        d.trySlots slotA slotB config (slotOrder d.boot.strapSlot (activeSlot dir0 dir1))
    else d) s

/-! ### Stage 3 -/

/-- The rail that feeds domain `p`, r in the order of Table 20-6 (Table 2-10); none for PD00, which the fixed rails feed. -/
def railOf (p : Nat) : Option Nat :=
  if p = 0 then none else if p ≤ 12 then some (3 + (p - 1) % 4) else if p ≤ 14 then some (p - 12) else some 0

/-- Domains that rail `r` feeds. -/
def fedBy (r : Nat) : List Nat := (List.range 24).filter fun p => railOf p == some r

/-- Send the next AVSBus step of every bus that has none under way (R495, R496). -/
def Dev.avsIssue (d : Dev) : Dev :=
  d.each [0, 1] fun b d =>
    match d.power.avs.find? (fun a => avsBus a.rail == b) with
    | some a =>
      if a.step = 0 then
        let cur := nth 750 d.power.set a.rail
        let mv := (avsSteps 1 cur a.target).headD a.target
        let d := d.emit (.avs a.rail mv)
        d.onPower fun p => { p with avs := p.avs.map fun x => if x.rail == a.rail && x.step == 0 then { x with step := mv, at' := d.time.now } else x }
      else d
    | none => d

/-- The setpoint that a rail will have after the moves it has under way. -/
def Dev.railGoal (d : Dev) (r : Nat) : Nat :=
  match d.power.avs.reverse.find? fun a => a.rail == r with
  | some a => a.target
  | none => nth 750 d.power.set r

/-- Move a rail to a setpoint, in its turn on its bus; a later target of the same rail replaces one that has not begun. -/
def Dev.avsMove (d : Dev) (r target : Nat) : Dev :=
  if d.railGoal r = target then d
  else
    let d := d.onPower fun p => { p with avs := p.avs.filter (fun a => a.rail != r || a.step != 0) ++ [{ rail := r, target := target, step := 0 }] }
    d.avsIssue

/-- R497: each rail whose domains are all off is held at 0.65 V, every other at its fused value. -/
def Dev.avsSettle (d : Dev) : Dev :=
  d.each (List.range 7) fun r d =>
    let live := (fedBy r).any fun p => d.domOn p
    d.avsMove r (if live then nth 750 d.power.fused r else 650)

/-- R510: BOOT_SEQ of this start-up and the stamps of the entries made earlier in it. -/
def Dev.takeBootSeq (d : Dev) (recA recB : Option Nat) (recOk : Bool) (lastLog : Option Nat) : Dev :=
  if d.pav.bootKept then d
  else
    let v := match recA, recB with
      | some a, some b => (max a b + 1) % 2 ^ 32
      | some a, none => (a + 1) % 2 ^ 32
      | none, some b => (b + 1) % 2 ^ 32
      | none, none => 1
    let last := match d.pav.flash with
      | e :: _ => some e.index
      | [] => lastLog
    let base := match last with
      | some i => (i + 1) % 2 ^ 32
      | none => 0
    let d := d.onPav fun p => { p with
      bootSeq := v, bootKept := true, stale := !recOk
      logNext := (p.logNext + base) % 2 ^ 32
      log := p.log.map fun e => { e with boot := v, index := (e.index + base) % 2 ^ 32 }
      toFlash := p.toFlash.map fun e => ((e.1 + base) % 2 ^ 32, e.2) }
    if recOk then d.emit (.flashWrite "BOOT_SEQ" (le 4 v)) else d.log 0x0805 6 []

/-- R60, R61: stage 3 and the rise of DEV_READY. -/
def Dev.firmwareReady (d : Dev) (recA recB : Option Nat) (recOk : Bool) (lastLog : Option Nat) : Dev :=
  let d := d.each (List.range 64) fun f d => d.onFn f fun x => { x with kiosk := { x.kiosk with ready := true, restarting := false, cause := Nat.lor x.kiosk.cause.toNat 4 |> w32 } }
  let d := d.takeBootSeq recA recB recOk lastLog
  let off := resolveOff (Nat.lor (Nat.land d.image.offMask 0xFFFFFE) d.failedDomains)
  let on := 0xFFFFFF - off
  let cur := if off = d.failedDomains then PState.running else PState.trimmed
  let d := d.onPower fun p => { p with
    on := on, cur := cur, offMask := if off = d.failedDomains then 0 else off,
    resume := (cur, if off = d.failedDomains then 0 else off) }
  let d := d.onBoot fun b => { b with
    stage := 4, slotBooted := b.slot, fallback := b.firstSlot != some b.slot, devReady := true
    readyUs := (d.time.now + 100000) / 1000 }
  let d := d.onPcie fun p => { p with cfgOk := true }
  let d := d.onBuf fun b => { b with placing := (List.range 4).map fun i => bit on (16 + i) }
  let d := d.each (List.range 32) fun e d =>
    if bit on (1 + e / 8) then d.onEng e fun x => { x with startEdge := some d.time.edges, lastEdge := d.time.edges } else d
  let d := d.each (List.range 6) fun n d => if d.dieFailed n then d.log 0x0101 n (le 1 n) else d
  let d := if d.boot.strapRole = 0 then d else d.onRed fun r => { r with role := .syncing, since := d.time.now, sentAt := d.time.now }
  d.avsSettle

/-- FIRMWARE_READY. -/
def execFirmwareReady (recA recB : Option Nat) (recOk : Bool) (lastLog : Option Nat) (s : State) : Host.Outcome State Fault Refusal :=
  act true (fun d => if d.boot.stage == 3 && !d.boot.halted then d.firmwareReady recA recB recOk lastLog else d) s

/-- FIRMWARE_READY_TIMEOUT (R60): result 0x7, and the fallback slot or fail code 0x04. -/
def execFirmwareReadyTimeout (s : State) : Host.Outcome State Fault Refusal :=
  act true (fun d =>
    if d.boot.stage == 3 && !d.boot.halted then
      d.timer (d.boot.stage3At + 60000000) fun d =>
        let d := d.allOff
        let d := d.onBoot fun b => Boot.setResult b b.slot 7
        if d.boot.strapSlot = 3 || d.boot.tried.length ≥ 2 then d.stopStartup 4
        else d.onBoot fun b => { b with stage := 2 }
    else d) s

end Sys2Proof.Machine
end

