-- ==== Sys2Proof/Machine/Uplink.lean ====
section
/-! DEFINITION. The uplink ports: links and lanes, received frames, time gates, preemption, and the MAC's choice of the next frame
(16_scheduling_shaping.md from R402 on, 17_uplinks_and_time.md up to R421 and R429).
Choices and readings: log entries 34, 52, 96, 122, 123 and 124. -/

namespace Sys2Proof.Machine

/-! ## Ports and lanes (R413) -/

/-- Lanes of a subport in its port's MODE (Table 17-1). -/
def Dev.lanesOf (d : Dev) (sp : Nat) : List Nat :=
  let p := sp / 8
  let s := sp % 8
  let m := fld (d.reg (A.uplCfg p)) 1 2
  if m = 0 then (List.range 4).map fun k => 4 * p + k
  else if m = 1 then [4 * p + 2 * s, 4 * p + 2 * s + 1]
  else [4 * p + s / 2]

/-- Subports of a port. -/
def Dev.subsOf (d : Dev) (p : Nat) : List Nat := (List.range (d.portSplit p)).map fun s => 8 * p + s

/-- The subport exists in its port's MODE, and its Sluice is up. -/
def Dev.subUp (d : Dev) (sp : Nat) : Bool := d.portUp (sp / 8) && decide (sp % 8 < d.portSplit (sp / 8))

/-- UPL_q_CFG.EN. -/
def Dev.portEn (d : Dev) (p : Nat) : Bool := bit (d.reg (A.uplCfg p)) 0

/-- The SyncE output that a subport feeds goes into electrical idle (R429). -/
def Dev.synceIdle (d : Dev) (sp : Nat) : Dev :=
  let n := sp / 256
  let y := d.synce n
  if y.active && y.sub == sp % 256 then (d.onSynce n fun y => { y with active := false }).emit (.synce n false) else d

/-- A subport goes link-down: the rest of a cut frame is lost with the link. -/
def Dev.subDown (d : Dev) (sp : Nat) : Dev :=
  if !(d.sub sp).up then d
  else
    let d := d.onSub sp fun x => { x with up := false, verified := false, cut := none, air := none }
    (d.synceIdle sp).uplCauseSet (sp / 8) 1

/-- Drop the frames in the class queues of a subport and count them. -/
def Dev.dropSubQueues (d : Dev) (sp : Nat) : Dev :=
  d.each (List.range 8) fun c d =>
    let (n, d) := d.purgeQ (.up sp c) fun _ => true
    d.bump (A.subTxDrop sp) n

/-- UPLINK_LINK_UP (R414, R416): training of a subport has ended; `inverted` has a bit for each of its lanes in order. With
`miswire` a receive lane carries the markers of another subport, and the subport stays link-down. -/
def execUplinkLinkUp (sp deskew inverted : Nat) (miswire : Bool) (s : State) : Host.Outcome State Fault Refusal :=
  act (decide (sp < 512)) (fun d =>
    let lanes := d.lanesOf sp
    if !d.subUp sp || !d.portEn (sp / 8) || (d.sub sp).up || lanes.any (fun l => (d.lane l).fault != 0)
        || !bit (d.reg A.refclk) (4 + sp / 256) then d
    else
      let d := (List.range lanes.length).foldl (fun (d : Dev) k =>
        d.onLane (nth 0 lanes k) fun x => { x with signal := true, locked := true, inv := bit inverted k }) d
      if miswire then d.onSub sp fun x => { x with miswire := true }
      else
        let now := d.time.now
        let d := d.onSub sp fun x => { x with up := true, miswire := false, verified := false, verifyAt := now, upAt := now, busyTo := now }
        (d.setReg (A.uplDeskew (sp / 8)) deskew).uplCauseSet (sp / 8) 1) s

/-- UPLINK_LINK_DOWN (R415, R429): `signal` and `locked` have a bit for each lane of the subport; a lane that loses lock takes
down the other stream that it carries. -/
def execUplinkLinkDown (sp signal locked : Nat) (s : State) : Host.Outcome State Fault Refusal :=
  act (decide (sp < 512)) (fun d =>
    if !d.subUp sp || !(d.sub sp).up then d
    else
      let lanes := d.lanesOf sp
      let d := (List.range lanes.length).foldl (fun (d : Dev) k =>
        d.onLane (nth 0 lanes k) fun x => { x with signal := bit signal k, locked := bit locked k }) d
      let hit := (d.subsOf (sp / 8)).filter fun q => (d.lanesOf q).any fun l => lanes.contains l && !(d.lane l).locked
      (d.each hit fun q d => d.subDown q).subDown sp) s

/-- LANE_FAULT_CHECK (R417, Table 17-3): a check of a lane finds a fault, or none. -/
def execLaneFaultCheck (lane fault : Nat) (s : State) : Host.Outcome State Fault Refusal :=
  act (decide (lane < 256) && decide (fault < 6)) (fun d =>
    let p := lane / 4
    if !d.portUp p then d
    else if fault ≠ 0 then
      let d := if (d.lane lane).fault = 0 then d.emit (.lane lane false) else d
      let d := d.onLane lane fun x => { x with fault := fault, clean := 0 }
      let d := d.uplCauseSet p 2
      let d := d.each ((d.subsOf p).filter fun q => (d.lanesOf q).contains lane) fun q d => d.subDown q
      d.limited [0x0601, lane] 1000000000 fun d => d.log 0x0601 (4 + p / 32) (le 2 lane ++ le 1 fault)
    else if (d.lane lane).fault = 0 then d
    else if (d.lane lane).clean = 0 then d.onLane lane fun x => { x with clean := 1 }
    else (d.onLane lane fun x => { x with fault := 0, clean := 0 }).emit (.lane lane true)) s

/-! ## Port configuration (R415, R418) -/

/-- EN of a port goes to 0. -/
def Dev.uplEnClear (d : Dev) (p : Nat) : Dev :=
  let d := (d.setBit (A.uplCfg p) 0 false).loadCorr p
  d.each (d.subsOf p) fun q d => (d.subDown q).dropSubQueues q

/-- EN of a port goes to 1: its subports may train. -/
def Dev.uplEnSet (d : Dev) (p : Nat) : Dev := d.setBit (A.uplCfg p) 0 true

/-- A write of MODE. One that names the present MODE while EN is 1 changes nothing and is no error. -/
def Dev.uplMode (d : Dev) (p mode : Nat) : Dev :=
  let w := d.reg (A.uplCfg p)
  if d.portEn p then (if mode = fld w 1 2 then d else d.uplCauseSet p 16)
  else if 3 ≤ mode then d
  else
    let d := (d.setReg (A.uplCfg p) (w - 2 * fld w 1 2 + 2 * mode)).loadCorr p
    let gone := ((List.range 8).filter fun s => decide (d.portSplit p ≤ s)).map fun s => 8 * p + s
    d.each gone fun q d => d.onSub q fun x => { x with
      pend := [], sched := none, change := 0, force := none, preempt := 0, verified := false, miswire := false }

/-- A write of the whole UPL_q_CFG: MODE against the EN that stands, then EN and MAX_LEN. -/
def Dev.uplCfgWrite (d : Dev) (p : Nat) (word : W32) : Dev :=
  let n := word.toNat
  let d := d.uplMode p (fld n 1 2)
  let w := d.reg (A.uplCfg p)
  let d := d.setReg (A.uplCfg p) (w % 65536 + n / 65536 * 65536)
  if bit n 0 then d.uplEnSet p else if bit w 0 then d.uplEnClear p else d

/-- R431: a read of UPL_TSF_s_HEAD. -/
def Dev.tsfRead (d : Dev) (sp : Nat) : Nat × Dev :=
  match (d.sub sp).fifo with
  | [] => (0, d)
  | (tag, sec, ns, frac) :: rest =>
    (1 + 2 * rest.length + 65536 * tag, d.onSub sp fun x => { x with fifo := rest, readout := (sec, ns, frac) })

/-! ## Receiving (R18, R418, R419, Table 17-2) -/

/-- UPLINK_FRAME_RX: a frame from the Ethernet header to the FCS; `overrun` says that it found the input queue full, and the last
operands count the FEC codewords corrected and uncorrectable since the last frame. -/
def execUplinkFrameRx (sp : Nat) (frame : Bytes) (overrun : Bool) (fecCorr fecUncorr : Nat) (s : State) :
    Host.Outcome State Fault Refusal :=
  act (decide (sp < 512)) (fun d =>
    if !d.subUp sp || !(d.sub sp).up || !d.portEn (sp / 8) then d
    else
      let p := sp / 8
      let die := 4 + sp / 256
      let d := ((d.bump (A.subRxFrames sp)).bump (A.subFecCorr sp) fecCorr).bump (A.subFecUncorr sp) fecUncorr
      let n := frame.length
      let gone := fun (d : Dev) => d.perf die 0x020 1 [(2, sp)]
      if n < 64 then gone d
      else if beAt frame (n - 4) 4 ≠ ofBe (le 4 (crc32 (bodyOf frame))) then gone (d.bump (A.subFcsErr sp))
      else if min 16384 (d.regFld (A.uplCfg p) 16 16) < n then gone (d.bump (A.subOversize sp))
      else if beAt frame 12 2 = 0x8808 then gone (d.bump (A.subCtrlDrop sp))
      else
        let d := d.bwCount 0 sp 0 n
        if overrun then gone (d.bump (A.subInOverrun sp))
        else
          let t := d.subTime sp - corr (d.reg (A.uplRxCorr p)) - corr (d.reg (A.uplDeskew p))
          d.spread die { data := frame, len := n, src := sp, ts := some (stampOf t) }) s

/-! ## Gate lists (R403, R405, R406) -/

/-- Cyclic sum of intervals from a list of (open, interval) pairs while they are open. -/
def openRun : List (Bool × Nat) → Nat
  | [] => 0
  | (o, n) :: l => if o then n + openRun l else 0

/-- Position of the selected time in a list's cycle: entry, and ns left of it. -/
def GateList.place (g : GateList) (ns : Nat) : Nat × Nat :=
  let off := (((ns : Int) - g.base) % (max 1 g.cycle : Nat)).toNat
  go g.entries 0 off
where
  /-- Walk the entries. -/
  go : List (Nat × Nat) → Nat → Nat → Nat × Nat
    | [], i, _ => (i, 0)
    | (_, n) :: l, i, off => if off < n then (i, n - off) else go l (i + 1) (off - n)

/-- Entries as one class sees them, from entry `i` on, once round. -/
def GateList.view (g : GateList) (cls i : Nat) : List (Bool × Nat) :=
  ((g.entries.drop i) ++ g.entries.take i).map fun e => (bit e.1 cls, e.2)

/-- ns left of class `cls`'s open run at a time: none where its gate never closes. -/
def GateList.left (g : GateList) (cls ns : Nat) : Option Nat :=
  let (i, rest) := g.place ns
  match g.view cls i with
  | [] => none
  | (o, _) :: l => if g.entries.all fun e => bit e.1 cls then none else some (if o then rest + openRun l else 0)

/-- The longest open run of a class: none where its gate never closes. -/
def GateList.longest (g : GateList) (cls : Nat) : Option Nat :=
  if g.entries.all fun e => bit e.1 cls then none
  else some (((List.range g.entries.length).map fun i => openRun (g.view cls i)).foldl max 0)

/-- ns left of a class's open run on a subport now: none for no end, 0 for a closed gate. -/
def Dev.gateLeft (d : Dev) (sp cls : Nat) : Option Nat :=
  match (d.sub sp).force with
  | some g => g.left cls d.selNs
  | none => none

/-- GATE_s_STATUS: OPEN, ENTRY, LIST_ON, CONFIG_PENDING, PREEMPT_ACTIVE (Table 16-8). -/
def Dev.gateStatus (d : Dev) (sp : Nat) : Nat :=
  let x := d.sub sp
  let (opened, entry) := match x.force with
    | some g =>
      let i := (g.place d.selNs).1
      ((nth (0, 0) g.entries i).1 % 256, i % 256)
    | none => (255, 0)
  opened + 256 * entry + 65536 * nb x.force.isSome + 131072 * nb x.sched.isSome + 262144 * nb x.verified

/-- The class acts as preemptable (R407), and the frame is not one that asks for a timestamp (R420). -/
def Sub.preemptable (x : Sub) (cls : Nat) (pkt : Pkt) : Bool := x.verified && bit x.preempt cls && pkt.tsTag.isNone

/-- Line time of `n` bytes with preamble and gap, in whole clocks. -/
def lineTime (rate n : Nat) : Nat := ceilDiv ((n + 20) * 8) rate

/-- Bytes of the running fragment after which it may first end, `sent` being on the line: fragments have 64 bytes at least. -/
def cutPoint (sent left : Nat) : Option Nat :=
  let k := max 64 sent
  if k + 64 ≤ left then some k else none

/-- End the running fragment of a preemptable frame at clock `t` or at the first permitted point after it. -/
def Dev.cutAir (d : Dev) (sp t : Nat) : Option Dev :=
  match (d.sub sp).air with
  | none => none
  | some (cls, pkt, left, start) =>
    let rate := d.upRate sp
    match cutPoint ((t - start) * rate / 8 - 8) left with
    | none => none
    | some k =>
      some ((d.onSub sp fun x => { x with air := none, cut := some (cls, pkt, left - k), busyTo := start + lineTime rate k }).emit (.upCut sp k))

/-- Bring the frame in flight up to the present: it has ended, or a gate that closed has cut it (R408). -/
def Dev.settleAir (d : Dev) (sp : Nat) : Dev :=
  let x := d.sub sp
  match x.air with
  | none => d
  | some (cls, _, _, start) =>
    let now := d.time.now
    let closed := match x.force with
      | some g =>
        match g.left cls (d.selNs - (now - start)) with
        | some r => if start + r ≤ now && decide (start + r < x.busyTo) then some (start + r) else none
        | none => none
      | none => none
    let d := match closed with
      | some t => (d.cutAir sp t).getD d
      | none => d
    if (d.sub sp).busyTo ≤ now then d.onSub sp fun x => { x with air := none } else d

/-- The scheduled list replaces the list in force (R404). -/
def Dev.gateChange (d : Dev) (sp : Nat) : Dev :=
  d.onSub sp fun x => match x.sched with
    | some g => { x with force := if g.entries.isEmpty then none else some g, sched := none }
    | none => x

/-- R405: the selected domain's time has moved. -/
def Dev.gateResync (d : Dev) : Dev :=
  let subs := Tbl.keys (d.data.subs.filter fun e => e.2.force.isSome || e.2.sched.isSome)
  d.each subs fun sp d =>
    let d := if (d.sub sp).force.isSome then (d.bump (A.gateResync sp)).onSub sp fun x => { x with air := none } else d
    if (d.sub sp).sched.isSome && decide ((d.sub sp).change ≤ d.selNs) then d.gateChange sp else d

/-- GATE_ENTRY_CHANGE: time reaches the end of the entry in force; a frame whose gate has closed is cut. -/
def execGateEntryChange (sp : Nat) (s : State) : Host.Outcome State Fault Refusal :=
  act (decide (sp < 512)) (fun d =>
    match (d.sub sp).force with
    | some g =>
      if !d.subUp sp then d
      else d.timer (d.selDeadline (d.selNs + (g.place d.selNs).2)) fun d => d.settleAir sp
    | none => d) s

/-- GATE_LIST_CHANGE: the change time has come. -/
def execGateListChange (sp : Nat) (s : State) : Host.Outcome State Fault Refusal :=
  act (decide (sp < 512)) (fun d =>
    if d.subUp sp && (d.sub sp).sched.isSome then
      d.timer (d.selDeadline (d.sub sp).change) fun d => (d.settleAir sp).gateChange sp
    else d) s

/-- PREEMPT_VERIFY: the present try of the verify exchange ends, answered or not; a failed one is repeated 10 ms later. -/
def execPreemptVerify (sp : Nat) (answered : Bool) (s : State) : Host.Outcome State Fault Refusal :=
  act (decide (sp < 512)) (fun d =>
    let x := d.sub sp
    if d.subUp sp && x.up && !x.verified && x.preempt != 0 then
      d.timer x.verifyAt fun d => d.onSub sp fun x =>
        if answered then { x with verified := true } else { x with verifyAt := d.time.now + 10000000 }
    else d) s

/-! ## The MAC's choice (R402, R406 to R408) -/

/-- The frame that class `cls` could start: the rest of a cut one (with its bytes left), or the head of its queue. -/
def Dev.macHead (d : Dev) (sp cls : Nat) : Option (Pkt × Option Nat) :=
  let x := d.sub sp
  let head := match Tbl.look [] x.queues cls with
    | p :: rest => if p.seg == 2 || p.poisoned || (!p.whole && !rest.isEmpty) then none else some (p, none)
    | [] => none
  match x.cut with
  | some (c, p, left) => if c = cls then some (p, some left) else
      match head with
      | some (q, _) => if x.preemptable cls q then none else head
      | none => none
  | none => head

/-- What the gate says of a class's frame. -/
inductive Fit where
  | closed | fits | held
  deriving DecidableEq

/-- R406, R408. -/
def Dev.macFit (d : Dev) (sp cls : Nat) (pkt : Pkt) : Fit :=
  match d.gateLeft sp cls with
  | none => .fits
  | some 0 => .closed
  | some n =>
    let room := n * d.upRate sp
    let need := if (d.sub sp).preemptable cls pkt then 84 * 8 else (upLen pkt + 20) * 8
    if need ≤ room then .fits else .held

/-- Drop head frames that no open run of their class can hold. -/
def Dev.dropTooLong (d : Dev) (sp cls : Nat) : Dev :=
  match (d.sub sp).force, Tbl.look [] (d.sub sp).queues cls with
  | some g, p :: rest =>
    match g.longest cls with
    | some n =>
      if !(d.sub sp).preemptable cls p && decide (n * d.upRate sp < (upLen p + 20) * 8) then
        (((d.setQ (.up sp cls) rest).freePkt p).bump (A.gateOversize sp)).lost (4 + sp / 256) p
      else d
    | none => d
  | _, _ => d

/-- Count a head frame that waits for a longer run, once. -/
def Dev.countHeld (d : Dev) (sp cls : Nat) : Dev :=
  match Tbl.look [] (d.sub sp).queues cls with
  | p :: rest =>
    if p.heldCounted then d
    else (d.bump (A.gateHeld sp)).onSub sp fun x => { x with queues := Tbl.put [] x.queues cls ({ p with heldCounted := true } :: rest) }
  | [] => d

/-- The highest class whose gate is open and whose frame passes, among the classes given; `express` leaves preemptable ones out. -/
def Dev.macPick (d : Dev) (sp : Nat) (express : Bool) : List Nat → Option Nat × Dev
  | [] => (none, d)
  | c :: cs =>
    let d := d.dropTooLong sp c
    match d.macHead sp c with
    | none => Dev.macPick d sp express cs
    | some (p, _) =>
      if express && (d.sub sp).preemptable c p then Dev.macPick d sp express cs
      else
        match d.macFit sp c p with
        | .fits => (some c, d)
        | .held => Dev.macPick (if (d.sub sp).preemptable c p then d else d.countHeld sp c) sp express cs
        | .closed => Dev.macPick d sp express cs

/-- Start the frame of class `cls`. -/
def Dev.macStart (d : Dev) (sp cls : Nat) : Dev :=
  match d.macHead sp cls with
  | none => d
  | some (p, rest) =>
    let now := d.time.now
    let pre := (d.sub sp).preemptable cls p
    match rest with
    | some left =>
      (d.bump (A.preemptFrags sp)).onSub sp fun x => { x with
        cut := none, air := some (cls, p, left, now), busyTo := now + lineTime (d.upRate sp) left }
    | none =>
      let len := upLen p
      let d := (d.setQ (.up sp cls) ((Tbl.look [] (d.sub sp).queues cls).drop 1)).toEgress p
      let d := d.onSub sp fun x => { x with
        air := if pre then some (cls, p, len, now) else none, busyTo := now + lineTime (d.upRate sp) len }
      let d := d.stamp p 6
      if p.whole then d.sendUp sp p else d.onData fun x => { x with sending := x.sending ++ [(.uplink sp, p)] }

/-- The classes by strict priority. -/
def classes : List Nat := [7, 6, 5, 4, 3, 2, 1, 0]

/-- UPLINK_FRAME_START: the MAC takes the next frame, when the frame before it has ended or an express frame may cut it. -/
def execUplinkFrameStart (sp : Nat) (s : State) : Host.Outcome State Fault Refusal :=
  act (decide (sp < 512)) (fun d =>
    if !d.subUp sp || !(d.sub sp).up || !d.portEn (sp / 8) || !d.linkCarries (4 + sp / 256) then d
    else
      let d := d.settleAir sp
      let cut := if (d.sub sp).air.isSome then
          match d.macPick sp true classes with
          | (some _, d) => d.cutAir sp d.time.now
          | (none, _) => none
        else none
      let d := cut.getD d
      d.timer (d.sub sp).busyTo fun d =>
        let d := d.settleAir sp
        match d.macPick sp false classes with
        | (some c, d) => d.macStart sp c
        | (none, d) => d) s

/-! ## Commands (Tables 6-17, 6-19, 16-4) -/

/-- Offsets at fault of PORT and SUBPORT, from offset `o` on. -/
def portBad (d : Dev) (port sub o : Nat) : List (Nat × Bool) :=
  [(o, decide (64 ≤ port)), (o + 1, decide (port < 64) && decide (d.portSplit port ≤ sub))]

/-- The port's Sluice is up. -/
def portDown (d : Dev) (x : Call) : Option Nat := if d.portUp (x.a 0) then none else some 0

/-- GATE_WRITE. -/
def cmdGateWrite : Cmd where
  op := 0x0907
  lvl := 3
  layout := [fd 1, fd 1, fd 2, fd 2, rs 2]
  tail := (0, 1024, 8)
  mirrored := true
  bad d x :=
    let n := (x.body.length - 8) / 8
    badIf (portBad d (x.a 0) (x.a 1) 0 ++ [(2, decide (256 < x.a 2 + x.a 3)), (4, decide (128 < x.a 3) || x.a 3 != n)] ++
      (List.range n).flatMap fun i =>
        let o := 8 + 8 * i
        [(o + 4, leAt x.body (o + 1) 3 != 0 || decide (leAt x.body (o + 4) 4 < 50) || decide (1000000000 < leAt x.body (o + 4) 4))])
  unavail := portDown
  run d x :=
    let put := fun (t : Tbl (Nat × Nat)) (i : Nat) =>
      Tbl.set t (x.a 2 + i) (leAt x.body (8 + 8 * i) 1, leAt x.body (12 + 8 * i) 4)
    (d.onSub (8 * x.a 0 + x.a 1) fun s => { s with pend := (List.range (x.a 3)).foldl put s.pend }, .ok [])

/-- The first entries of a subport's pending list; one never written has no gate open and no length. -/
def Sub.first (x : Sub) (n : Nat) : List (Nat × Nat) := (List.range n).map fun i => Tbl.look (0, 0) x.pend i

/-- GATE_COMMIT. -/
def cmdGateCommit : Cmd where
  op := 0x0908
  lvl := 3
  layout := [fd 1, fd 1, fd 2, fd 4, fd 8]
  mirrored := true
  bad d x :=
    badIf (portBad d (x.a 0) (x.a 1) 0 ++ [(2, decide (256 < x.a 2)), (4, decide (x.a 3 < 1000) || decide (1000000000 < x.a 3))])
  unavail := portDown
  special d x :=
    let sum := ((d.sub (8 * x.a 0 + x.a 1)).first (x.a 2)).foldl (fun a e => a + e.2) 0
    if x.a 2 ≠ 0 && sum ≠ x.a 3 then some (0x8008, sum % 2 ^ 32) else none
  run d x :=
    let sp := 8 * x.a 0 + x.a 1
    let n := ceilDiv (d.selNs + 10000 - x.a 4) (x.a 3)
    (d.onSub sp fun s => { s with
      sched := some { entries := s.first (x.a 2), cycle := x.a 3, base := x.a 4 }, change := x.a 4 + n * x.a 3 }, .ok [])

/-- PREEMPT_SET (R407). -/
def cmdPreemptSet : Cmd where
  op := 0x0909
  lvl := 3
  layout := [fd 1, fd 1, fd 1, rs 1]
  mirrored := true
  commit := true
  bad d x := badIf (portBad d (x.a 0) (x.a 1) 0)
  unavail := portDown
  run d x := (d.onSub (8 * x.a 0 + x.a 1) fun s => { s with preempt := x.a 2 }, .ok [])

/-- PTP_PORT_SET. -/
def cmdPtpPortSet : Cmd where
  op := 0x0B03
  lvl := 3
  layout := [fd 1, fd 1, fd 1, fd 1]
  mirrored := true
  bad d x := badIf (portBad d (x.a 0) (x.a 1) 0 ++ [(2, decide (1 < x.a 2)), (3, x.a 3 != 1 && x.a 3 != 2)])
  unavail := portDown
  run d x := (d.setReg (A.subPtpCfg (8 * x.a 0 + x.a 1)) (x.a 2 + 2 * nb (x.a 3 == 1)), .ok [])

/-- SYNCE_SET (R429): the output returns at once where its subport has held the link for 10 ms. -/
def cmdSynceSet : Cmd where
  op := 0x0B05
  lvl := 3
  layout := [fd 1, fd 1, fd 1, fd 1]
  mirrored := true
  bad d x :=
    badIf [(0, decide (1 < x.a 0)), (1, decide (64 ≤ x.a 1) || (decide (x.a 0 < 2) && x.a 1 / 32 != x.a 0)),
      (2, decide (x.a 1 < 64) && decide (d.portSplit (x.a 1) ≤ x.a 2)), (3, decide (1 < x.a 3))]
  unavail d x := if d.dieUp (4 + x.a 0) then none else some 0
  run d x :=
    let n := x.a 0
    let sp := 8 * x.a 1 + x.a 2
    let on := x.a 3 == 1 && (d.sub sp).up && decide ((d.sub sp).upAt + 10000000 ≤ d.time.now)
    let was := (d.synce n).active
    let d := d.onSynce n fun _ => { enable := x.a 3 == 1, sub := sp % 256, active := on }
    (if was = on then d else d.emit (.synce n on), .ok [])

/-- SYNCE_OUTPUT_RETURN. -/
def execSynceOutputReturn (sluice : Nat) (s : State) : Host.Outcome State Fault Refusal :=
  act (decide (sluice < 2)) (fun d =>
    let y := d.synce sluice
    let sp := 256 * sluice + y.sub
    if d.dieUp (4 + sluice) && y.enable && !y.active && (d.sub sp).up then
      d.timer ((d.sub sp).upAt + 10000000) fun d =>
        (d.onSynce sluice fun y => { y with active := true }).emit (.synce sluice true)
    else d) s

/-- GATE_WRITE. -/
def execGateWrite (m : Msg) (s : State) : Host.Outcome State Fault Refusal := request cmdGateWrite m s
/-- GATE_COMMIT. -/
def execGateCommit (m : Msg) (s : State) : Host.Outcome State Fault Refusal := request cmdGateCommit m s
/-- PREEMPT_SET. -/
def execPreemptSet (m : Msg) (s : State) : Host.Outcome State Fault Refusal := request cmdPreemptSet m s
/-- PTP_PORT_SET. -/
def execPtpPortSet (m : Msg) (s : State) : Host.Outcome State Fault Refusal := request cmdPtpPortSet m s
/-- SYNCE_SET. -/
def execSynceSet (m : Msg) (s : State) : Host.Outcome State Fault Refusal := request cmdSynceSet m s

end Sys2Proof.Machine
end

