-- ==== Sys2Proof/Machine/Clock.lean ====
section
/-! DEFINITION. The time unit: PTP domains, compare units, the alignment step, the measures of the reference clocks, and the time
group (07_tick_and_timebase.md, 17_uplinks_and_time.md from R422 on, Table 6-19).
Choices and readings: log entries 17, 84, 85, 86, 123 and 125. -/

namespace Sys2Proof.Machine

/-! ## Compare units (R426 to R428) -/

/-- d of R426: a domain's time less a target, as a signed 64-bit value. -/
def Dev.cmpDiff (d : Dev) (x target : Nat) : Int := signed 64 (field 64 ((Ptp.ns (d.ptp x) : Int) - target))

/-- Domain of a unit. -/
def Dev.cmpDom (d : Dev) (m : Nat) : Nat := d.regFld (A.cmpCtrl m) 2 1

/-- PERIOD, 100 ns at least. -/
def Dev.cmpPeriodNs (d : Dev) (m : Nat) : Nat := max 100 (d.reg (A.cmpPeriod m))

/-- A write of CMP_m_CTRL. -/
def Dev.cmpWrite (d : Dev) (m : Nat) (word : W32) : Dev :=
  let d := d.setReg (A.cmpCtrl m) (Nat.land word.toNat 0x1E)
  if bit word.toNat 0 then
    let target := ((d.ctr (A.cmpTgtSec m)) % 2 ^ 48 * 1000000000 + d.reg (A.cmpTgtNs m)) % 2 ^ 64
    let late := decide (0 < d.cmpDiff (d.cmpDom m) target)
    d.onCmp m fun _ => { armed := true, target := target, late := late }
  else d.onCmp m fun c => { c with armed := false }

/-- A unit fires (R427). -/
def Dev.cmpFire (d : Dev) (m : Nat) : Dev :=
  let ctrl := d.reg (A.cmpCtrl m)
  let c := d.cmp m
  let period := d.cmpPeriodNs m
  let width := max 8 (d.reg (A.cmpWidth m))
  let width := if bit ctrl 1 && decide (period ≤ width) then period / 2 else width
  let d := d.bump (A.cmpFired m)
  let status := d.reg (A.cmpStatus m)
  let d := d.setReg (A.cmpStatus m) (Nat.lor status (2 + 4 * nb c.late))
  let d := if bit status 1 then d else d.raise 0 (36 + m)
  let d := if bit ctrl 3 then d.emit (.pulse m (bit ctrl 4) width) else d
  if bit ctrl 1 then
    let target := (c.target + period) % 2 ^ 64
    let late := decide (0 < d.cmpDiff (d.cmpDom m) target)
    d.onCmp m fun c => { c with target := target, late := late }
  else d.onCmp m fun c => { c with armed := false }

/-- R428: the units of a domain after a load or step of it. -/
def Dev.cmpRebase (d : Dev) (x : Nat) : Dev :=
  d.each [0, 1, 2, 3] fun m d =>
    let c := d.cmp m
    if !c.armed || d.cmpDom m != x then d
    else if bit (d.reg (A.cmpCtrl m)) 1 then
      let period := d.cmpPeriodNs m
      let k := d.cmpDiff x c.target / (period : Int) + 1
      let d := if 0 < k then d.bump (A.cmpMissed m) k.toNat else d
      d.onCmp m fun c => { c with target := field 64 ((c.target : Int) + k * period), late := false }
    else
      let late := decide (0 < d.cmpDiff x c.target)
      d.onCmp m fun c => { c with late := late }

/-- COMPARE_FIRE: an armed unit's domain reaches its target. -/
def execCompareFire (unit : Nat) (s : State) : Host.Outcome State Fault Refusal :=
  act (decide (unit < 4)) (fun d =>
    let c := d.cmp unit
    let x := d.cmpDom unit
    if !c.armed then d
    else
      let away := -(d.cmpDiff x c.target)
      let need := if away ≤ 0 then 0 else ((Ptp.ns (d.ptp x) : Int) + away).toNat * 2 ^ 32 - (d.ptp x).count
      d.timer (d.time.now + d.clocksFor x need) fun d => d.cmpFire unit) s

/-! ## Domains (R422 to R424) -/

/-- A load or step has taken effect. -/
def Dev.ptpMoved (d : Dev) (x : Nat) : Dev :=
  let d := (d.setReg (A.ptpSteps x) (d.reg (A.ptpSteps x) + 1)).cmpRebase x
  if d.time.selected = x then d.gateResync else d

/-- LOAD. -/
def Dev.ptpLoad (d : Dev) (x : Nat) : Dev :=
  let ns := d.reg (A.ptpSetNs x)
  if 1000000000 ≤ ns then d.setBit (A.ptpCtrl x) 2 true
  else
    let sec := d.ctr (A.ptpSetSec x) % 2 ^ 48
    (d.onPtp x fun p => { p with count := (sec * 1000000000 + ns) * 2 ^ 32 }).ptpMoved x

/-- A step by a signed number of ns. -/
def Dev.ptpStepBy (d : Dev) (x value : Nat) : Dev :=
  let d := d.setCtr (A.ptpStep x) value
  let t := ((d.ptp x).count : Int) + signed 64 value * 2 ^ 32
  if t < 0 then d.setBit (A.ptpCtrl x) 2 true
  else (d.onPtp x fun p => { p with count := ptpWrap t.toNat }).ptpMoved x

/-- Least and greatest INCR (R422). -/
def incrMin : Nat := 0xFFBE76C9
def incrMax : Nat := 0x100418937

/-- A new INCR. -/
def Dev.ptpIncrSet (d : Dev) (x value : Nat) : Dev :=
  let v := max incrMin (min incrMax value)
  let d := if v = value then d else d.setBit (A.ptpCtrl x) 3 true
  d.onPtp x fun p => { p with incr := v }

/-- R206: the samples of the Dikes are no longer valid once the selected domain unlocks. -/
def Dev.todCheck (d : Dev) : Dev :=
  if d.todValid then d
  else d.each [0, 1, 2, 3] fun n d => if d.domOn (1 + n) && bit (d.reg (A.todStatus n)) 0 then d.setBit (A.todStatus n) 0 false else d

/-- A write of PTP_x_CTRL. -/
def Dev.ptpCtrlWrite (d : Dev) (x : Nat) (word : W32) : Dev :=
  let w := word.toNat
  let old := d.reg (A.ptpCtrl x)
  let d := d.setReg (A.ptpCtrl x) (w % 2 + (Nat.land old 0xC - Nat.land (Nat.land old 0xC) w))
  let d := d.todCheck
  if bit w 1 then d.ptpLoad x else d

/-- R430: a read of PTP_x_NOW_FRAC by PF0. -/
def Dev.ptpFracRead (d : Dev) (x : Nat) : Nat × Dev :=
  let p := d.ptp x
  let ns := Ptp.ns p
  let sec := ns / 1000000000
  let put := fun (t : Tbl W32) (e : Nat × Nat) => Tbl.set t e.1 (w32 e.2)
  (p.count % 2 ^ 32, d.onFn 0 fun f => { f with latch :=
    [(A.ptpNowNs x, ns % 1000000000), (A.ptpNowSec x, sec), (A.ptpNowSec x + 4, sec / 2 ^ 32)].foldl put f.latch })

/-! ## Reference clocks (R164, R425) -/

/-- PTP_REF_DIFF_MEASURE: a 1 s window with both clocks good has ended; `diff` in units of 0.001 ppb, two's complement. -/
def execPtpRefDiffMeasure (diff : W32) (s : State) : Host.Outcome State Fault Refusal :=
  act true (fun d =>
    if d.boot.pd00 && bit (d.reg A.refclk) 7 && bit (d.reg A.refclk) 8 then
      d.timer (d.time.diffFrom + 1000000000) fun d =>
        (d.setReg A.ptpRefDiff diff.toNat).onTime fun t => { t with diffFrom := t.now }
    else d) s

/-- FRAME_DRIFT_CHECK: the drift of a Dike's frame starts within 1 s, in ps. -/
def execFrameDriftCheck (die drift : Nat) (s : State) : Host.Outcome State Fault Refusal :=
  act (decide (die < 4)) (fun d =>
    if d.domOn (1 + die) && !d.dieFailed die && decide (4000 < drift) then
      (d.setBit A.tickStatus 6 true).log 0x0204 die (le 1 die)
    else d) s

/-! ## Alignment (R161) -/

/-- A step is due but for the channels. -/
def Dev.alignDue (d : Dev) : Bool := d.todValid && bit (d.reg A.tickCtrl) 0 && (!d.time.aligned || d.time.alignReq)

/-- Every channel is OFF. -/
def Dev.allChanOff (d : Dev) : Bool := d.pon.chans.all fun e => e.2.state == .off

/-- The next T0 of an alignment step made now: the aligned tick, and the clocks up to it. -/
def Dev.alignTarget (d : Dev) : Nat × Nat :=
  let x := d.time.selected
  let c := (d.ptp x).count
  let unit := 15625 * 2 ^ 31
  let k := ceilDiv (c + d.advance x 7812) unit
  (k, d.clocksFor x (k * unit - c + 1) - 1)

/-- ALIGNMENT_STEP: at a T0 where the conditions hold, the tick that begins there is lengthened. -/
def execAlignmentStep (s : State) : Host.Outcome State Fault Refusal :=
  act true (fun d =>
    if d.boot.pd00 && decide (0 < d.time.edges) && d.time.now == d.time.edgeAt && !d.time.stepping && d.alignDue && d.allChanOff then
      let (k, n) := d.alignTarget
      d.onTime fun t => { t with stepping := true, alignReq := false, alignPending := false, nextAt := t.now + n, nextTick := k }
    else d) s

/-! ## The time group (Table 6-19) -/

/-- TIME_SELECT (R424). -/
def cmdTimeSelect : Cmd where
  op := 0x0B01
  lvl := 3
  layout := [fd 1, rs 3]
  mirrored := true
  commit := true
  bad _ x := badIf [(0, decide (1 < x.a 0))]
  special d x := if d.ptpLocked (x.a 0) then none else some (0x8009, 0)
  run d x :=
    if d.time.selected = x.a 0 then (d, .ok [])
    else ((d.onTime fun t => { t with selected := x.a 0 }).gateResync, .ok [])

/-- TIME_GET. -/
def cmdTimeGet : Cmd where
  op := 0x0B02
  lvl := 3
  caller := .x
  run d _ :=
    (d, .ok (le 1 d.time.selected ++ le 1 (nb (d.ptpLocked 0)) ++ le 1 (nb (d.ptpLocked 1)) ++ le 1 0
      ++ le 8 d.time.tick ++ le 8 d.uptimeNs))

/-- TOD_SET (R205); 0xFFFF names every channel whose domains are up. -/
def cmdTodSet : Cmd where
  op := 0x0B04
  lvl := 3
  layout := [fd 2, fd 1, rs 1]
  mirrored := true
  bad _ x := badIf [(0, decide (512 ≤ x.a 0) && x.a 0 != 0xFFFF), (2, decide (1 < x.a 1))]
  unavail d x := if (if x.a 0 = 0xFFFF then (List.range 512).any d.chanUp else d.chanUp (x.a 0)) then none else some 0
  run d x :=
    let l := if x.a 0 = 0xFFFF then (List.range 512).filter d.chanUp else [x.a 0]
    (d.each l fun c d => d.onChan c fun y => { y with tod := x.a 1 == 1 }, .ok [])

/-- TIME_SELECT. -/
def execTimeSelect (m : Msg) (s : State) : Host.Outcome State Fault Refusal := request cmdTimeSelect m s
/-- TIME_GET. -/
def execTimeGet (m : Msg) (s : State) : Host.Outcome State Fault Refusal := request cmdTimeGet m s
/-- TOD_SET. -/
def execTodSet (m : Msg) (s : State) : Host.Outcome State Fault Refusal := request cmdTodSet m s

end Sys2Proof.Machine
end

