-- ==== Sys2Proof/Machine/Redundancy.lean ====
section
/-! DEFINITION. Twin-chip protection: heartbeats, roles, takeover, the planned switch, the mirror link and the confirmation of
upstream frames (18_redundancy.md).
Choices and readings: log entries 20, 22, 126, 127, 128, 129, 130, 131, 132 and 133. -/

namespace Sys2Proof.Machine

/-! ## Roles (R434, R460) -/

/-- Table 6-5. -/
def Role.code : Role → Nat
  | .alone => 0x40 | .active => 0x41 | .syncing => 0x42 | .ready => 0x43

/-- Channels that are not OFF. -/
def Dev.onChans (d : Dev) : List Nat := (d.pon.chans.filter fun e => e.2.state != .off).map Prod.fst

/-- Channels in SERVICE. -/
def Dev.servChans (d : Dev) : List Nat := (d.pon.chans.filter fun e => e.2.state == .service).map Prod.fst

/-- R441: every channel's lane goes into electrical idle. -/
def Dev.muteAll (d : Dev) : Dev := d.each d.onChans fun c d => d.setMute c true

/-- The lanes carry the framers' output again. -/
def Dev.driveAll (d : Dev) : Dev := d.each d.onChans fun c d => d.setMute c false

/-- R454: a standby with the mirror link up and negotiated asks for a bulk copy. -/
def Dev.askBulk (d : Dev) : Dev :=
  if d.red.role == .syncing && !d.red.flag && d.mir.up && d.mir.version != 0 then
    (d.onMir fun m => { m with bulk := false, copying := true, later := [] }).sendRec .request
  else d

/-- R460: a role change, or another cause of Table 18-8, with its event, cause bit, count and log entry. -/
def Dev.roleGo (d : Dev) (role : Role) (cause : Nat) : Dev :=
  let d := d.onRed fun r => { r with role := role, lastCause := cause, since := d.time.now }
  let d := (d.redCauseSet 1).evRoleChange (Role.code role) cause
  let d := if (1 ≤ cause && cause ≤ 7) || cause = 0xA then d.bumpSat A.redSwitches else d
  let d := d.log 0x0901 6 (le 1 (Role.code role) ++ le 1 cause)
  if role = .syncing && cause ≠ 3 then d.askBulk else d

/-- The partner's role code; a free value while it is unknown (log entry 22). -/
def Dev.peerCode (d : Dev) : Nat := if d.red.peer < 4 then 0x40 + d.red.peer else Config.freeValue d.draws % 256

/-- R446: an abandoned planned switch: the lanes stand as before, and RED_SWITCH names the device that is not in its role. -/
def Dev.abandon (d : Dev) : Dev :=
  match d.red.planned with
  | some (req, _, _, swapped) =>
    let d := d.onRed fun r => { r with planned := none }
    let d := if swapped then (if d.red.role = .active then d.driveAll else d.muteAll) else d
    match req with
    | some r => d.respond r.func r.op r.seq 0x0009 (if d.red.role = .active then d.peerCode else Role.code d.red.role) []
    | none => d
  | none => d

/-! ## Becoming ACTIVE (R443, Table 18-5) -/

/-- R296: every allocation starts afresh. -/
def Dev.restartAllocs (d : Dev) : Dev := d.onPon fun p => { p with allocs := Tbl.mapVals p.allocs fun _ a => a.restart }

/-- R447: the microframes before the first one that this device's own maps address stay in listen mode. -/
def Dev.listenOld (d : Dev) : Dev :=
  d.each d.servChans fun c d => d.onRedCh c fun r => { r with listenTo := mfAddressed (d.chan c).mode d.time.nextTick }

/-- Table 18-5: receive timing moves by the skew, permanently. -/
def Dev.takeSkew (d : Dev) : Dev :=
  d.each d.servChans fun c d => d.onRecv c fun r => { r with shift := r.shift + signed 32 (d.reg (A.redChSkew c)) }

/-- Table 18-5: entries in RANGING and MIGRATING. -/
def Dev.takeEntries (d : Dev) : Dev :=
  d.each (d.onusWith fun o => o.state == .ranging || o.state == .migrating) fun o d =>
    let e := d.onu o
    let wait := fun (m : Migr) => { m with both := true, rollback := true, waitTo := d.frame + 8 * (e.tuneMs + 10), lost := 0 }
    if e.state = .ranging then d.orderTimer o .discovered 3
    else d.onOnu o fun x => { x with migr := x.migr.map wait }

/-- R450: frames that no census has confirmed leave the hold: their buffers go, and they are forwarded or discarded. -/
def Dev.releaseHeld (d : Dev) (c : Nat) (mf : Nat → Bool) (forward : Bool) : Nat × Dev :=
  let gone := ((d.redCh c).heldF.filter fun h => mf h.1).flatMap Prod.snd
  let d := d.onRedCh c fun r => { r with heldF := r.heldF.filter fun h => !mf h.1, cens := r.cens.filter fun h => !mf h.1 }
  (gone.length, gone.foldl (fun d p =>
    let d := d.freePkt p
    if forward then d.policed { p with buf := none } else d.lost p.die p) d)

/-- A device becomes ACTIVE: it drives its lanes, and its allocations start afresh. -/
def Dev.becomeActive (d : Dev) (cause : Nat) : Dev :=
  let d := d.onMir fun m => { m with bulk := false, copying := false, stopped := false, later := [] }
  ((d.roleGo .active cause).driveAll.restartAllocs).listenOld

/-- R443: the takeover. -/
def Dev.takeover (d : Dev) (cause : Nat) : Dev :=
  let d := d.becomeActive cause
  let d := (d.onRed fun r => { r with tookOver := true }).takeSkew.takeEntries
  d.each (Tbl.keys d.redch) fun c d => (d.releaseHeld c (fun _ => true) true).2

/-- Clock at which the last upstream microframe that the maps issued so far address has ended on a channel. -/
def Dev.lastUpEnd (d : Dev) (c : Nat) : Nat :=
  let ch := d.chan c
  d.posClock c ((mfAddressed ch.mode d.time.tick + 1) * mfBlocks ch.usRate)

/-- R438: the partner is declared failed: cause 1 both paths lost, 2 its flag. -/
def Dev.partnerFailed (d : Dev) (cause : Nat) : Dev :=
  if d.red.failedPeer then d
  else
    let d := (d.onRed fun r => { r with peer := 4, failedPeer := true }).abandon
    match d.red.role with
    | .ready => d.takeover cause
    | .syncing => if d.pins.arbGrant && !d.red.flag then d.takeover 0xA else d
    | .active =>
      if cause = 1 then
        let ends := (d.servChans.map d.lastUpEnd).foldl max d.time.now + 125000
        (d.muteAll.onRed fun r => { r with watch := some ends }).roleGo .active 6
      else d
    | .alone => d

/-! ## The failure flag (R439, R440, Table 18-4) -/

/-- A cause of Table 18-4 raises the flag: `stops` for one that stops the device, `wait` for what must end before the flag may. -/
def Dev.raiseFlag (d : Dev) (stops : Bool) (wait : Nat) : Dev :=
  if d.red.role = .alone then d
  else
    let up := d.red.flag
    let d := d.onRed fun r => { r with flagStops := r.flagStops || stops, flagWait := Nat.lor r.flagWait wait }
    if up then d
    else
      let d := d.onRed fun r => { r with flag := true, flagAt := d.time.now, watch := none }
      (d.muteAll.roleGo .syncing 5).abandon

/-- A cause of the flag has ended (R440). -/
def Dev.flagCauseEnd (d : Dev) (wait : Nat) : Dev :=
  d.onRed fun r => { r with flagWait := r.flagWait - Nat.land r.flagWait wait }

/-- FAILURE_FLAG_END (R440): the causes have ended and 10 µs have passed. -/
def execFailureFlagEnd (s : State) : Host.Outcome State Fault Refusal :=
  act true (fun d =>
    if d.red.flag && !d.red.flagStops && d.red.flagWait == 0 then
      d.timer (d.red.flagAt + 10000) fun d =>
        (d.onRed fun r => { r with flag := false, since := d.time.now }).askBulk
    else d) s

/-- BELVEDERE_STATE_UNCORRECTABLE: the flag is raised, and the state of the heartbeats and of the mirror link starts from zero. -/
def execBelvedereStateUncorrectable (s : State) : Host.Outcome State Fault Refusal :=
  act true (fun d =>
    let d := d.raiseFlag false 0
    let d := d.mir.waiting.foldl (fun d w => d.respond w.2.1.func w.2.1.op w.2.1.seq w.2.2.1 w.2.2.2.1 w.2.2.2.2) d
    let d := d.onRed fun r => { r with
      lvdsAt := none, mirAt := none, mirRole := none, peer := 4, failedPeer := false, tookOver := false, claimAt := none }
    d.onMir fun m =>
      { up := m.up, deskewed := m.deskewed, lock := m.lock, version := m.version, peerVer := m.peerVer, peerPair := m.peerPair }) s

/-! ## Heartbeats (R436 to R438) -/

/-- R436, R437: the protected device sends its heartbeats on both paths: on the mirror link's lanes, or its Towpath lane (R459). -/
def Dev.sendBeats (d : Dev) : Dev :=
  let r := d.red
  let d := d.onRed fun r => { r with sentAt := d.time.now }
  if r.flag && decide (r.flagAt + 10000 < d.time.now) then d
  else
    let mark := decide (d.time.edgeAt + 1000 ≤ d.time.now) && decide (d.time.now < d.time.edgeAt + 2000)
    let d := d.emit (.heartbeat (if r.flag then 400 else if r.role = .active then 200 else 100))
    d.emit (.mirrorHb (Role.code r.role % 4 + 4 * nb r.flag + 8 * nb mark) (d.time.tick % 256))

/-- HEARTBEAT_SEND. -/
def execHeartbeatSend (s : State) : Host.Outcome State Fault Refusal :=
  act true (fun d => if d.red.role == .alone then d else d.timer (d.red.sentAt + 1000) Dev.sendBeats) s

/-- What a heartbeat says: 0 standby, 1 ACTIVE claim, 2 failure flag; none for one that is not valid (Tables 18-3 and 18-11). -/
def beatOf (path width flags : Nat) : Option Nat :=
  if path = 0 then
    if 75 ≤ width && width ≤ 125 then some 0 else if 175 ≤ width && width ≤ 225 then some 1
    else if 375 ≤ width && width ≤ 425 then some 2 else none
  else if bit flags 2 then some 2 else if flags % 4 = 1 then some 1 else some 0

/-- R435: an ACTIVE claim of the partner reaches an ACTIVE device. -/
def Dev.claimed (d : Dev) : Dev :=
  let d := d.onRed fun r => { r with claimAt := some d.time.now }
  if d.red.role = .active && !d.red.tookOver then
    let d := d.abandon.muteAll
    (d.onRed fun r => { r with watch := none }).roleGo .syncing 4
  else d

/-- R455: back to STANDBY_SYNCING from STANDBY_READY. -/
def Dev.demote (d : Dev) : Dev := if d.red.role = .ready then d.abandon.roleGo .syncing 9 else d

/-- R437: the phase that a tick mark measures, in 0.125 ns. -/
def Dev.phaseIs (d : Dev) (phase : Int) : Dev :=
  let d := d.setReg A.redPhase (field 32 phase)
  if 400 < phase.natAbs then (d.redCauseSet 0x10).demote else d

/-- Heartbeats missed between the last valid one and this one. -/
def missedBeats (last now : Nat) : Nat := (now - last + 500) / 1000 - 1

/-- A valid heartbeat on a path. -/
def Dev.beat (d : Dev) (path kind width flags : Nat) : Dev :=
  let now := d.time.now
  let start := if path = 0 then now - width else now
  let last := if path = 0 then d.red.lvdsAt else d.red.mirAt
  let d := match last with
    | some t => d.bump (if path = 0 then A.redLvdsMiss else A.redMirMiss) (missedBeats t start)
    | none => d
  let news := kind == 2 || last.isNone || d.red.mirRole != some (flags % 4)
  let d := if path = 1 && !d.domOn 22 && news then d.onRed fun r => { r with wake := true } else d
  let d := d.onRed fun r => if path = 0 then { r with lvdsAt := some start } else { r with mirAt := some start, mirRole := some (flags % 4) }
  if kind = 2 then (d.redCauseSet 8).partnerFailed 2
  else
    let peer := if path = 1 then flags % 4 else if kind = 1 then 1 else if d.red.peer = 3 then 3 else 2
    let d := d.onRed fun r => { r with peer := peer, failedPeer := false, tookOver := r.tookOver && kind == 1 }
    if kind = 1 then d.claimed else d

/-- HEARTBEAT_RX: a pulse on HB_IN (path 0, its width in ns), or a set on the mirror link (path 1, its flags; with a tick
mark, the phase measured from it). -/
def execHeartbeatRx (path width flags : Nat) (phase : Int) (s : State) : Host.Outcome State Fault Refusal :=
  act (decide (path < 2) && decide (flags < 16)) (fun d =>
    if d.red.role = .alone then d
    else
      match beatOf path width flags with
      | some kind =>
        let d := d.beat path kind width flags
        if path = 1 && bit flags 3 then d.phaseIs phase else d
      | none => d) s

/-- HEARTBEAT_PATH_LOSS (R438): 3,250 ns without a valid heartbeat on a path. -/
def execHeartbeatPathLoss (path : Nat) (s : State) : Host.Outcome State Fault Refusal :=
  act (decide (path < 2)) (fun d =>
    match (if path = 0 then d.red.lvdsAt else d.red.mirAt) with
    | some t =>
      d.timer (t + 3250) fun d =>
        let d := d.onRed fun r => if path = 0 then { r with lvdsAt := none } else { r with mirAt := none }
        let d := (d.bump (if path = 0 then A.redLvdsMiss else A.redMirMiss) 3).redCauseSet (if path = 0 then 2 else 4)
        if d.red.lvdsAt.isNone && d.red.mirAt.isNone then d.partnerFailed 1 else d
    | none => d) s

/-! ## Formation, ARB_GRANT and the watch (R435, R443, R444) -/

/-- FORMATION: ARB_GRANT high and no ACTIVE claim for 10 µs. -/
def execFormation (s : State) : Host.Outcome State Fault Refusal :=
  act true (fun d =>
    if d.red.role == .syncing && d.pins.arbGrant && !d.red.flag && d.boot.devReady then
      d.timer (max d.red.since (d.red.claimAt.getD 0) + 10000) fun d => d.becomeActive 0
    else d) s

/-- ARB_GRANT_CHANGE. -/
def execArbGrantChange (high : Bool) (s : State) : Host.Outcome State Fault Refusal :=
  act true (fun d =>
    let d := d.onPins fun p => { p with arbGrant := high }
    if high && d.red.role == .syncing && d.red.failedPeer && !d.red.flag then d.takeover 0xA else d) s

/-- WATCH_END: `energy` says whether the watch found energy above ROGUE_THR outside this device's grants. -/
def execWatchEnd (energy : Bool) (s : State) : Host.Outcome State Fault Refusal :=
  act true (fun d =>
    match d.red.watch with
    | some t =>
      d.timer t fun d =>
        let stay := if d.boot.strapRole = 1 then !energy else d.pins.arbGrant
        if stay then
          let d := d.passTo d.time.nextAt
          ((d.onRed fun r => { r with watch := none }).roleGo .active 7).driveAll
        else (d.onRed fun r => { r with watch := none }).roleGo .syncing 6
    | none => d) s

/-! ## Readiness (R455) -/

/-- Every condition of R455 that this device sees; the operands hold the partner's: ENABLE, its pair key, ALIGNED, an equal TICK_NUM. -/
def Dev.readyNow (d : Dev) (peerEnable peerKey peerAligned tickEqual : Bool) : Bool :=
  let r := d.red
  d.mir.up && d.mir.version != 0 && d.mir.peerPair == r.pairId && r.enable && peerEnable && r.pairKey.isSome && peerKey && d.mir.bulk
    && r.lvdsAt.isSome && r.mirAt.isSome && d.time.aligned && peerAligned && tickEqual
    && decide ((signed 32 (d.reg A.redPhase)).natAbs ≤ 160)
    && d.servChans.all (fun c => (d.redCh c).samples.length == 16) && d.redch.all (fun e => !e.2.diverged)

/-- STANDBY_READY_ENTRY. -/
def execStandbyReadyEntry (peerEnable peerKey peerAligned tickEqual : Bool) (s : State) : Host.Outcome State Fault Refusal :=
  act true (fun d =>
    if d.red.role == .syncing && !d.red.flag && d.readyNow peerEnable peerKey peerAligned tickEqual then d.roleGo .ready 8 else d) s

/-- DIVERGED_TIMEOUT: a channel stays DIVERGED for 1 ms. -/
def execDivergedTimeout (channel : Nat) (s : State) : Host.Outcome State Fault Refusal :=
  act (decide (channel < 512)) (fun d =>
    let r := d.redCh channel
    if d.red.role == .ready && r.diverged then d.timer (r.divergedAt + 1000000) Dev.demote else d) s

/-! ## The mirror link (R456 to R458) -/

/-- R458: the negotiated version; 0 where the two sides have none in common. -/
def mirrorVersion (low high : Nat) : Nat :=
  let v := min 0x0102 high
  if low ≤ v && 0x0100 ≤ v && high / 256 = 1 then v else 0

/-- MIRROR_LINK_UP: eight lanes locked and deskewed for 1 ms, with the partner's PAIR_ID and versions. -/
def execMirrorLinkUp (pair low high laneMap : Nat) (s : State) : Host.Outcome State Fault Refusal :=
  act (decide (low < 65536) && decide (high < 65536)) (fun d =>
    if d.red.role != .alone && d.domOn 22 && !d.mir.up then
      let d := d.onMir fun m => { m with
        up := true, deskewed := true, lock := 0xFF, version := mirrorVersion low high, peerVer := high, peerPair := pair % 2 ^ 32 }
      (d.setReg A.mirLaneMap laneMap).askBulk
    else d) s

/-- MIRROR_LINK_DOWN: a lane has lost lock or alignment; `lock` holds the lanes still locked. -/
def execMirrorLinkDown (lock : Nat) (s : State) : Host.Outcome State Fault Refusal :=
  act (decide (lock < 256)) (fun d =>
    if d.mir.up then
      (d.onMir fun m => { m with up := false, deskewed := false, lock := lock, version := 0, copying := false }).demote
    else d) s

/-! ### What the active sends (R450, R454) -/

/-- A mirrored item as the command that sets it. -/
def cmdRec (op : Nat) (body : Bytes) : Rec := .item op body

/-- A key ring's keys and roll, wrapped under the pair key; nothing without one (R453). -/
def keyRecs (pk : Option Bytes) (who : Nat) (k : Keys) : List Rec :=
  match pk with
  | none => []
  | some pk =>
    let one := fun (i : Nat) (v : Option LineKey) => match v with
      | some v => [Rec.key who i v.alg (keyWrap pk v.key)]
      | none => []
    one (if k.active = 2 then 2 else 1) (if k.active = 2 then k.k2 else k.k1)
      ++ one (if k.active = 2 then 1 else 2) (if k.active = 2 then k.k1 else k.k2)
      ++ (match k.switchAt with | some fs => if k.switched then [] else [Rec.roll who fs] | none => [])

/-- R450: the next sequence number of every upstream flow on a channel. -/
def Dev.snapshotOf (d : Dev) (c : Nat) : Rec :=
  .snapshot c ((d.pon.flows.filter fun f => (d.onu f.2.onu).channel == c && bit f.2.dir 1).map fun f => (f.1, f.2.rseq.toNat))

/-- A gate list as the commands that set it. -/
def gateRecs (sp : Nat) (g : GateList) : List Rec :=
  let id := le 1 (sp / 8) ++ le 1 (sp % 8)
  let part := fun (first : Nat) =>
    let es := (g.entries.drop first).take 128
    cmdRec 0x0907 (id ++ le 2 first ++ le 2 es.length ++ le 2 0 ++ es.flatMap fun e => le 1 e.1 ++ le 3 0 ++ le 4 e.2)
  (if g.entries.isEmpty then [] else if g.entries.length ≤ 128 then [part 0] else [part 0, part 128])
    ++ [cmdRec 0x0908 (id ++ le 2 g.entries.length ++ le 4 g.cycle ++ le 8 g.base)]

/-- Channels, trees and tenants of a bulk copy. -/
def Dev.bulkBase (d : Dev) : List Rec :=
  let ch := fun (e : Nat × Chan) =>
    [cmdRec 0x0201 (le 2 e.1 ++ le 1 e.2.mode ++ le 1 e.2.usRate ++ le 1 e.2.dsWl ++ le 1 e.2.usWl ++ le 2 0 ++ le 4 e.2.ponId),
     cmdRec 0x0603 (le 2 e.1 ++ le 1 e.2.alg ++ le 1 0 ++ le 4 e.2.maxLife)]
  let tree := fun (e : Nat × Tree) =>
    [cmdRec 0x0204 (le 2 e.1 ++ le 1 e.2.chans.length ++ le 1 0 ++ (List.range 4).flatMap (fun i => le 2 (nth 0xFFFF e.2.chans i)) ++ le 4 e.2.ident),
     cmdRec 0x0307 (le 2 e.1 ++ le 2 e.2.rate),
     cmdRec 0x0505 (le 2 e.1 ++ le 1 (d.regFld (A.dbaCfg (nth 0 e.2.chans 0)) 17 1) ++ le 1 0)]
  let go := fun (e : Nat × Chan) =>
    [cmdRec 0x0202 (le 2 e.1 ++ le 1 (ChState.num e.2.state) ++ le 1 0), cmdRec 0x0B04 (le 2 e.1 ++ le 1 (nb e.2.tod) ++ le 1 0)]
  let ten := fun (e : Nat × Tenant) =>
    cmdRec 0x0E03 (le 1 e.1 ++ le 1 0 ++ le 2 e.2.onus ++ le 4 e.2.flows ++ le 4 e.2.allocs ++ le 4 e.2.bufKib ++ le 4 e.2.cmdRate ++ le 2 e.2.cmdDepth ++ le 2 0)
  let bind := fun (e : Nat × Func) =>
    if e.2.tenant = 0 then []
    else [cmdRec 0x0E01 (le 1 e.2.tenant ++ le 1 e.1 ++ le 2 0), cmdRec 0x0E05 (le 1 e.2.tenant ++ le 1 (nb e.2.grant) ++ le 2 0)]
  d.pon.chans.flatMap ch ++ d.pon.trees.flatMap tree ++ d.pon.chans.flatMap go ++ d.pon.tenants.map ten ++ d.funcs.flatMap bind

/-- Registry, flows, allocations and keys of a bulk copy. -/
def Dev.bulkPon (d : Dev) : List Rec :=
  let flow := fun (e : Nat × Flow) =>
    cmdRec 0x0401 (le 4 e.1 ++ le 2 e.2.onu ++ le 2 e.2.xgem ++ le 2 e.2.alloc ++ le 1 e.2.cls ++ le 1 e.2.dir ++ le 1 e.2.encrypt ++ le 3 0)
  let hint := fun (k : Nat) (h : Option Hint) => match h with
    | some h => [cmdRec 0x0504 (le 2 (k / 16384) ++ le 2 (k % 16384) ++ le 8 h.tick ++ le 4 h.bytes ++ le 2 h.period ++ le 2 (h.left.getD 0))]
    | none => []
  let alloc := fun (e : Nat × Alloc) =>
    cmdRec 0x0501 (le 2 (e.1 / 16384) ++ le 2 (e.1 % 16384) ++ le 2 e.2.onu ++ le 1 e.2.type ++ le 1 e.2.prio ++ le 4 e.2.fixed
      ++ le 4 e.2.assured ++ le 4 e.2.max ++ le 2 e.2.weight ++ le 1 e.2.maxWait ++ le 1 0) :: (hint e.1 e.2.hint ++ hint e.1 e.2.hintNext)
  let pk := d.red.pairKey
  (d.pon.onus.map fun e => Rec.entry e.1 (Onu.fields e.2)) ++ d.pon.allocs.flatMap alloc ++ d.pon.flows.map flow
    ++ d.pon.onus.flatMap (fun e => keyRecs pk e.1 e.2.keys) ++ d.pon.chans.flatMap (fun e => keyRecs pk (0x10000 + e.1) e.2.bcast)

/-- Classification, forwarding, scheduling and time of a bulk copy. -/
def Dev.bulkData (d : Dev) : List Rec :=
  let x := d.data
  let bank := fun (n : Nat) (b : Bank) => (b.rules.map fun e => Rec.rule n 0 e.1 e.2) ++ (b.patterns.map fun e => Rec.rule n 1 e.1 e.2)
  let route := fun (r : Route) => cmdRec 0x0801 (le 2 r.vrf ++ le 1 r.af ++ le 1 r.len ++ be 16 r.pfx ++ le 4 r.nh)
  let hop := fun (e : Nat × NextHop) =>
    cmdRec 0x0805 (le 4 e.1 ++ le 1 e.2.port ++ le 1 e.2.sub ++ le 2 0 ++ be 6 e.2.dmac ++ le 2 e.2.vlan ++ le 4 0)
  let exc := fun (e : Nat × ExcBucket) => cmdRec 0x0707 (le 1 (if e.1 = 16 then 0xFF else e.1) ++ le 3 0 ++ le 4 e.2.rate ++ le 4 e.2.burst)
  let node := fun (e : Nat × Node) =>
    let n := (2 - e.1 / 2 ^ 24) * 2 ^ 30 + e.1 % 2 ^ 24
    [cmdRec 0x0901 (le 4 n ++ le 4 e.2.rate ++ le 4 e.2.burst ++ le 1 0 ++ le 3 0), cmdRec 0x0904 (le 4 n ++ le 1 e.2.prio ++ le 1 0 ++ le 2 e.2.weight)]
  let pol := fun (e : Nat × Policer) => cmdRec 0x0903 (le 4 e.1 ++ le 4 e.2.rate ++ le 4 e.2.burst)
  let own := fun (e : Nat × Owner) => (List.range 4).map fun p =>
    cmdRec 0x0905 (le 4 e.1 ++ le 1 p ++ le 3 0 ++ le 4 (nth 0 e.2.reserved p) ++ le 4 (nth 0 e.2.quota p))
  let sub := fun (e : Nat × Sub) =>
    let gate := fun (g : Option GateList) => match g with
      | some g => gateRecs e.1 g
      | none => []
    let id := le 1 (e.1 / 8) ++ le 1 (e.1 % 8)
    let ptp := d.reg (A.subPtpCfg e.1)
    gate e.2.force ++ gate e.2.sched ++ [cmdRec 0x0909 (id ++ le 1 e.2.preempt ++ le 1 0),
      cmdRec 0x0B03 (id ++ le 1 (fld ptp 0 1) ++ le 1 (if bit ptp 1 then 1 else 2))]
  let sync := fun (e : Nat × SyncE) =>
    cmdRec 0x0B05 (le 1 e.1 ++ le 1 (32 * e.1 + e.2.sub / 8) ++ le 1 (e.2.sub % 8) ++ le 1 (nb e.2.enable))
  bank 0 x.cls.bankA ++ bank 1 x.cls.bankB ++ [Rec.epoch x.cls.epoch] ++ x.trie.nh.map hop ++ x.trie.routes.map route ++ x.exc.map exc
    ++ x.nodes.flatMap node ++ x.policers.map pol ++ x.buf.owners.flatMap own ++ x.subs.flatMap sub ++ x.synce.map sync
    ++ [cmdRec 0x0B01 (le 1 d.time.selected ++ le 3 0)]

/-- R454: the active answers a request with every mirrored item and the mark of its end; mirroring runs from here on. -/
def Dev.sendBulk (d : Dev) : Dev :=
  let items := d.bulkBase ++ d.bulkPon ++ d.bulkData ++ d.servChans.map d.snapshotOf
  let d := d.onMir fun m => { m with stopped := false }
  ((items.foldl (fun d r => d.sendRec r) d).sendRec .bulkDone).onMir fun m => { m with bulk := true }

/-! ### What the standby applies (R451, R453) -/

/-- R441: what the framers of a standby build is sent by none of its lanes. -/
def Out.downstream : Out → Bool
  | .ploam .. | .bwmap .. | .syncBlock .. | .omci .. | .dsFrame .. | .rxReset .. => true
  | _ => false

/-- Apply an effect whose downstream messages stay in the shadow framers. -/
def Dev.silently (d : Dev) (f : Dev → Dev) : Dev :=
  let n := d.out.length
  let e := f d
  { e with out := (e.out.take (e.out.length - n)).filter (fun o => !Out.downstream o) ++ d.out }

/-- A mirrored command's effect on the standby's objects. KEY_ROLL's effect comes with its key records. -/
def Dev.applyCommand (d : Dev) (c? : Option Cmd) (body : Bytes) : Dev :=
  match c? with
  | some c =>
    let x := c.call 0 3 0 body
    if !c.mirrored || c.op = 0x0601 || (c.absent d x).isSome || (c.state d x).isSome || (c.special d x).isSome then d
    else d.silently fun d => ((c.atEdge.getD c.run) d x).1.onCls fun y => { y with req := none }
  | none => d

/-- A mirrored key: the index not in use takes it, or it is the ring's first. -/
def Dev.applyKey (d : Dev) (who idx alg : Nat) (wrapped : Bytes) : Dev :=
  match d.red.pairKey.bind fun pk => keyUnwrap pk wrapped with
  | some key =>
    let r := if who < 0x10000 then Ring.onu who else Ring.bcast (who - 0x10000)
    let first := (d.ring r).active == 0 || (Keys.key (d.ring r) (Keys.other (d.ring r)) |>.isNone) && (d.ring r).active == idx
    (d.onRing r fun k =>
      let k := Keys.put k idx (some { alg := alg, key := key })
      if first then { k with active := idx, fromFrame := d.frame, fromNs := d.uptimeNs } else { k with rolling := true, switched := false }).clearTagFail r idx
  | none => d

/-- A mirrored registry entry; an ABSENT one goes with everything that was its ONU's. -/
def Dev.applyEntry (d : Dev) (o : Nat) (l : List Nat) : Dev :=
  let v := nth 0 l
  let states : List OnuState := [.absent, .discovered, .ranging, .operating, .suspended, .quarantined, .migrating]
  let st := (states.find? fun s => OnuState.code s == v 0).getD .absent
  let old := d.onu o
  if st = .absent then
    let d := (d.dropFlows fun _ fl => fl.onu == o).dropWins o
    let d := d.onPon fun p => { p with allocs := p.allocs.filter fun a => a.2.onu != o, onus := Tbl.erase p.onus o }
    (d.onData fun x => { x with nodes := Tbl.erase x.nodes (nodeKey 1 o) }).deleteOwners o
  else
    let migr : Option Migr :=
      if l.length = 20 then some { old := v 16, target := v 17, started := v 18 == 1, fs := v 19 } else none
    let d := d.onOnu o fun x => { x with
      state := st, serial := v 1, tree := v 2, channel := v 3, lineId := v 4, auth := v 5 == 1, tenant := v 6, regId := be 36 (v 7)
      caps := v 8, eqd := v 9, held := v 10 == 1, ident := v 11, tuneDs := v 12, tuneUs := v 13, tuneMs := v 14, tuneSeq := v 15
      migr := migr, moveTo := none }
    if old.state = .absent then (d.defaultAlloc o).createOwners o else d

/-- R450, R454: a channel's next sequence numbers are adopted. -/
def Dev.applySnapshot (d : Dev) (seqs : List (Nat × Nat)) : Dev :=
  seqs.foldl (fun d e => d.onFlow e.1 fun x => { x with rseq := BitVec.ofNat 16 e.2 }) d

/-- Apply a record to the standby's state; `cmd` finds a command of the catalogue. -/
def Dev.applyRec (d : Dev) (cmd : Nat → Option Cmd) (r : Rec) : Dev :=
  match r with
  | .command op _ body => d.applyCommand (cmd op) body
  | .item op body => d.applyCommand (cmd op) body
  | .key who idx alg wrapped => d.applyKey who idx alg wrapped
  | .roll who fs => d.onRing (if who < 0x10000 then .onu who else .bcast (who - 0x10000)) fun k => { k with switchAt := some fs, rolling := true, switched := false }
  | .entry o l => d.applyEntry o l
  | .rule bank kind index body =>
    let put := fun (b : Bank) => if kind = 0 then { b with rules := Tbl.set b.rules index body } else { b with patterns := Tbl.set b.patterns index body }
    d.onCls fun c => if bank = 0 then { c with bankA := put c.bankA } else { c with bankB := put c.bankB }
  | .epoch n => d.onCls fun c => { c with epoch := n }
  | .snapshot _ seqs => d.applySnapshot seqs
  | _ => d

/-- R454: the copy is complete; the records that arrived meanwhile apply after it. -/
def Dev.bulkEnd (d : Dev) (cmd : Nat → Option Cmd) : Dev :=
  if d.mir.copying && d.standby then
    let later := d.mir.later
    let d := d.onMir fun m => { m with bulk := true, copying := false, later := [] }
    let d := { d with redch := Tbl.mapPut {} d.redch fun _ r => { r with diverged := false } }
    later.foldl (fun d r => d.applyRec cmd r) d
  else d

/-- R446 step 1: a SWITCH record at the standby. -/
def Dev.switchAt (d : Dev) (tick : Nat) : Dev :=
  if d.red.role = .ready then d.onRed fun r => { r with planned := some (none, tick, true, false) } else d

/-- A record in its order, accepted and acknowledged. -/
def Dev.accept (d : Dev) (cmd : Nat → Option Cmd) (r : Rec) : Dev :=
  match d.red.role, r with
  | .active, .request => d.sendBulk
  | .active, .snapRequest c => d.sendRec (d.snapshotOf c)
  | .active, _ => d
  | .alone, _ => d
  | _, .demote => d.demote
  | _, .switch t => d.switchAt t
  | _, .bulkDone => d.bulkEnd cmd
  | _, .command .. => if d.mir.copying then d.onMir fun m => { m with later := m.later ++ [r] } else d.applyRec cmd r
  | _, r => d.applyRec cmd r

/-- A record arrives (R457): one that fails its CRC is counted; one out of order is replayed by its sender. -/
def Dev.recordIn (d : Dev) (cmd : Nat → Option Cmd) (number : Nat) (crcOk : Bool) (r : Rec) : Dev :=
  if !d.mir.up || d.mir.version = 0 || !d.domOn 22 then d
  else if !crcOk then d.bump A.mirCrc
  else if number ≠ d.mir.nextRx then d.emit (.ack ((d.mir.nextRx + 2 ^ 32 - 1) % 2 ^ 32))
  else
    let d := ((d.onMir fun m => { m with nextRx := (m.nextRx + 1) % 2 ^ 32 }).bump A.mirRx).emit (.ack number)
    d.accept cmd r

/-- SWITCH_RECORD_RX. -/
def execSwitchRecordRx (number tick : Nat) (s : State) : Host.Outcome State Fault Refusal :=
  act true (fun d => d.recordIn (fun _ => none) number true (.switch tick)) s

/-! ### Acknowledgements (R452, R453, R457) -/

/-- Rings whose switch frame waits for one of the records. -/
def Dev.awaiting (d : Dev) (ns : List Nat) : List Ring :=
  let hit := fun (k : Keys) => match k.await with | some n => ns.contains n | none => false
  (d.pon.onus.filter fun e => hit e.2.keys).map (fun e => Ring.onu e.1) ++ (d.pon.chans.filter fun e => hit e.2.bcast).map (fun e => Ring.bcast e.1)

/-- The records `ns` need be waited for no longer: commands are answered, key switches chosen. -/
def Dev.settleRecs (d : Dev) (ns : List Nat) : Dev :=
  let done := d.mir.waiting.filter fun w => ns.contains w.1
  let rings := d.awaiting ns
  let d := d.onMir fun m => { m with waiting := m.waiting.filter fun w => !ns.contains w.1 }
  let d := done.foldl (fun d w => d.respond w.2.1.func w.2.1.op w.2.1.seq w.2.2.1 w.2.2.2.1 w.2.2.2.2) d
  rings.foldl (fun d r => d.chooseSwitch r) d

/-- Records of the replay store up to a number, whose low 24 bits the set carries. -/
def ackedUpTo (store : List (Nat × Rec × Nat)) (number : Nat) : Nat :=
  match findIdx (fun e => e.1 % 2 ^ 24 == number % 2 ^ 24) store with
  | some i => i + 1
  | none => 0

/-- MIRROR_ACK_RX. -/
def execMirrorAckRx (number : Nat) (s : State) : Host.Outcome State Fault Refusal :=
  act true (fun d =>
    if !d.mir.up then d
    else
      let n := ackedUpTo d.mir.store number
      let gone := d.mir.store.take n
      let isSwitch := gone.any fun e => match e.2.1 with | .switch _ => true | _ => false
      let d := d.onMir fun m => { m with store := m.store.drop n, ackAt := d.time.now }
      let d := if isSwitch then d.onRed fun r => { r with planned := r.planned.map fun p => (p.1, p.2.1, true, p.2.2.2) } else d
      d.settleRecs (gone.map Prod.fst)) s

/-- MIRROR_REPLAY_TIMEOUT: 20 µs without an acknowledgement. -/
def execMirrorReplayTimeout (s : State) : Host.Outcome State Fault Refusal :=
  act true (fun d =>
    if d.mir.up && d.mir.version != 0 && !d.mir.store.isEmpty then
      d.timer (d.mir.ackAt + 20000) fun d =>
        let d := d.mir.store.foldl (fun d e => d.emit (.record e.1 e.2.1)) d
        (d.bump A.mirReplay).onMir fun m => { m with ackAt := d.time.now }
    else d) s

/-- A record whose acknowledgement a command, a key switch or a planned switch waits for. -/
def Rec.awaited : Rec → Bool
  | .command .. | .key .. | .switch .. => true
  | _ => false

/-- MIRROR_ACK_TIMEOUT (R452): 200 µs without an acknowledgement. -/
def execMirrorAckTimeout (s : State) : Host.Outcome State Fault Refusal :=
  act true (fun d =>
    match d.mir.store.find? fun e => Rec.awaited e.2.1 with
    | some (_, _, sent) =>
      if d.red.role != .active || d.mir.stopped then d
      else
        d.timer (sent + 200000) fun d =>
          let d := (d.onMir fun m => { m with stopped := true }).settleRecs (d.mir.store.map Prod.fst)
          let d := (d.onRed fun r => { r with peer := if r.peer = 3 then 2 else r.peer }).abandon
          d.sendRec .demote
    | none => d) s

/-! ## The planned switch (R446) -/

/-- A LASER command for every channel that is not OFF. -/
def Dev.laserAll (d : Dev) (on : Bool) : Dev :=
  d.each d.onChans fun c d => (d.bclNext c 2 (nb on)).onChan c fun x => { x with laser := on }

/-- PLANNED_SWITCH_EDGE: at T0(s) − 300 ns the transmission changes sides, at T0(s) the roles. -/
def execPlannedSwitchEdge (s : State) : Host.Outcome State Fault Refusal :=
  act true (fun d =>
    match d.red.planned with
    | some (req, k, acked, false) =>
      if !acked then d
      else
        d.timer (d.t0Of k - 300) fun d =>
          let d := d.onRed fun r => { r with planned := some (req, k, true, true) }
          if d.red.role = .active then (d.laserAll false).muteAll else d.driveAll
    | some (req, k, _, true) =>
      d.timer (d.t0Of k) fun d =>
        let d := d.onRed fun r => { r with planned := none }
        if d.red.role = .active then
          let d := (d.roleGo .syncing 3).laserAll true
          let d := d.onMir fun m => { m with bulk := true, copying := false, stopped := false }
          match req with
          | some r => d.respond r.func r.op r.seq 0 0 []
          | none => d
        else d.becomeActive 3
    | none => d) s

/-! ## Upstream on a standby (R447 to R450) -/

/-- TIMING_SAMPLE_RX: a sample of the active and the matching burst give one OFFSET of R223. -/
def execTimingSampleRx (channel : Nat) (offset : Int) (s : State) : Host.Outcome State Fault Refusal :=
  act (decide (channel < 512)) (fun d =>
    if !d.standby || (d.chan channel).state != .service || !d.chanUp channel then d
    else
      let l := (offset :: (d.redCh channel).samples).take 16
      let (r, d) := d.draw
      let d := d.onRedCh channel fun x => { x with samples := l }
      if l.length = 16 then d.setReg (A.redChSkew channel) (field 32 (roundMean (l.foldl (· + ·) 0) 16 r)) else d) s

/-- The CRC-32 of a census: FLOW and sequence of each numbered frame (their byte order is PRESUMED, log entry 20). -/
def censusCrc (l : List (Nat × Nat)) : Nat := crc32 (l.flatMap fun e => le 4 e.1 ++ le 2 e.2)

/-- Numbered frames of an upstream microframe in this device's own census. -/
def Dev.censusOf (d : Dev) (c mf : Nat) : List (Nat × Nat) :=
  match (d.redCh c).cens.find? fun e => e.1 == mf with
  | some e => e.2
  | none => []

/-- CENSUS_RX. -/
def execCensusRx (channel mf count crc : Nat) (s : State) : Host.Outcome State Fault Refusal :=
  act (decide (channel < 512)) (fun d =>
    if d.red.role != .ready || !d.chanUp channel then d
    else
      let c := channel
      let own := d.censusOf c mf
      if own.length = count && censusCrc own = crc then
        let d := (d.releaseHeld c (fun m => m == mf) true).2
        (d.bump (A.redCensusOk c)).onRedCh c fun r => { r with diverged := false }
      else
        let d := (d.releaseHeld c (fun m => m == mf) false).2
        let d := d.onRedCh c fun r => { r with diverged := true, divergedAt := if r.diverged then r.divergedAt else d.time.now }
        ((d.bump (A.redDiverge c)).redCauseSet 0x20).sendRec (.snapRequest c)) s

/-- CENSUS_TIMEOUT: no census within 3 ticks of the end of the oldest held microframe. -/
def execCensusTimeout (channel : Nat) (s : State) : Host.Outcome State Fault Refusal :=
  act (decide (channel < 512)) (fun d =>
    let c := channel
    match (d.redCh c).heldF with
    | (mf, _) :: _ =>
      if d.red.role != .ready then d
      else
        d.timer (d.posClock c ((mf + 1) * mfBlocks (d.chan c).usRate) + 23438) fun d =>
          let (n, d) := d.releaseHeld c (fun m => m == mf) false
          d.bump (A.redHoldDrop c) n
    | [] => d) s

/-- The microframe is received in listen mode: no map of this device addressed it (R447). -/
def Dev.listens (d : Dev) (c mf : Nat) : Bool := d.standby || decide (mf < (d.redCh c).listenTo)

/-- LISTEN_MODE_BURST: an energy rise in listen mode, with the ONU its header names, or without a delimiter. -/
def execListenModeBurst (channel onu mf : Nat) (found : Bool) (s : State) : Host.Outcome State Fault Refusal :=
  act (decide (channel < 512) && decide (onu < 65536)) (fun d =>
    let c := channel
    if !d.rxRuns c || !d.listens c mf then d
    else if !found then d.bump (A.redListenFail c)
    else if (d.onu onu).state = .absent then d
    else
      let d := d.frameCut c
      let d := (d.bump (A.usBursts c)).perf (c / 128) 0x040 1 [(3, c), (1, onu)]
      let d := d.onRecv c fun r => { r with lockedNow := true, lossRun := 0, stopped := false, burst := some (onu, mf, 0, none) }
      d.onOnu onu fun x => { x with acc := { x.acc with bursts := x.acc.bursts + 1 } }) s

/-! ## The redundancy group (Table 6-18) -/

/-- RED_CONFIG. -/
def cmdRedConfig : Cmd where
  op := 0x0A01
  lvl := 3
  layout := [fd 4, fd 1, rs 3]
  bad _ x := badIf [(4, decide (1 < x.a 1))]
  run d x := (d.onRed fun r => { r with pairId := x.a 0, enable := x.a 1 == 1 }, .ok [])

/-- RED_GET. -/
def cmdRedGet : Cmd where
  op := 0x0A02
  lvl := 3
  run d _ :=
    let (_, e) := d.draw
    (if d.red.peer < 4 then d else e, .ok (le 1 (Role.code d.red.role) ++ le 1 d.peerCode ++ le 2 0 ++ le 2 0x0102 ++ le 2 d.mir.peerVer
      ++ le 4 (d.reg A.redSwitches)))

/-- R446 step 1: the first tick whose T0 lies at least 50 µs ahead. -/
def Dev.switchTick (d : Dev) : Nat :=
  let ks := (List.range 10).map fun i => d.time.nextTick + i
  (ks.find? fun k => decide (d.time.now + 50000 ≤ d.t0Of k)).getD d.time.nextTick

/-- RED_SWITCH (R151, R446). -/
def cmdRedSwitch : Cmd where
  op := 0x0A03
  lvl := 3
  state d _ :=
    if d.red.role ≠ .active then some (Role.code d.red.role) else if d.red.peer ≠ 3 then some d.peerCode else none
  run d x :=
    let k := d.switchTick
    ((d.onRed fun r => { r with planned := some (some (x.req d.time.now), k, false, false) }).sendRec (.switch k), .later)

/-- Everything mirrored that this device holds goes (R454). -/
def Dev.forget (d : Dev) : Dev :=
  d.silently fun d =>
    let d := d.each d.onChans fun c d => d.chanGo c .off
    let d := d.dropFlows fun _ _ => true
    let d := d.each (Tbl.keys d.pon.onus) fun o d => d.deleteOwners o
    let d := d.onPon fun p => { p with chans := [], recv := [], trees := [], onus := [], allocs := [], tenants := [] }
    let d := { d with funcs := Tbl.mapPut {} d.funcs fun _ f => { f with tenant := 0, grant := false }, redch := [] }
    d.onData fun x => { x with
      nodes := [], policers := [], exc := [], trie := { restores := x.trie.restores }
      cls := { x.cls with bankA := {}, bankB := {} }
      subs := Tbl.mapPut {} x.subs fun _ u => { u with sched := none, force := none, pend := [], preempt := 0 } }

/-- RED_RESYNC (R454). -/
def cmdRedResync : Cmd where
  op := 0x0A04
  lvl := 3
  state d _ := if d.red.role = .alone then some 0x40 else if d.red.role = .active then some 0x41 else none
  run d _ :=
    let d := d.forget
    (if d.red.role = .ready then d.demote else d.askBulk, .ok [])

/-- RED_PAIR_KEY (R453). -/
def cmdRedPairKey : Cmd where
  op := 0x0A05
  lvl := 3
  layout := [fd 2, rs 2, fd 40]
  bad _ x := badIf [(0, x.a 0 != 40)]
  special d x := if ((d.fn x.func).tk.bind fun tk => keyUnwrap tk (slice x.body 4 40)).isNone then some (0x8004, 0) else none
  run d x :=
    match (d.fn x.func).tk.bind fun tk => keyUnwrap tk (slice x.body 4 40) with
    | some key => (d.onRed fun r => { r with pairKey := some key }, .ok [])
    | none => (d, .err 0x8004 0)

/-- RED_CONFIG. -/
def execRedConfig (m : Msg) (s : State) : Host.Outcome State Fault Refusal := request cmdRedConfig m s
/-- RED_GET. -/
def execRedGet (m : Msg) (s : State) : Host.Outcome State Fault Refusal := request cmdRedGet m s
/-- RED_SWITCH. -/
def execRedSwitch (m : Msg) (s : State) : Host.Outcome State Fault Refusal := request cmdRedSwitch m s
/-- RED_RESYNC. -/
def execRedResync (m : Msg) (s : State) : Host.Outcome State Fault Refusal := request cmdRedResync m s
/-- RED_PAIR_KEY. -/
def execRedPairKey (m : Msg) (s : State) : Host.Outcome State Fault Refusal := request cmdRedPairKey m s

end Sys2Proof.Machine
end

