-- ==== Sys2Proof/Machine/Meas.lean ====
section
/-! DEFINITION. Performance counters, bandwidth monitors, the packet trace and the counter windows (R477 to R482).
Choices and readings: log entries 80 and 138. -/

namespace Sys2Proof.Machine

/-! ## Counters (R477, R478) -/

/-- R478: a snapshot trigger: every counter goes into the shadow bank, or the trigger counts as missed. -/
def Dev.perfSnap (d : Dev) : Dev :=
  if d.meas.busy then d.bumpSat A.perfSnapMissed
  else
    let d := d.onMeas fun m => { m with busy := true, perf := Tbl.mapPut {} m.perf fun _ p => { p with shadow := p.val } }
    d.setCtr A.perfSnapTick d.time.tick

/-- R478: CLEAR zeroes every counter. -/
def Dev.perfClear (d : Dev) : Dev := d.onMeas fun m => { m with perf := Tbl.mapPut {} m.perf fun _ p => { p with val := 0 } }

/-- A write of PERF_CTRL: FREEZE, PIN_MODE and the tick fields are stored; CLEAR and SNAP act. -/
def Dev.perfCtrlWrite (d : Dev) (w : Nat) : Dev :=
  let d := d.setReg A.perfCtrl (Nat.land w 0xFFFF0131)
  let d := if bit w 1 then d.perfSnap else d
  if bit w 2 then d.perfClear else d

/-- PERF_FREEZE_PIN: the level of the pin; a rising edge with PIN_MODE 2 is a snapshot trigger. -/
def execPerfFreezePin (high : Bool) (s : State) : Host.Outcome State Fault Refusal :=
  act true (fun d =>
    let rise := high && !d.pins.perfFreeze && d.regFld A.perfCtrl 4 2 == 2 && d.domOn 23
    let d := d.onPins fun p => { p with perfFreeze := high }
    if rise then d.perfSnap else d) s

/-- One die's part of a snapshot unit: 64 counters of 8 bytes. -/
def Dev.snapUnit (d : Dev) (die : Nat) : Bytes :=
  (List.range 64).flatMap fun j => le 8 (Tbl.look ({} : Perf) d.meas.perf (die * 64 + j)).snap

/-- PERF_SNAP_DONE: the bank stands in the SNAP registers. -/
def execPerfSnapDone (s : State) : Host.Outcome State Fault Refusal :=
  act true (fun d =>
    if d.meas.busy then
      let d := d.onMeas fun m => { m with busy := false, perf := Tbl.mapPut {} m.perf fun _ p => { p with snap := p.shadow, shadow := 0 } }
      let d := (d.setReg A.perfSnapSeq (d.reg A.perfSnapSeq + 1)).perfCauseSet 1
      if (List.range 32).any fun n => (d.dmaCh n).en && d.regFld (A.dmaCfg n) 8 8 == 0x13 then
        d.offerUnit 0x13 ((List.range 7).flatMap d.snapUnit)
      else d
    else d) s

/-- R478: at a T0, a snapshot is due where TICK_SNAP_EN is 1 and TICK_NUM mod TICK_SNAP_EVERY is 0. -/
def Dev.perfTick (d : Dev) : Dev :=
  if d.domOn 23 && bit (d.reg A.perfCtrl) 8 && d.time.tick % max 1 (d.regFld A.perfCtrl 16 16) = 0 then d.perfSnap else d

/-! ## Bandwidth monitors (R479) -/

/-- Window of a monitor in ns: BW_m_WIN µs, 1 to 1,000,000. -/
def Dev.bwWindow (d : Dev) (m : Nat) : Nat := 1000 * min 1000000 (max 1 (d.reg (A.bwWin m)))

/-- R479: the first window of a monitor starts at the T0 after EN is set. -/
def Dev.bwStart (d : Dev) : Dev :=
  if !d.domOn 23 then d
  else
    d.each (List.range 32) fun m d =>
      let w := Tbl.look ({} : BwMon) d.meas.bw m
      if bit (d.reg (A.bwCfg m)) 12 then
        if w.winFrom.isSome then d else d.onMeas fun x => { x with bw := Tbl.set x.bw m { winFrom := some d.time.now } }
      else if w.winFrom.isSome then d.onMeas fun x => { x with bw := Tbl.erase x.bw m } else d

/-- BW_WINDOW_END: BYTES and FRAMES take the window's totals, and the next window follows without a gap. -/
def execBwWindowEnd (monitor : Nat) (s : State) : Host.Outcome State Fault Refusal :=
  act (decide (monitor < 32)) (fun d =>
    let w := Tbl.look ({} : BwMon) d.meas.bw monitor
    match w.winFrom with
    | some t =>
      if !bit (d.reg (A.bwCfg monitor)) 12 || !d.domOn 23 then d
      else
        let ends := t + d.bwWindow monitor
        d.timer ends fun d =>
          let w := Tbl.look ({} : BwMon) d.meas.bw monitor
          let d := (d.setCtr (A.bwBytes monitor) w.curBytes).setReg (A.bwFrames monitor) w.curFrames
          let d := d.setCtr (A.bwPeak monitor) (max w.curBytes (d.ctr (A.bwPeak monitor)))
          d.onMeas fun x => { x with bw := Tbl.set x.bw monitor { winFrom := some ends } }
    | none => d) s

/-! ## Trace (R481) -/

/-- Table 19-10. -/
def Trace.record (t : Trace) (outcome : Nat) : Bytes :=
  le 8 t.at' ++ le 2 t.src ++ le 1 t.die ++ le 1 t.passes ++ le 1 ((Tbl.keys t.stamps).foldl max 0) ++ le 1 outcome ++ le 2 t.len
    ++ le 4 t.flow ++ le 2 t.dest ++ le 1 t.cls ++ le 1 0
    ++ (List.range 9).flatMap (fun i => le 4 (Tbl.look 0xFFFFFFFF t.stamps (i + 1))) ++ le 4 0

/-- No packet carries the closed slot any longer. -/
def Dev.untrace (d : Dev) (k : Nat) : Dev :=
  let clear := fun (p : Pkt) => if p.trace == some k then { p with trace := none } else p
  let part := fun (x : Nat × Pkt × Nat) => (x.1, clear x.2.1, x.2.2)
  (d.mapPkts clear).onPon fun x => { x with chans := Tbl.mapVals x.chans fun _ c => { c with part := c.part.map part } }

/-- TRACE_SLOT_CLOSE: the packet's way has ended, or 1 s has passed since stage 0. -/
def execTraceSlotClose (slot : Nat) (s : State) : Host.Outcome State Fault Refusal :=
  act (decide (slot < 16)) (fun d =>
    match Tbl.get? d.meas.slots slot with
    | some t =>
      let close := fun (d : Dev) (outcome : Nat) =>
        ((d.onMeas fun m => { m with slots := Tbl.erase m.slots slot }).untrace slot).offerUnit 0x12 (Trace.record t outcome)
      match t.ended with
      | some o => close d o
      | none => if t.at' + 1000000000 ≤ d.uptimeNs then close d 3 else d
    | none => d) s

/-! ## Counter windows (R482) -/

/-- The function's counter window acts: a VF's only with COUNTER_GRANT. -/
def Dev.cwOpen (d : Dev) (f : Nat) : Bool := d.domOn 23 && (decide (f < 2) || (d.fn f).grant)

/-- CW_CTRL.SNAP; ignored while BUSY. -/
def Dev.cwSnap (d : Dev) (f : Nat) : Dev :=
  if d.cwOpen f && !(d.fn f).cw.busy then d.onCw f fun w => { w with busy := true, captured := false } else d

/-- Table 19-12: the record of an object, as eight 8-byte values. -/
def Dev.cwRecord (d : Dev) (f node : Nat) : List Nat :=
  let i := nodeIdx node
  if nodeKind node = 0 then
    match d.flow? i with
    | some fl =>
      if d.sees f (d.flowTenant fl) then
        [node + 2 ^ 32, (d.node (nodeKey 2 i)).sent, fl.dropped, (d.pol i).passed, (d.pol i).dropped, fl.poisoned, 0, 0]
      else [node, 0, 0, 0, 0, 0, 0, 0]
    | none => [node, 0, 0, 0, 0, 0, 0, 0]
  else if nodeKind node = 1 && i < 65536 && (d.onu i).state != .absent && d.sees f (d.onu i).tenant then
    let a := (d.onu i).acc
    [node + 2 ^ 32, (d.node (nodeKey 1 i)).sent, a.bursts, a.bits, a.preFec, a.missed, a.rxPower, 0]
  else [node, 0, 0, 0, 0, 0, 0, 0]

/-- The capture at a T0: every window with a pending snapshot, or its end where the grant has gone. -/
def Dev.cwCapture (d : Dev) : Dev :=
  let fs := (d.funcs.filter fun e => e.2.cw.busy && !e.2.cw.captured).map Prod.fst
  d.each fs fun f d =>
    if d.cwOpen f then
      let w := (d.fn f).cw
      let n := min 128 (w.count % 256)
      let recs := (List.range n).map fun i => (i, d.cwRecord f (Tbl.look 0 w.list i).toNat)
      d.onCw f fun w => { w with captured := true, tick := d.time.tick, recs := recs }
    else d.onCw f fun w => { w with busy := false }

/-- Counter vector of a function (Table 4-8). -/
def cwVector (f : Nat) : Nat := if f = 0 then 42 else if f = 1 then 51 else 3

/-- CW_READY: the records are filled. -/
def execCwReady (func : Nat) (s : State) : Host.Outcome State Fault Refusal :=
  act (decide (func < 64)) (fun d =>
    let w := (d.fn func).cw
    if w.busy && w.captured then
      if d.cwOpen func then (d.onCw func fun w => { w with busy := false, captured := false, ready := true }).raise func (cwVector func)
      else d.onCw func fun w => { w with busy := false, captured := false, recs := [] }
    else d) s

end Sys2Proof.Machine
end

