-- ==== Sys2Proof/Machine/Power.lean ====
section
/-! DEFINITION. Power states: requests, changes, domains that go off and come up, wake events and the regulators (20_power_management.md).
Choices and readings: log entries 23, 61, 69, 74, 75, 76, 79, 158 and 162. -/

namespace Sys2Proof.Machine

/-! ## Targets (R483, R485, R488) -/

/-- STATE of a request. -/
def pstateOf (n : Nat) : PState := if n = 0 then .running else if n = 1 then .trimmed else .dormant

/-- Table 20-1. -/
def PState.code : PState → Nat
  | .running => 0 | .trimmed => 1 | .dormant => 2

/-- A Dike has a channel that is not OFF. -/
def Dev.dikeBusy (d : Dev) (n : Nat) : Bool := d.pon.chans.any fun e => e.1 / 128 == n && e.2.state != .off

/-- Domains that are on in the state of a request. -/
def Dev.powerTarget (d : Dev) (r : PReq) : Nat :=
  let all := d.allDomains
  match r.state with
  | .running => all
  | .trimmed => Nat.land all (0xFFFFFF - resolveOff (r.mask % 2 ^ 24))
  | .dormant => Nat.land all ((List.range 4).foldl (fun m n => withBit m (1 + n) (d.dikeBusy n)) 1)

/-- Table 20-3: BAD_FIELD offsets of STATE and OFF_MASK. -/
def powerBad (state mask : Nat) : List Nat :=
  badIf [(0, decide (2 < state)), (4, (state != 1 && mask != 0) || (state == 1 && mask == 0) || bit mask 0 || decide (2 ^ 24 ≤ mask))]

/-- Table 20-3: the state code of the first channel that keeps PD01 + n on. -/
def Dev.powerHeld (d : Dev) (state mask : Nat) : Option Nat :=
  if state ≠ 1 then none
  else
    let off := resolveOff (mask % 2 ^ 24)
    (d.pon.chans.find? fun e => e.2.state != .off && bit off (1 + e.1 / 128)).map fun e => ChState.code e.2.state

/-! ## Running a change (R489, R490, R496, R497) -/

/-- Rails move to their setpoints for domains that are to come up. -/
def Dev.raiseRails (d : Dev) (on : Nat) : Dev :=
  d.each (List.range 7) fun r d =>
    if (fedBy r).any fun p => bit on p then d.avsMove r (nth 750 d.power.fused r) else d

/-- A rail that feeds a domain of the set has not reached its setpoint. -/
def Dev.railsWait (d : Dev) (on : Nat) : Bool :=
  d.power.avs.any fun a => (fedBy a.rail).any fun p => bit on p

/-- Running crypto operations complete before PD20 goes off (R319), and records that commands wait for are settled before PD22 does. -/
def Dev.beforeOff (d : Dev) (p : Nat) : Dev :=
  if p = 20 then d.each ((d.funcs.filter fun e => e.2.page.job.isSome).map Prod.fst) fun f d => d.cryptoDone f
  else if p = 22 then (d.settleRecs (d.mir.store.map Prod.fst)).abandon
  else d

/-- Switch a domain off in its turn. -/
def Dev.orderedOff (d : Dev) (p : Nat) : Dev :=
  let d := (d.beforeOff p).domainOff p
  if p = 22 then d.demote else d

/-- R490 step 4: groups go off in the reverse order; the Basin's stacks wait for their drain, and what comes after them with them. -/
def Dev.offRun (d : Dev) (off : Nat) : Dev :=
  let d := d.each ([20, 21, 22, 23, 1, 2, 3, 4, 5, 6, 7, 8, 9, 10, 11, 12, 13, 14].filter fun p => bit off p) fun p d => d.orderedOff p
  let wait := !bit off 15 && (List.range 4).any fun s => bit off (16 + s) && (Tbl.get? d.data.buf.draining s).isSome
  if wait then d
  else d.each ([16, 17, 18, 19, 15].filter fun p => bit off p) fun p d => d.orderedOff p

/-- The next group that is to come up starts once the one before it is up (R485). -/
def Dev.onRun (d : Dev) (on : Nat) : Dev :=
  if d.railsWait on then d
  else
    match domainGroups.find? fun g => g.any fun p => bit on p && !d.domOn p with
    | some g =>
      if g.any fun p => bit d.power.rising p then d
      else
        d.each (g.filter fun p => bit on p && !d.domOn p) fun p d =>
          d.onPower fun x => { x with rising := withBit x.rising p true, riseAt := Tbl.set x.riseAt p d.time.now }
    | none => d

/-- Let the running change go as far as it can now. -/
def Dev.changeRun (d : Dev) : Dev :=
  match d.power.run with
  | some c =>
    if c.phase = 2 then d.onRun c.on
    else if !c.drained then d
    else
      let d := d.offRun c.off
      if Nat.land d.power.on c.off ≠ 0 then d
      else
        let d := d.avsSettle
        if c.on = 0 then d
        else
          let d := d.onPower fun p => { p with run := p.run.map fun c => { c with phase := 2 } }
          (d.raiseRails c.on).onRun c.on
  | none => d

/-- R490 step 1: ports of the domains that go off stop, and stacks place no more pages. -/
def Dev.stopPorts (d : Dev) (off : Nat) : Dev :=
  let d := d.each (List.range 2) fun n d =>
    if bit off (13 + n) then d.each (List.range 256) fun k d => d.subDown (256 * n + k) else d
  d.each (List.range 4) fun s d =>
    if bit off (16 + s) then
      d.onBuf fun b => { b with placing := setAt b.placing s false, draining := if bit off 15 then b.draining else Tbl.set b.draining s d.time.now }
    else d

/-- Start a change whose request is not met yet. -/
def Dev.changeStart (d : Dev) (r : PReq) (target : Nat) : Dev :=
  let on := d.power.on
  let off := Nat.land on (0xFFFFFF - target)
  let up := Nat.land target (0xFFFFFF - on)
  let now := d.time.now
  let tp := d.t0Of (16 * d.frameFrom (now + 200))
  let c : Change := { req := r, off := off, on := up, phase := if off ≠ 0 then 1 else 2, from' := now, tpAt := tp, drainAt := max now tp + 1000000 }
  let d := d.onPower fun p => { p with
    run := some c, resume := if r.state = .dormant && p.cur ≠ .dormant then (p.cur, p.offMask) else p.resume }
  let d := if bit off 15 && d.red.role = .active then d.raiseFlag false 4 else d
  if off ≠ 0 then d.stopPorts off else (d.raiseRails up).onRun up

/-- The state that the domains define (R496). -/
def Dev.stateNow (d : Dev) (r : PReq) : PState :=
  if d.power.on = d.powerTarget r then r.state else if d.power.on = d.allDomains then .running else .trimmed

/-- R490 step 6: a change completes. -/
def Dev.changeEnd (d : Dev) (r : PReq) (from' : Nat) : Dev :=
  let st := d.stateNow r
  let off := Nat.land d.allDomains (0xFFFFFF - d.power.on)
  let d := d.onPower fun p => { p with run := none, cur := st, offMask := if st = .trimmed then off else 0 }
  let d := ((d.powerCauseSet 1).evPowerDone (PState.code st) r.wake).bump A.powerChanges
  d.setReg A.powerLastUs ((d.time.now - from') / 1000)

/-- Start a request, or complete it in the clock it starts (R489). -/
def Dev.requestStart (d : Dev) (r : PReq) : Dev :=
  let t := d.powerTarget r
  if d.power.cur = r.state && d.power.on = t then d.changeEnd r d.time.now
  else if d.power.on = t then d.changeEnd r d.time.now
  else d.changeStart r t

/-! ## Wake (R492 to R494) -/

/-- A wake that acts: LAST_WAKE, POWER_WAKE_INFO, the WAKE cause, and the change that the state calls for. -/
def Dev.wakeAct (d : Dev) (source ch doms : Nat) : Dev :=
  let dom := ((List.range 24).find? fun p => bit doms p).getD 0
  let d := d.onPower fun p => { p with lastWake := source }
  let d := d.setReg A.powerWakeInfo (source + (if source = 6 then 16 * ch else 0) + 65536 * dom)
  let d := d.powerCauseSet 2
  let want := (List.range 24).foldl (fun m p => if bit doms p then Nat.lor m (needs p) else m) 0
  match d.power.cur with
  | .dormant =>
    let mask := Nat.land d.power.resume.2 (0xFFFFFF - want)
    d.requestStart { state := if mask = 0 then .running else .trimmed, mask := mask, src := 0, wake := source }
  | .trimmed =>
    if doms = 0 then d
    else
      let mask := Nat.land (resolveOff d.power.offMask) (0xFFFFFF - want)
      d.requestStart { state := if mask = 0 then .running else .trimmed, mask := mask, src := 0, wake := source }
  | .running => d

/-- A wake event of an enabled source; latched while a change runs (R494). -/
def Dev.wake (d : Dev) (source ch : Nat) (dom : Option Nat) : Dev :=
  if !d.inService then d
  else if d.power.run.isSome then
    d.onPower fun p => { p with
      latch := w32 (Nat.lor p.latch.toNat (2 ^ source + (match dom with | some x => 2 ^ (8 + x) | none => 0)))
      latchCh := if source = 6 then ch else p.latchCh }
  else d.wakeAct source ch (match dom with | some x => 2 ^ x | none => 0)

/-- R494: the latched events are replayed once, together. -/
def Dev.replay (d : Dev) : Dev :=
  let l := d.power.latch.toNat
  if l = 0 then d
  else
    let d := d.onPower fun p => { p with latch := 0 }
    d.wakeAct (((List.range 7).find? fun i => bit l i).getD 0) d.power.latchCh (l / 256)

/-- R489, R494: after a completion the latched wakes are replayed, then the queued request starts. -/
def Dev.afterChange : Nat → Dev → Dev
  | 0, d => d
  | k + 1, d =>
    if d.power.run.isSome then d
    else if d.power.latch ≠ 0 then Dev.afterChange k d.replay
    else
      match d.power.queued with
      | some r => Dev.afterChange k ((d.onPower fun p => { p with queued := none }).requestStart r)
      | none => d

/-- R489: a request arrives: the DISPOSITION, and what it does. -/
def Dev.powerRequest (d : Dev) (r : PReq) : Nat × Dev :=
  if d.power.run.isNone && !d.boot.halted then (0, Dev.afterChange 4 (d.requestStart r))
  else if d.power.queued.isNone then (1, d.onPower fun p => { p with queued := some r })
  else (2, (d.onPower fun p => { p with queued := some r }).powerCauseSet 0x10)

/-- A source's event as Table 20-5 defines it, given the level of a WAKE pin. -/
def Dev.wakeHolds (d : Dev) (source ch : Nat) (high : Bool) : Bool :=
  let cfg := d.reg A.powerWakeCfg
  bit cfg source && (
    if source < 4 then bit cfg (8 + source) == high
    else if source = 4 then d.power.cur == .dormant
    else if source = 5 then d.power.cur == .dormant && d.red.wake
    else d.power.cur == .dormant && decide (2 ≤ (d.chan ch).tpHits))

/-- WAKE_EVENT: sources 0 to 3 a WAKE pin that has reached a level for 1 µs, 4 the PCIe link leaving L1, 5 a heartbeat over the
Towpath lane, 6 Towpath light on a channel. -/
def execWakeEvent (source channel : Nat) (high : Bool) (s : State) : Host.Outcome State Fault Refusal :=
  act (decide (source < 7) && decide (channel < 512)) (fun d =>
    if d.wakeHolds source channel high then
      let d := d.onRed fun r => if source = 5 then { r with wake := false } else r
      let d := if source = 6 then d.onChan channel fun c => { c with tpHits := 0 } else d
      Dev.afterChange 4 (d.wake source channel none)
    else d) s

/-! ## The steps of a change -/

/-- Frames queued for ports that the running change switches off are discarded at the end of the drain (R490 step 3). -/
def Dev.discardOff (d : Dev) (off : Nat) : Dev :=
  let hit := fun (q : QId) => bit off 15 || (match q with
    | .flow f => d.goingOff (.flow f)
    | .up sp _ => bit off (13 + sp / 256)
    | .exc _ => false)
  (d.allQueues.filter hit).foldl (fun d q =>
    let (n, d) := d.purgeQ q fun _ => true
    d.bump A.powerDiscard n) d

/-- POWER_DRAIN_END: 1 ms after steps 1 and 2; also taken when a stack's wait has ended. -/
def execPowerDrainEnd (s : State) : Host.Outcome State Fault Refusal :=
  act true (fun d =>
    match d.power.run with
    | some c =>
      if c.phase ≠ 1 then d
      else if c.drained then d.changeRun
      else
        d.timer c.drainAt fun d =>
          let d := d.discardOff c.off
          let d := if bit c.off 15 then d.onBuf fun b => { b with draining := [] } else d
          (d.onPower fun p => { p with run := p.run.map fun c => { c with drained := true } }).changeRun
    | none => d) s

/-- R336: a datapath die comes up; both banks restart empty where no datapath domain was on. -/
def Dev.bankUp (d : Dev) (p : Nat) : Dev :=
  if 9 ≤ p && p ≤ 14 && !([9, 10, 11, 12, 13, 14].any fun q => q != p && d.domOn q) then
    (d.onCls fun c => { c with bankA := {}, bankB := {} }).log 0x0502 6 []
  else d

/-- A domain's bring-up is complete (R484, R486). -/
def Dev.domainUp (d : Dev) (p : Nat) : Dev :=
  let d := d.dropRegs p
  let d := d.bankUp p
  let d := d.onPower fun x => { x with
    on := withBit x.on p true, rising := withBit x.rising p false, upAt := Tbl.set x.upAt p d.time.now
    riseAt := Tbl.erase x.riseAt p, owed := if 1 ≤ p && p ≤ 12 then withBit x.owed p true else x.owed }
  let d := if p = 13 || p = 14 then d.loadPorts (p - 13) else d
  let d := if 1 ≤ p && p ≤ 4 then
      d.each (List.range 8) fun k d => d.onEng (8 * (p - 1) + k) fun x => { x with startEdge := some d.time.edges, lastEdge := d.time.edges }
    else d
  let d := if p = 15 then
      let d := d.linksTrain
      d.flagCauseEnd 4
    else d
  d.changeRun

/-- DOMAIN_UP. -/
def execDomainUp (domain : Nat) (s : State) : Host.Outcome State Fault Refusal :=
  act (decide (domain < 24)) (fun d =>
    if bit d.power.rising domain then
      d.timer (Tbl.look 0 d.power.riseAt domain + bringUp domain) fun d => d.domainUp domain
    else d) s

/-- DOMAIN_RESTORE (R486): the Pavilion has written back the objects of a domain that came up. -/
def execDomainRestore (domain : Nat) (s : State) : Host.Outcome State Fault Refusal :=
  act (decide (domain < 24)) (fun d =>
    if bit d.power.owed domain && d.fwServes then d.onPower fun p => { p with owed := withBit p.owed domain false } else d) s

/-- POWER_CHANGE_DONE: every step of the running change is over. -/
def execPowerChangeDone (s : State) : Host.Outcome State Fault Refusal :=
  act true (fun d =>
    match d.power.run with
    | some c =>
      let isOff := c.phase == 2 || (c.drained && Nat.land d.power.on c.off == 0)
      let isOn := Nat.land d.power.on c.on == c.on && (c.on == 0 || c.phase == 2)
      if isOff && isOn && d.power.avs.isEmpty && d.power.owed == 0 && d.fwServes then Dev.afterChange 4 (d.changeEnd c.req c.from')
      else d
    | none => d) s

/-! ## Regulators (R495 to R497) -/

/-- The move that a bus has under way. -/
def Dev.avsHead (d : Dev) (b : Nat) : Option Avs := d.power.avs.find? fun a => avsBus a.rail == b && a.step != 0

/-- R496: a write and its repeat have failed: the rail stays, and a raise leaves its domains off. -/
def Dev.avsFail (d : Dev) (a : Avs) : Dev :=
  let d := (d.setBit A.powerAvsStatus a.rail true).powerCauseSet 8
  let d := d.log 0x0701 7 (le 1 a.rail)
  let d := d.onPower fun p => { p with avs := p.avs.filter fun x => x != a }
  let lost := resolveOff ((fedBy a.rail).foldl (fun m p => withBit m p true) 0)
  let cut := fun (c : Change) => { c with on := Nat.land c.on (0xFFFFFF - lost) }
  let d := if a.target > nth 750 d.power.set a.rail then d.onPower fun p => { p with run := p.run.map cut } else d
  (d.avsIssue).changeRun

/-- A write that is not acknowledged well is repeated once. -/
def Dev.avsBad (d : Dev) (a : Avs) : Dev :=
  if a.again then d.avsFail a
  else
    let d := d.emit (.avs a.rail a.step)
    d.onPower fun p => { p with avs := p.avs.map fun x => if x == a then { a with again := true, at' := d.time.now } else x }

/-- A write whose output has reached its target. -/
def Dev.avsGood (d : Dev) (a : Avs) : Dev :=
  let ended := a.step == a.target
  let d := d.onPower fun p => { p with
    set := setAt p.set a.rail a.step
    avs := if ended then p.avs.filter (fun x => x != a) else p.avs.map fun x => if x == a then { a with step := 0, again := false } else x }
  let d := if ended then d.setBit A.powerAvsStatus a.rail false else d
  (d.avsIssue).changeRun

/-- AVS_ACK: the regulator's answer on a bus. -/
def execAvsAck (bus : Nat) (ok : Bool) (s : State) : Host.Outcome State Fault Refusal :=
  act (decide (bus < 2)) (fun d =>
    match d.avsHead bus with
    | some a => if ok then d.avsGood a else d.avsBad a
    | none => d) s

/-- AVS_TIMEOUT: 1 ms without an acknowledgement. -/
def execAvsTimeout (bus : Nat) (s : State) : Host.Outcome State Fault Refusal :=
  act (decide (bus < 2)) (fun d =>
    match d.avsHead bus with
    | some a => d.timer (a.at' + 1000000) fun d => d.avsBad a
    | none => d) s

/-- RAIL_TRIM (R497): a trim within ±25 mV of the fused value while domains on the rail are on, at most one step per 100 ms. -/
def execRailTrim (rail mv : Nat) (s : State) : Host.Outcome State Fault Refusal :=
  act (decide (rail < 7)) (fun d =>
    let cur := nth 750 d.power.set rail
    let fused := nth 750 d.power.fused rail
    let near := fun (a b : Nat) => decide (a ≤ b + 25) && decide (b ≤ a + 25)
    let live := (fedBy rail).any fun p => d.domOn p
    let free := match Tbl.get? d.power.trimAt rail with
      | some t => decide (t + 100000000 ≤ d.uptimeNs)
      | none => true
    let idle := !(d.power.avs.any fun a => a.rail == rail)
    if d.boot.devReady && live && near mv fused && near mv cur && decide (650 ≤ mv) && decide (mv ≤ 850) && free && idle then
      (d.onPower fun p => { p with trimAt := Tbl.set p.trimAt rail d.uptimeNs }).avsMove rail mv
    else d) s

/-! ## Registers and commands -/

/-- A write of POWER_REQ: STATE is stored; GO submits a request (R488). -/
def Dev.powerReqWrite (d : Dev) (w : Nat) : Dev :=
  let d := d.setReg A.powerReq (w % 4)
  if !bit w 31 || !d.inService then d
  else
    let mask := d.reg A.powerReqMask
    let st := w % 4
    if !(powerBad st mask).isEmpty || (d.powerHeld st mask).isSome then d.powerCauseSet 4
    else (d.powerRequest { state := pstateOf st, mask := mask, src := 0 }).2

/-- POWER_SET_STATE. -/
def cmdPowerSetState : Cmd where
  op := 0x0101
  lvl := 3
  layout := [fd 1, rs 3, fd 4]
  bad _ x := powerBad (x.a 0) (x.a 1)
  state d x := d.powerHeld (x.a 0) (x.a 1)
  run d x :=
    let (n, d) := d.powerRequest { state := pstateOf (x.a 0), mask := x.a 1, src := 1 }
    (d, .ok (le 1 n ++ le 3 0))

/-- POWER_GET_STATE; 0xFF stands for none (DEDUCED from Table 6-23's WAKE, log entry 23). -/
def cmdPowerGetState : Cmd where
  op := 0x0102
  lvl := 3
  run d _ :=
    let p := d.power
    let code := fun (r : Option PReq) => match r with
      | some r => PState.code r.state
      | none => 0xFF
    (d, .ok (le 1 (PState.code p.cur) ++ le 1 (code (p.run.map Change.req)) ++ le 1 (code p.queued)
      ++ le 1 (if p.lastWake = 0xF then 0xFF else p.lastWake) ++ le 4 p.on))

/-- POWER_SET_WAKE. -/
def cmdPowerSetWake : Cmd where
  op := 0x0103
  lvl := 3
  layout := [fd 1, fd 1, rs 2]
  bad _ x := badIf [(0, decide (0x80 ≤ x.a 0)), (1, decide (0x10 ≤ x.a 1))]
  run d x := (d.setReg A.powerWakeCfg (x.a 0 + 256 * x.a 1), .ok [])

/-- POWER_GET_RAILS: the last samples of the 18 rails. -/
def cmdPowerGetRails : Cmd where
  op := 0x0104
  lvl := 3
  caller := .x
  run d _ := (d, .ok ((List.range 18).flatMap fun i => let r := Tbl.look (0, 0) d.pav.rails i; le 2 r.1 ++ le 2 r.2))

/-- POWER_SET_STATE. -/
def execPowerSetState (m : Msg) (s : State) : Host.Outcome State Fault Refusal := request cmdPowerSetState m s
/-- POWER_GET_STATE. -/
def execPowerGetState (m : Msg) (s : State) : Host.Outcome State Fault Refusal := request cmdPowerGetState m s
/-- POWER_SET_WAKE. -/
def execPowerSetWake (m : Msg) (s : State) : Host.Outcome State Fault Refusal := request cmdPowerSetWake m s
/-- POWER_GET_RAILS. -/
def execPowerGetRails (m : Msg) (s : State) : Host.Outcome State Fault Refusal := request cmdPowerGetRails m s

end Sys2Proof.Machine
end

