-- ==== Sys2Proof/Machine/Links.lean ====
section
/-! DEFINITION. The die links (R21 to R23) and the loss and return of reference clocks (R35, R36).
Choices and readings: log entries 17, 49, 81 and 82. -/

namespace Sys2Proof.Machine

/-! ## Die links -/

/-- A retrain starts. -/
def Dev.retrainStart (d : Dev) (n : Nat) : Dev :=
  (d.bump (A.dlink n 0x20)).onDlink n fun x => { x with retraining := true, fails := 0 }

/-- DIE_LINK_FLIT_CRC_FAIL (R21): a flit fails its CRC at the Polder or at the datapath die; `same` says that it is the flit that
failed before, and `replayed` counts the flits that are sent again, it and every later one. -/
def execDieLinkFlitCrcFail (link : Nat) (atPolder same : Bool) (replayed : Nat) (s : State) : Host.Outcome State Fault Refusal :=
  act (decide (link < 6) && decide (1 ≤ replayed)) (fun d =>
    if !d.domOn 15 || !d.linkCarries link then d
    else
      let d := (d.bump (A.dlink link (if atPolder then 0x08 else 0x10))).bump (A.dlink link 0x18) replayed
      let d := d.perf 6 0x061 replayed [(5, link)]
      let d := d.onDlink link fun x => { x with replayed := true, fails := if same then x.fails + 1 else 1 }
      if 4 ≤ (d.dlink link).fails then d.retrainStart link else d) s

/-- DIE_LINK_RETRAIN_DONE (R21, R22): a retrain ends; one that failed is followed by the next until three have failed in a row. -/
def execDieLinkRetrainDone (link : Nat) (ok : Bool) (s : State) : Host.Outcome State Fault Refusal :=
  act (decide (link < 6)) (fun d =>
    let l := d.dlink link
    if !d.domOn 15 || !l.retraining || 3 ≤ l.badTrains then d
    else if ok then (d.onDlink link fun x => { x with retraining := false, badTrains := 0 }).drainLink link
    else
      let d := d.onDlink link fun x => { x with badTrains := x.badTrains + 1 }
      if l.badTrains + 1 < 3 then d.retrainStart link else d) s

/-- DIE_LINK_FAILED (R22): three retrains in a row have failed; the packets in the link's queue are lost. -/
def execDieLinkFailed (link : Nat) (s : State) : Host.Outcome State Fault Refusal :=
  act (decide (link < 6)) (fun d =>
    if !d.domOn 15 || (d.dlink link).fatal || decide ((d.dlink link).badTrains < 3) then d
    else
      let d := d.onDlink link fun x => { x with up := false, retraining := false, fatal := true }
      let gone := d.data.buf.recvQ.filter fun p => p.die == link
      let d := d.onBuf fun b => { b with recvQ := b.recvQ.filter fun p => p.die != link }
      let d := gone.foldl (fun d p => d.lost link p) d
      (d.log 0x0102 link (le 1 link)).raiseFlag true 0) s

/-- SPARE_LANE_REPLACE (R23): a spare lane takes the place of a failed one. -/
def execSpareLaneReplace (link : Nat) (s : State) : Host.Outcome State Fault Refusal :=
  act (decide (link < 6)) (fun d =>
    if d.domOn 15 && (d.dlink link).up && decide (0 < (d.dlink link).spareLeft) && decide ((d.dlink link).spareUsed < 8) then
      d.onDlink link fun x => { x with spareUsed := x.spareUsed + 1, spareLeft := x.spareLeft - 1 }
    else d) s

/-- R23: the probe flit of a tick; its latency is a free value, at most 80 units of 0.5 ns where nothing was replayed. -/
def Dev.linkProbe (d : Dev) (n : Nat) : Dev :=
  if !d.domOn 15 || !d.linkCarries n then d
  else
    let (r, d) := d.draw
    let v := if (d.dlink n).replayed then r % 65536 else r % 81
    d.onDlink n fun x => { x with latLast := v, latMax := max x.latMax v, replayed := false }

/-! ## Reference clocks -/

/-- A receiver stops inside a burst: the frame in reception ends badly, and the burst with it (R35). -/
def Dev.rxStop (d : Dev) (c : Nat) : Dev := (d.frameCut c).onRecv c fun r => { r with burst := none, stopped := false }

/-- What ends where the device goes out of service for good: every domain but PD00, power changes, DEV_READY (R35, R539). -/
def Dev.outOfService (d : Dev) : Dev :=
  let d := d.allOff
  let d := d.onPower fun p => { p with run := none, queued := none, avs := [], latch := 0 }
  d.onBoot fun b => { b with devReady := false, halted := true }

/-- Table 2-5, the last column, for a clock in the order of Table 2-6. -/
def Dev.clockLost (d : Dev) (k : Nat) : Dev :=
  if k < 4 then
    let d := d.onPon fun p => { p with linesOff := withBit p.linesOff k true }
    d.each ((Tbl.keys d.pon.recv).filter fun c => c / 128 == k) fun c d => d.rxStop c
  else if k < 6 then d.each (List.range 256) fun i d => d.subDown (256 * (k - 4) + i)
  else if k = 6 then (if d.pcie.linkUp then d.linkReset true else d)
  else if k = 7 then (d.outOfService).raiseFlag true 0
  else if k = 9 then
    if d.mir.up then
      (d.onMir fun m => { m with up := false, deskewed := false, lock := 0, version := 0, copying := false }).demote
    else d
  else d

/-- REFCLK_LOSS: a clock passes from good to lost. -/
def execRefclkLoss (clock : Nat) (s : State) : Host.Outcome State Fault Refusal :=
  act (decide (clock < 10)) (fun d =>
    if d.boot.pd00 && bit (d.reg A.refclk) clock then
      let d := (d.setBit A.refclk clock false).setBit A.refclk (16 + clock) true
      (d.log (if clock = 7 then 0x0201 else 0x0202) 7 (le 1 clock)).clockLost clock
    else d) s

/-- REFCLK_RETURN: a clock is good again. A Dike's lines restart at the next tick edge, and ports train again. -/
def execRefclkReturn (clock : Nat) (s : State) : Host.Outcome State Fault Refusal :=
  act (decide (clock < 10)) (fun d =>
    if d.boot.pd00 && !bit (d.reg A.refclk) clock then
      let d := d.setBit A.refclk clock true
      if clock = 7 || clock = 8 then d.onTime fun t => { t with diffFrom := t.now } else d
    else d) s

end Sys2Proof.Machine
end

