-- ==== Sys2Proof/Machine/Pavilion.lean ====
section
/-! DEFINITION. The Pavilion: its restarts and failure, the event log, the sensors and the thermal limits, firmware update, reflectometry
and pin faults (05_mailbox_protocol.md, 21_management_and_faults.md, 22_electrical_timing.md).
Choices and readings: log entries 28, 40, 83, 87, 90, 92, 93, 94, 95, 96, 98, 123 and 163. -/

namespace Sys2Proof.Machine

/-- The clock at which UPTIME_NS reaches a value. -/
def Dev.upClock (d : Dev) (uptime : Nat) : Nat := d.time.now + (uptime - d.time.uptime)

/-! ## Restarts (R125, R126, R501 to R503) -/

/-- R126: the requests that an unplanned restart cuts. A command that waits for its tick edge keeps its effect or loses it: a free value. -/
def Dev.cutRequests (d : Dev) : Dev :=
  let cut := (Tbl.keys d.funcs).filter fun f => (d.kiosk f).executing.isSome
  let d := d.each cut fun f d => d.onKiosk f fun k => { k with interrupted := true }
  d.each cut fun f d =>
    let (r, d) := d.draw
    if r % 2 = 0 then d
    else
      let d := d.onPon fun p => { p with commits := p.commits.filter fun q => q.func != f }
      if d.pon.commits.any fun q => q.op == 0x0705 then d
      else d.onCls fun c => if c.pending then { c with pending := false, done := true } else c

/-- A restart starts: READY 0, RESTARTING 1 and FW_RESTART on every Kiosk (Table 5-12), and its log entry. An order for a planned
restart is met by it, but not that of an update whose directory is written. -/
def Dev.restartBegin (d : Dev) (unplanned : Bool) : Dev :=
  let d := if unplanned then d.cutRequests else d
  let d := d.onPav fun p => { p with
    restarting := true, unplanned := unplanned, ordered := unplanned && d.upd.written, restartAt := d.time.uptime, begun := p.begun + 1
    recent := if unplanned then (d.time.uptime :: p.recent).take 3 else p.recent }
  let d := d.each (List.range 64) fun f d => (d.onKiosk f fun k => { k with ready := false, restarting := true }).kioskCause f 8
  d.log (if unplanned then 0x0802 else 0x0801) 6 []

/-- The Pavilion's firmware has started in this device's service and the Pavilion has not failed. -/
def Dev.pavRuns (d : Dev) : Bool := d.inService && !d.pav.failed

/-- LOCKSTEP_MISMATCH (R501). -/
def execLockstepMismatch (s : State) : Host.Outcome State Fault Refusal :=
  act true (fun d =>
    if d.pavRuns then
      let d := (d.onPav fun p => { p with lockstep := false }).pavCauseSet 2
      ((d.log 0x0803 6 []).raiseFlag false 1).restartBegin true
    else d) s

/-- WATCHDOG_EXPIRY (R501). -/
def execWatchdogExpiry (s : State) : Host.Outcome State Fault Refusal :=
  act true (fun d => if d.pavRuns && !d.pav.restarting then d.restartBegin true else d) s

/-- R112: a Kiosk returns to the un-negotiated state. -/
def Dev.unNegotiate (d : Dev) (f : Nat) : Dev := d.onKiosk f fun k => { k with level := 0, mask := 0 }

/-- PAVILION_SRAM_UNCORRECTABLE (R501): 0 outside the Kiosk state and the object copies, 1 in the state of the Kiosks listed, 2 in the
object copies. -/
def execPavilionSramUncorrectable (kind : Nat) (kiosks : List Nat) (s : State) : Host.Outcome State Fault Refusal :=
  act (decide (kind < 3) && kiosks.all (fun f => decide (f < 64))) (fun d =>
    if !d.pavRuns then d
    else if kind = 0 then (if d.pav.restarting then d else d.restartBegin true)
    else if kind = 1 then d.each kiosks fun f d => d.unNegotiate f
    else d) s

/-- PLANNED_RESTART (Table 5-12): the requests in execution have been answered. -/
def execPlannedRestart (s : State) : Host.Outcome State Fault Refusal :=
  act true (fun d =>
    if d.pavRuns && d.pav.ordered && !d.pav.restarting && d.funcs.all (fun e => e.2.kiosk.executing.isNone) then d.restartBegin false
    else d) s

/-! ### Update states -/

/-- Table 6-5: codes 0x50 to 0x54. -/
def UpdState.code : UpdState → Nat
  | .idle => 0x50 | .receiving => 0x51 | .verifying => 0x52 | .verified => 0x53 | .activating => 0x54

/-- R511: a state change, with its event and log entry. -/
def Dev.updGo (d : Dev) (state : UpdState) (result : Nat) : Dev :=
  let d := d.onUpd fun u => { u with state := state, result := result }
  (d.evUpdateState (UpdState.code state) result).log 0x0804 6 (le 1 (UpdState.code state) ++ le 1 result)

/-- R514 step 2: the directory names a slot, in the copy with the lower generation or an invalid copy. -/
def Dev.writeDirectory (d : Dev) (slot : Nat) : Dev :=
  let c0 := d.boot.dir0
  let c1 := d.boot.dir1
  let gen := fun (c : Bytes) => if dirValid c then leAt c 4 4 else 0
  let body := le 4 0x52494444 ++ le 4 (max (gen c0) (gen c1) + 1) ++ le 4 slot
  let copy := body ++ le 4 (crc32 body)
  let first := !dirValid c0 || (dirValid c1 && decide (gen c0 < gen c1))
  let d := d.emit (.flashWrite (if first then "DIRECTORY 0" else "DIRECTORY 1") copy)
  d.onBoot fun b => if first then { b with dir0 := copy } else { b with dir1 := copy }

/-- What the end of a restart means for an update (R514, R515). -/
def Dev.updRestarted (d : Dev) (result fwIfVer imageVer : Nat) : Dev :=
  if d.upd.written && !d.pav.unplanned then
    let d := d.onUpd fun u => { u with written := false }
    if result = 1 then
      let d := d.onBoot fun b => { b with slot := d.upd.slot }
      ({ d with image := { d.image with fwIfVer := fwIfVer, imageVer := imageVer } }).updGo .idle 1
    else (d.writeDirectory d.boot.slot).updGo .idle result
  else
    match d.upd.state with
    | .receiving | .verifying | .verified => d.updGo .idle 0
    | .idle | .activating => d

/-- R126: the request that an unplanned restart cut is answered INTERRUPTED. -/
def Dev.answerCut (d : Dev) (f : Nat) : Dev :=
  let k := d.kiosk f
  match k.executing with
  | some r =>
    if k.interrupted then (d.onKiosk f fun k => { k with interrupted := false }).respond f r.op r.seq 0x000D 0 [] else d
  | none => d

/-- R503: the restart is still within its bounds. -/
def Dev.restartLate (d : Dev) : Bool := decide (d.pav.restartAt + 2000000000 < d.time.uptime)

/-- R503: three unplanned restarts have begun within 60 s. -/
def Dev.restartThree (d : Dev) : Bool :=
  match d.pav.recent with
  | [a, _, c] => d.pav.unplanned && decide (a ≤ c + 60000000000)
  | _ => false

/-- The firmware is back (Table 5-12, R126). -/
def Dev.restartEnd (d : Dev) (result fwIfVer imageVer : Nat) : Dev :=
  let major := d.image.fwIfVer / 65536
  let d := d.onPav fun p => { p with restarting := false, lockstep := true, restarts := p.restarts + 1 }
  let d := (d.flagCauseEnd 1).updRestarted result fwIfVer imageVer
  let d := if d.image.fwIfVer / 65536 = major then d else d.each (List.range 64) fun f d => d.unNegotiate f
  let d := d.each (List.range 64) fun f d => (d.onKiosk f fun k => { k with ready := true, restarting := false }).kioskCause f 4
  let d := d.each (Tbl.keys d.funcs) fun f d => d.answerCut f
  let owed := d.pav.owed
  let d := owed.foldl (fun d e => d.eccEvent e.1 e.2.1 e.2.2.1 e.2.2.2) (d.onPav fun p => { p with owed := [] })
  d.each (List.range 4) fun n d => (d.rogueEnd n 4 none).onDie n fun x => { x with rogueWait := [] }

/-- RESTART_COMPLETE (R502): `result` is the slot result code of a restart into an update's target, and the versions are those of the
firmware that then runs. -/
def execRestartComplete (result fwIfVer imageVer : Nat) (s : State) : Host.Outcome State Fault Refusal :=
  act (decide (1 ≤ result) && decide (result < 8)) (fun d =>
    if d.pavRuns && d.pav.restarting && !d.restartLate && !d.restartThree then d.restartEnd result (fwIfVer % 2 ^ 32) (imageVer % 2 ^ 32)
    else d) s

/-- PAVILION_FAILED (R503). -/
def execPavilionFailed (s : State) : Host.Outcome State Fault Refusal :=
  act true (fun d =>
    let fail := fun (d : Dev) =>
      ((d.onPav fun p => { p with failed := true }).onBoot fun b => { b with devReady := false }).raiseFlag true 0
    if !d.pavRuns || !d.pav.restarting then d
    else if d.restartThree then fail d
    else d.timer (d.upClock (d.pav.restartAt + 2000000000)) fail) s

/-! ## Event log (R506 to R509) -/

/-- Entries held, oldest first: the flash log area's that the ring no longer holds, then the ring's. -/
def Dev.logHeld (d : Dev) : List LogEntry :=
  let ring := d.pav.log
  (d.pav.flash.filter fun e => !(ring.any fun x => x.index == e.index)).reverse ++ ring.reverse

/-- PAV_LOG_OLDEST. -/
def Dev.logOldest (d : Dev) : Nat :=
  match d.logHeld with
  | e :: _ => e.index
  | [] => d.pav.logNext

/-- R507: signed difference of two indices. -/
def logDiff (a b : Nat) : Int := signed 32 (field 32 ((a : Int) - b))

/-- LOG_READ. -/
def cmdLogRead : Cmd where
  op := 0x0D01
  caller := .x
  layout := [fd 4, fd 2, rs 2]
  special d x :=
    let old := d.logOldest
    if logDiff (x.a 0) d.pav.logNext < 0 && logDiff (x.a 0) old < 0 then some (0x8007, old) else none
  run d x :=
    if 0 ≤ logDiff (x.a 0) d.pav.logNext then (d, .ok (le 2 0 ++ le 2 0 ++ le 4 d.pav.logNext))
    else
      let l := (d.logHeld.filter fun e => decide (0 ≤ logDiff e.index (x.a 0))).take (min 31 (x.a 1))
      let next := match l.getLast? with
        | some e => e.index + 1
        | none => x.a 0
      (d, .ok (le 2 l.length ++ le 2 0 ++ le 4 next ++ l.flatMap LogEntry.bytes))

/-- LOG_READ. -/
def execLogRead (m : Msg) (s : State) : Host.Outcome State Fault Refusal := request cmdLogRead m s

/-- The flash log area holds entries of 1,024 to the sector; the oldest sector is erased when the ring is full (R508). -/
def flashAdd (l : List LogEntry) (e : LogEntry) : List LogEntry :=
  let full := 1024 * max 3838 Config.logSectors
  if l.length < full then e :: l else e :: l.take (full - 1024)

/-- LOG_FLASH_FLUSH (R508): the pending entries are written; a failed write is retried 1 s later. -/
def execLogFlashFlush (ok : Bool) (s : State) : Host.Outcome State Fault Refusal :=
  act true (fun d =>
    if d.pav.toFlash.isEmpty || !d.fwServes || decide (d.time.uptime < d.pav.flashAfter) then d
    else if ok then
      let l := (d.pav.log.filter fun e => d.pav.toFlash.any fun x => x.1 == e.index).reverse
      let d := l.foldl (fun d e => d.emit (.flashWrite "LOG" (LogEntry.bytes e))) d
      d.onPav fun p => { p with flash := l.foldl flashAdd p.flash, toFlash := [] }
    else
      let d := d.onPav fun p => { p with flashAfter := d.time.uptime + 1000000000 }
      ((d.bump A.pavFlashErr).pavCauseSet 0x10).log 0x0805 6 []) s

/-! ## Sensors (R504, R505) and thermal limits (R537 to R539) -/

/-- The sensor is a Basin stack's (Table 21-2). -/
def isStack (k : Nat) : Bool := decide (108 ≤ k)

/-- A reading of a sensor by DIE × 16 + SENSOR, where it is valid. -/
def Dev.temp? (d : Dev) (k : Nat) : Option Int :=
  let v := Tbl.look 0x8000 d.pav.temps k
  if v = 0x8000 then none else some (signed 16 v)

/-- PAV_SENSOR_MAX: the hottest sensor and its value. -/
def Dev.hottest (d : Dev) : Option (Nat × Int) :=
  (List.range 112).foldl (fun best k =>
    match d.temp? k, best with
    | some v, some (_, w) => if v > w then some (k, v) else best
    | some v, none => some (k, v)
    | none, _ => best) none

/-- The alarm threshold of a register, signed 0.1 °C. -/
def Dev.tempThr (d : Dev) (a : Nat) : Int := signed 16 (d.reg a)

/-- The sensor is in alarm at a level. -/
def Dev.inAlarm (d : Dev) (die sensor level : Nat) : Bool := d.pav.alarms.contains (die, sensor, level)

/-- Entry into alarm: the event and the log entry. -/
def Dev.alarmOn (d : Dev) (die sensor level value code : Nat) : Dev :=
  let d := d.onPav fun p => { p with alarms := (die, sensor, level) :: p.alarms }
  (d.evSensorAlarm die sensor value).log code (if die = 0xFF then 7 else die) (le 1 die ++ le 1 sensor)

/-- An alarm clears. -/
def Dev.alarmOff (d : Dev) (die sensor level : Nat) : Dev :=
  d.onPav fun p => { p with alarms := p.alarms.filter fun a => a != (die, sensor, level) }

/-- One alarm of a temperature sensor: entered at or above the threshold, cleared 2.0 °C below it. -/
def Dev.tempAlarm (d : Dev) (k level : Nat) (v thr : Int) (code : Nat) : Dev :=
  let die := k / 16
  let sensor := k % 16
  if d.inAlarm die sensor level then (if v ≤ thr - 20 then d.alarmOff die sensor level else d)
  else if thr ≤ v then d.alarmOn die sensor level (field 16 v) code
  else d

/-- The alarms of a temperature sensor, and the one log entry of a sensor that gives no valid reading. -/
def Dev.tempCheck (d : Dev) (k : Nat) : Dev :=
  match d.temp? k with
  | none =>
    if d.pav.invalid.contains (k / 16, k % 16) then d
    else (d.onPav fun p => { p with invalid := (k / 16, k % 16) :: p.invalid }).log 0x0702 (k / 16) (le 1 (k / 16) ++ le 1 (k % 16))
  | some v =>
    if isStack k then d.tempAlarm k 1 v (d.tempThr A.pavHbmWarn) 0x0702
    else (d.tempAlarm k 1 v (d.tempThr A.pavTempWarn) 0x0702).tempAlarm k 2 v (d.tempThr A.pavTempCrit) 0x0703

/-- The alarm of rail `n`: entered after 1 ms outside its operating range, cleared after 1 ms inside. -/
def Dev.railCheck' (d : Dev) (n : Nat) : Dev :=
  let mv := (Tbl.look (0, 0) d.pav.rails n).1
  let alarm := d.inAlarm 0xFF n 1
  let change := railInRange d.power.set n mv == alarm
  let since := (d.pav.railOut.find? fun e => e.1 == n).map Prod.snd
  let forget := fun (d : Dev) => d.onPav fun p => { p with railOut := p.railOut.filter fun e => e.1 != n }
  if !change then forget d
  else
    match since with
    | none => d.onPav fun p => { p with railOut := (n, d.time.uptime) :: p.railOut }
    | some t =>
      if d.time.uptime < t + 1000000 then d
      else if alarm then (forget d).alarmOff 0xFF n 1
      else (forget d).alarmOn 0xFF n 1 mv 0x0702

/-- Junction readings of a die. -/
def Dev.junctions (d : Dev) (die : Nat) : List Int :=
  ((List.range 16).filter fun i => !isStack (16 * die + i)).filterMap fun i => d.temp? (16 * die + i)

/-- R537: the sample of a die: at 105.0 °C it is throttled from the next T0; time at 102.0 °C or less counts towards the exit. -/
def Dev.throttleCheck (d : Dev) (die : Nat) : Dev :=
  let l := d.junctions die
  if l.any fun v => decide (1050 ≤ v) then
    d.onPav fun p => { p with throttleNext := withBit p.throttleNext die true, cool := Tbl.erase p.cool die }
  else if l.all fun v => decide (v ≤ 1020) then
    d.onPav fun p => { p with cool := if (Tbl.get? p.cool die).isSome then p.cool else Tbl.set p.cool die d.time.uptime }
  else d.onPav fun p => { p with cool := Tbl.erase p.cool die }

/-- R538: the sample of a stack. -/
def Dev.hotCheck (d : Dev) (stack : Nat) : Dev :=
  match d.temp? (108 + stack) with
  | none => d
  | some v =>
    if 950 ≤ v then
      let enter := !bit d.pav.hbmHot stack
      let d := d.onPav fun p => { p with hbmHot := withBit p.hbmHot stack true, hbmCool := Tbl.erase p.hbmCool stack }
      let d := d.onBuf fun b => { b with placing := setAt b.placing stack false }
      if enter then d.thermCauseSet 2 else d
    else if v ≤ 900 then
      d.onPav fun p => { p with hbmCool := if (Tbl.get? p.hbmCool stack).isSome then p.hbmCool else Tbl.set p.hbmCool stack d.time.uptime }
    else d.onPav fun p => { p with hbmCool := Tbl.erase p.hbmCool stack }

/-- R539: the sensors at or above the trip limit. -/
def Dev.tripHot (d : Dev) : List Nat :=
  (List.range 112).filter fun k =>
    match d.temp? k with
    | some v => decide ((if isStack k then 1050 else 1180) ≤ v)
    | none => false

/-- R539: a trip. -/
def Dev.trip (d : Dev) (k : Nat) : Dev :=
  let d := (d.raiseFlag true 0).outOfService
  (d.onPav fun p => { p with tripped := true }).log 0x0703 (k / 16) (le 1 (k / 16) ++ le 1 (k % 16))

/-- A sample: the readings, the alarms while the firmware runs, the thermal limits. -/
def Dev.sample (d : Dev) (temps : List Nat) (rails : List (Nat × Nat)) : Dev :=
  let d := d.onPav fun p => { p with
    sampleAt := d.time.now
    temps := (List.range 112).foldl (fun t k => Tbl.put 0x8000 t k (nth 0x8000 temps k % 65536)) p.temps
    rails := (List.range 18).foldl (fun t n => Tbl.put (0, 0) t n (nth (0, 0) rails n)) p.rails }
  let d := if d.fwServes then (d.each (List.range 112) fun k d => d.tempCheck k).each (List.range 18) fun n d => d.railCheck' n else d
  let d := (d.each (List.range 7) fun die d => d.throttleCheck die).each (List.range 4) fun i d => d.hotCheck i
  let hot := d.tripHot
  let again := hot.find? fun k => d.pav.tripNear.contains (k / 16, k % 16)
  let d := d.onPav fun p => { p with tripNear := hot.map fun k => (k / 16, k % 16) }
  match again with
  | some k => if d.pav.tripped then d else d.trip k
  | none => d

/-- SENSOR_SAMPLE (R504): the 112 temperatures by DIE × 16 + SENSOR, 0x8000 for no valid reading, and the 18 rails (mV, 10 mA). -/
def execSensorSample (temps : List Nat) (rails : List (Nat × Nat)) (s : State) : Host.Outcome State Fault Refusal :=
  act true (fun d => if d.boot.pd00 then d.timer (d.pav.sampleAt + 1000000) fun d => d.sample temps rails else d) s

/-- THROTTLE_EXIT (R537): in force at the next T0. -/
def execThrottleExit (die : Nat) (s : State) : Host.Outcome State Fault Refusal :=
  act (decide (die < 7)) (fun d =>
    match Tbl.get? d.pav.cool die with
    | some t =>
      if bit d.pav.throttleNext die then
        d.timer (d.upClock (t + 1000000000)) fun d => d.onPav fun p => { p with throttleNext := withBit p.throttleNext die false }
      else d
    | none => d) s

/-- HBM_HOT_EXIT (R538). -/
def execHbmHotExit (stack : Nat) (s : State) : Host.Outcome State Fault Refusal :=
  act (decide (stack < 4)) (fun d =>
    match Tbl.get? d.pav.hbmCool stack with
    | some t =>
      if bit d.pav.hbmHot stack then
        d.timer (d.upClock (t + 1000000000)) fun d =>
          let d := d.onPav fun p => { p with hbmHot := withBit p.hbmHot stack false }
          if d.domOn (16 + stack) && (Tbl.get? d.data.buf.draining stack).isNone then
            d.onBuf fun b => { b with placing := setAt b.placing stack true }
          else d
      else d
    | none => d) s

/-- SENSOR_READ. -/
def cmdSensorRead : Cmd where
  op := 0x0C06
  lvl := 2
  caller := .x
  layout := [fd 1, rs 3]
  bad _ x := badIf [(0, decide (7 ≤ x.a 0))]
  run d x := (d, .ok ((List.range 16).flatMap fun i => le 2 (Tbl.look 0x8000 d.pav.temps (16 * x.a 0 + i))))

/-- SENSOR_READ. -/
def execSensorRead (m : Msg) (s : State) : Host.Outcome State Fault Refusal := request cmdSensorRead m s

/-! ## Firmware update (R511 to R515) -/

/-- R511: WRONG_STATE unless the update is IDLE. -/
def notIdle (d : Dev) (_ : Call) : Option Nat := if d.upd.state = .idle then none else some (UpdState.code d.upd.state)

/-- R511: hitless update requires STRAP_FLASH 0b00 or 0b01. -/
def noHitless (d : Dev) (_ : Call) : Option Nat := if d.boot.strapFlash < 2 then none else some 0

/-- UPD_BEGIN. -/
def cmdUpdBegin : Cmd where
  op := 0x0D02
  layout := [fd 4, rs 4]
  bad _ x := badIf [(0, x.a 0 % 4 != 0 || decide (x.a 0 < 8192) || decide (0x8000000 < x.a 0))]
  unavail := noHitless
  state := notIdle
  run d x :=
    let slot := 1 - d.boot.slot
    let d := d.onUpd fun u => { u with slot := slot, len := x.a 0, received := 0, activate := false, written := false }
    (d.updGo .receiving 0, .ok (le 1 slot ++ le 3 0))

/-- UPD_WRITE; whether the buffer of 1 MiB can take the data in time is a free value once it can be full (R512). -/
def cmdUpdWrite : Cmd where
  op := 0x0D03
  layout := [fd 4, fd 2, rs 2]
  tail := (4, 2024, 4)
  bad d x :=
    badIf [(4, x.a 1 != x.body.length - 8 || (d.upd.state == .receiving && decide (d.upd.len < x.a 0 + x.a 1)))]
  state d _ := if d.upd.state = .receiving then none else some (UpdState.code d.upd.state)
  special d x := if x.a 0 = d.upd.received then none else some (0x800B, d.upd.received)
  run d x :=
    let (r, d) := if 0x100000 < d.upd.received + x.a 1 then d.draw else (0, d)
    if r % 2 = 1 then (d, .err 0x000C 0)
    else
      let d := d.emit (.flashWrite (if d.upd.slot = 0 then "SLOT A" else "SLOT B") (x.body.drop 8))
      (d.onUpd fun u => { u with received := u.received + x.a 1 }, .ok [])

/-- UPD_COMMIT. -/
def cmdUpdCommit : Cmd where
  op := 0x0D04
  layout := [fd 1, rs 3]
  bad _ x := badIf [(0, decide (2 ≤ x.a 0))]
  state d _ :=
    let u := d.upd
    if u.state = .verified || (u.state = .receiving && u.received = u.len) then none else some (UpdState.code u.state)
  run d x :=
    if d.upd.state = .receiving then ((d.onUpd fun u => { u with activate := x.a 0 == 1 }).updGo .verifying d.upd.result, .ok [])
    else if x.a 0 = 1 then (d.updGo .activating d.upd.result, .ok [])
    else (d, .ok [])

/-- UPD_STATUS. -/
def cmdUpdStatus : Cmd where
  op := 0x0D05
  run d _ := (d, .ok (le 1 (UpdState.code d.upd.state) ++ le 1 d.upd.result ++ le 2 0 ++ le 4 d.upd.received))

/-- UPD_ROLLBACK. -/
def cmdUpdRollback : Cmd where
  op := 0x0D06
  unavail := noHitless
  state := notIdle
  run d _ := ((d.onUpd fun u => { u with slot := 1 - d.boot.slot, written := false }).updGo .activating d.upd.result, .ok [])

/-- UPD_BEGIN. -/
def execUpdBegin (m : Msg) (s : State) : Host.Outcome State Fault Refusal := request cmdUpdBegin m s
/-- UPD_WRITE. -/
def execUpdWrite (m : Msg) (s : State) : Host.Outcome State Fault Refusal := request cmdUpdWrite m s
/-- UPD_COMMIT. -/
def execUpdCommit (m : Msg) (s : State) : Host.Outcome State Fault Refusal := request cmdUpdCommit m s
/-- UPD_STATUS. -/
def execUpdStatus (m : Msg) (s : State) : Host.Outcome State Fault Refusal := request cmdUpdStatus m s
/-- UPD_ROLLBACK. -/
def execUpdRollback (m : Msg) (s : State) : Host.Outcome State Fault Refusal := request cmdUpdRollback m s

/-- UPDATE_VERIFY_DONE (R513): 1 for a pass, else the code of the failing check (Table 3-6) or 6 for a flash failure. -/
def execUpdateVerifyDone (result : Nat) (s : State) : Host.Outcome State Fault Refusal :=
  act (decide (1 ≤ result) && decide (result < 7)) (fun d =>
    if d.upd.state = .verifying && d.fwServes then
      if result = 1 then d.updGo (if d.upd.activate then .activating else .verified) d.upd.result else d.updGo .idle result
    else d) s

/-- UPDATE_ACTIVATE (R514 steps 1 to 3): once no power change runs, the directory names the target and the restart is ordered. -/
def execUpdateActivate (s : State) : Host.Outcome State Fault Refusal :=
  act true (fun d =>
    if d.upd.state = .activating && !d.upd.written && d.power.run.isNone && d.fwServes then
      ((d.writeDirectory d.upd.slot).onUpd fun u => { u with written := true }).onPav fun p => { p with ordered := true }
    else d) s

/-! ## Reflectometry (R516 to R520) -/

/-- Windows of a pass (R518). -/
def otdrWindows (span : Nat) : Nat := ceilDiv (9795 * span) 6172800

/-- Ticks of a run (R518). -/
def otdrTicks (span avg : Nat) : Nat := otdrWindows span * ceilDiv avg (otdrWindows span)

/-- OTDR_START (R516). -/
def cmdOtdrStart : Cmd where
  op := 0x0C03
  lvl := 2
  since := 1
  layout := [fd 2, fd 2, fd 2, rs 2]
  bad _ x := badIf [(0, decide (512 ≤ x.a 0)), (2, x.a 1 == 0 || decide (60000 < x.a 1)), (4, x.a 2 == 0)]
  absent := treeAbsent
  unavail := treeDown
  state d x :=
    let c := (d.treeChans (x.a 0)).headD 0
    if (d.chan c).state = .off then some 0x10
    else if d.standby then some (Role.code d.red.role)
    else if d.otdrBusy (x.a 0) then some 0x60
    else none
  full d x := if d.otdrFull ((d.treeChans (x.a 0)).headD 0 / 128) then some 0x0E else none
  run d x := (d.otdrOrder (x.a 0) ((d.treeChans (x.a 0)).headD 0) (x.a 1) (x.a 2), .ok [])

/-- OTDR_STATUS. -/
def cmdOtdrStatus : Cmd where
  op := 0x0C04
  lvl := 2
  since := 1
  layout := [fd 2, rs 2]
  bad _ x := badIf [(0, decide (512 ≤ x.a 0))]
  absent := treeAbsent
  unavail := treeDown
  run d x :=
    let o := d.otdrOf (x.a 0)
    (d, .ok (le 1 (nb (d.otdrBusy (x.a 0))) ++ le 3 0 ++ le 2 (sat 0xFFFF o.done) ++ le 2 o.count))

/-- OTDR_READ: events of the last run from START on. -/
def cmdOtdrRead : Cmd where
  op := 0x0C05
  lvl := 2
  since := 1
  layout := [fd 2, fd 2]
  bad _ x := badIf [(0, decide (512 ≤ x.a 0))]
  absent := treeAbsent
  unavail := treeDown
  run d x :=
    let l := ((d.otdrOf (x.a 0)).events.drop (x.a 1)).take 253
    (d, .ok (le 2 l.length ++ le 2 0 ++ l.flatMap fun e => le 4 e.1 ++ le 2 e.2.1 ++ le 2 e.2.2))

/-- OTDR_START. -/
def execOtdrStart (m : Msg) (s : State) : Host.Outcome State Fault Refusal := request cmdOtdrStart m s
/-- OTDR_STATUS. -/
def execOtdrStatus (m : Msg) (s : State) : Host.Outcome State Fault Refusal := request cmdOtdrStatus m s
/-- OTDR_READ. -/
def execOtdrRead (m : Msg) (s : State) : Host.Outcome State Fault Refusal := request cmdOtdrRead m s

/-- R519: a condition that abandons the tree's run holds. -/
def Dev.otdrBroken (d : Dev) (t : Nat) : Bool :=
  let o := d.otdrOf t
  (d.chan o.channel).state == .off || (d.tree? t).isNone || !d.domOn (1 + o.channel / 128) || d.red.role != o.role
    || d.pav.begun != o.restarts

/-- BCL PILOT and REFL_SAMPLE execute 96 ns after T0 (Table 21-6). -/
def Dev.otdrBcl (d : Dev) (c op arg : Nat) : Dev := if d.bclRuns (c / 16) then d.bclAt c op 960 arg d.time.tick else d

/-- The work of a tick for the reflectometry of a tree: the ordered run starts, a running one takes its sample, and one whose passes are
over ends its pilot (R516 to R518). -/
def Dev.otdrEdge (d : Dev) (t : Nat) : Dev :=
  let o := d.otdrOf t
  if d.otdrBroken t then d
  else
    match o.ordered, o.run with
    | some (span, avg), _ =>
      let d := d.onOtdr t fun o => { o with ordered := none, run := some (d.time.edges, span, otdrTicks span avg), done := 0 }
      (d.otdrBcl o.channel 5 (d.regFld A.pavOtdrPilot 0 6)).otdrBcl o.channel 6 15
    | none, some (first, _, total) =>
      let n := d.time.edges - first
      if total < n then d
      else
        let d := d.onOtdr t fun o => { o with done := n }
        if n = total then d.otdrBcl o.channel 5 0 else d.otdrBcl o.channel 6 15
    | none, none => d

/-- Distance of two numbers. -/
def apartBy (a b : Int) : Nat := (a - b).natAbs

/-- R520: the event of the previous run that matches: the nearest within 10 m (log entry 28). -/
def matched (prev : List (Nat × Nat × Nat)) (e : Nat × Nat × Nat) : Option (Nat × Nat × Nat) :=
  (prev.filter fun p => decide (apartBy p.1 e.1 ≤ 100)).foldl (fun best p =>
    match best with
    | some b => if apartBy p.1 e.1 < apartBy b.1 e.1 then some p else best
    | none => some p) none

/-- R520: a run differs from the previous one. -/
def otdrDiffers (prev now : List (Nat × Nat × Nat)) : Bool :=
  let ends := prev.filter fun e => e.2.1 == 0xFFFF
  now.any fun e =>
    (e.2.1 == 0xFFFF && ends.all fun p => decide (100 < apartBy p.1 e.1)) ||
    (match matched prev e with
      | some p => decide (100 ≤ apartBy p.2.1 e.2.1) || decide (10 ≤ apartBy (signed 16 p.2.2) (signed 16 e.2.2))
      | none => false)

/-- OTDR_RUN_DONE (R519, R520): the events found, nearest first after sorting, and their number. -/
def execOtdrRunDone (tree : Nat) (events : List (Nat × Nat × Nat)) (s : State) : Host.Outcome State Fault Refusal :=
  act (decide (tree < 512) && events.all (fun e => decide (e.1 < 2 ^ 32) && decide (e.2.1 < 65536) && decide (e.2.2 < 65536))) (fun d =>
    let o := d.otdrOf tree
    match o.run with
    | some (_, _, total) =>
      if o.done < total || d.otdrBroken tree || !d.fwServes then d
      else
        let l := (events.mergeSort fun a b => decide (a.1 ≤ b.1)).take 64
        let n := sat 0xFFFE events.length
        let d := d.onOtdr tree fun o => { o with run := none, count := n, events := l, valid := true }
        let d := d.evOtdrDone tree n
        if o.prior && otdrDiffers o.prev l then
          (d.evLineFault o.channel 0xFFFF 5).log 0x0404 (o.channel / 128) (le 2 tree)
        else d
    | none => d) s

/-- OTDR_RUN_ABANDON (R519). -/
def execOtdrRunAbandon (tree : Nat) (s : State) : Host.Outcome State Fault Refusal :=
  act (decide (tree < 512)) (fun d =>
    let o := d.otdrOf tree
    if d.otdrBusy tree && d.otdrBroken tree && d.fwServes then
      let d := if o.run.isSome && o.done < (match o.run with | some r => r.2.2 | none => 0) then d.otdrBcl o.channel 5 0 else d
      let d := if (d.tree? tree).isNone then { d with otdr := Tbl.erase d.otdr tree }
        else d.onOtdr tree fun o => { prior := o.prior, prev := o.prev }
      d.evOtdrDone tree 0xFFFF
    else d) s

/-! ## Pin faults (R521) -/

/-- Pins of a group of Table 21-7: 0 PON_DS by channel, 1 BCL_TX by engine, 2 PON_US by channel, 3 BCL_RX by engine, 4 engine I2C by engine,
5 GPIO, 6 HB_OUT and HB_IN. -/
def pinCount (group : Nat) : Nat := nth 0 [512, 32, 512, 32, 32, 16, 2] group

/-- Power domain of a pin. -/
def pinDomain (group idx : Nat) : Nat :=
  if group = 0 then 1 + idx / 128 else if group = 1 || group = 3 then 1 + idx / 8 else if group = 2 then 5 + idx / 128 else 0

/-- SOURCE of a pin's log entry: its Dike, else the package. -/
def pinSource (group idx : Nat) : Nat :=
  if group = 0 || group = 2 then idx / 128 else if group = 1 || group = 3 then idx / 8 else 7

/-- A pin's entry among the pins in fault. -/
def Dev.pinFault? (d : Dev) (group idx : Nat) : Option Nat :=
  (d.pav.pinFaults.find? fun e => e.1 == group && e.2.1 == idx).map fun e => e.2.2

/-- Set or remove a pin's entry. -/
def Dev.setPin (d : Dev) (group idx : Nat) (clean : Option Nat) : Dev :=
  d.onPav fun p =>
    let rest := p.pinFaults.filter fun e => !(e.1 == group && e.2.1 == idx)
    { p with pinFaults := match clean with
        | some n => (group, idx, n) :: rest
        | none => rest }

/-- PIN_FAULT_CHECK (R521): one check of a pin. -/
def execPinFaultCheck (group idx : Nat) (fault : Bool) (s : State) : Host.Outcome State Fault Refusal :=
  act (decide (idx < pinCount group)) (fun d =>
    let driver := decide (group < 2)
    if group = 3 || !d.inService || !d.domOn (pinDomain group idx) || (group = 5 && !bit (d.reg A.pavGpioOe) idx && fault) then d
    else if fault then
      let d := if driver && (d.pinFault? group idx).isNone then d.emit (.driver group idx false) else d
      let d := d.setPin group idx (some 0)
      let d := if group = 5 then d.setBit A.pavGpioFault idx true else d
      d.limited [0x0405, group, idx] 1000000000 fun d => (d.pavCauseSet 4).log 0x0405 (pinSource group idx) (le 1 group ++ le 2 idx)
    else
      match d.pinFault? group idx with
      | some n =>
        if driver && n = 0 then d.setPin group idx (some 1)
        else
          let d := d.setPin group idx none
          if driver then d.emit (.driver group idx true) else d
      | none => d) s

end Sys2Proof.Machine
end

