-- ==== Sys2Proof/Machine/Cmds.lean ====
section
/-! DEFINITION. The command catalogue as the firmware holds it: every command by its opcode (Table 6-1, R127). -/

namespace Sys2Proof.Machine

/-- The commands of the catalogue, in order of opcode. -/
def catalogue : List Cmd :=
  [ cmdHello, cmdSysGetInfo, cmdSysSubscribe, cmdSysEcho, cmdSysRestart, cmdPowerSetState,
    cmdPowerGetState, cmdPowerSetWake, cmdPowerGetRails, cmdChanConfig, cmdChanSetState, cmdChanGet,
    cmdTreeCreate, cmdTreeDelete, cmdTreeGet, cmdEngineGet, cmdEngineI2c, cmdOnuList,
    cmdOnuAuthorise, cmdOnuSuspend, cmdOnuDeregister, cmdOnuGet, cmdOnuMigrate, cmdOnuDiscLimit,
    cmdOmciSend, cmdOmciRecv, cmdFlowCreate, cmdFlowDelete, cmdFlowGet, cmdAllocSet,
    cmdAllocDelete, cmdAllocGet, cmdDbaHint, cmdDbaPolicy, cmdKeyRoll, cmdKeyGet ] ++
  [ cmdKeyPolicy, cmdKeyExchange, cmdPageKeyUnwrap, cmdRuleWrite, cmdPatternWrite, cmdRuleRead,
    cmdRuleCopy, cmdRuleSwap, cmdRuleStatus, cmdExcClassSet, cmdExcClassGet, cmdRouteAdd,
    cmdRouteDelete, cmdRouteBatch, cmdRouteGet, cmdNhSet, cmdEmRead, cmdEmRestore,
    cmdAgeSet, cmdShaperSet, cmdShaperGet, cmdPolicerSet, cmdSchedSet, cmdBufQuotaSet,
    cmdBufQuotaGet, cmdGateWrite, cmdGateCommit, cmdPreemptSet, cmdRedConfig, cmdRedGet,
    cmdRedSwitch, cmdRedResync, cmdRedPairKey, cmdTimeSelect, cmdTimeGet, cmdPtpPortSet ] ++
  [ cmdTodSet, cmdSynceSet, cmdMeasOnu, cmdMeasChan, cmdOtdrStart, cmdOtdrStatus,
    cmdOtdrRead, cmdSensorRead, cmdLogRead, cmdUpdBegin, cmdUpdWrite, cmdUpdCommit,
    cmdUpdStatus, cmdUpdRollback, cmdTenantBind, cmdTenantUnbind, cmdTenantSetQuota, cmdTenantGet,
    cmdCounterGrant ]

/-- The command of an opcode, if the catalogue has one. -/
def cmdOf (op : Nat) : Option Cmd := catalogue.find? fun c => c.op == op

end Sys2Proof.Machine
end

