-- ==== Sys2Proof/Machine/Mailbox.lean ====
section
/-! DEFINITION. The firmware takes requests from the Kiosks in its round (R104 to R107, R117), and the records of the mirror link that
carry commands of the catalogue (R451, R454, R457).
Choices and readings: log entries 13, 18 and 88. -/

namespace Sys2Proof.Machine

/-- R107: a faulty header is answered MALFORMED, and the Kiosk stops with RING_FAULT. -/
def Dev.takeFaulty (d : Dev) (f : Nat) : Dev :=
  let k := d.kiosk f
  let h := Kiosk.header k
  let op := leAt h 2 2
  let seq := w32 (leAt h 4 4)
  let pos := k.reqHead.toNat
  let d := (d.onKiosk f fun k => { k with reqHead := k.reqHead + 1 }).kioskCause f 2
  let d := (d.publish f (Kiosk.rspVersion k op) 1 op seq 0x000E pos []).emit (.response f op seq 0x000E pos [])
  (d.onKiosk f fun k => { k with ringFault := true, errInfo := w32 (pos + 0x10000) }).kioskCause f 0x10

/-- The firmware takes the first request of a Kiosk, `dt` ns before it answers. -/
def Dev.take (d : Dev) (f dt : Nat) : Dev :=
  let k := d.kiosk f
  let h := Kiosk.header k
  if faulty h then d.takeFaulty f
  else
    let op := leAt h 2 2
    (d.takeToken f).serve (cmdOf op) f op (leAt h 0 1) (w32 (leAt h 4 4)) (ringRead k.reqMem (k.reqHead.toNat + 1) (leAt h 8 2)) dt

/-- KIOSK_TAKE_REQUEST. -/
def execKioskTakeRequest (dt : Nat) (s : State) : Host.Outcome State Fault Refusal :=
  act true (fun d =>
    match d.nextKiosk with
    | some (f, r) => { d with round := r }.take f dt
    | none => d) s

/-- MIRROR_RECORD_RX: a record of the mirror link, with its number and whether its set passed its CRC. -/
def execMirrorRecordRx (number : Nat) (crcOk : Bool) (record : Rec) (s : State) : Host.Outcome State Fault Refusal :=
  act true (fun d => d.recordIn cmdOf number crcOk record) s

/-- BULK_COPY_DONE: the standby's copy is complete. -/
def execBulkCopyDone (s : State) : Host.Outcome State Fault Refusal := act true (fun d => d.bulkEnd cmdOf) s

end Sys2Proof.Machine
end

