-- ==== Sys2Proof/Machine/Tick.lean ====
section
/-! DEFINITION. The tick edge: everything that commits at a T0, in the order of Table 7-1 (R157 to R177), with the frame-boundary work
of the PON side (R181, R195, R205, R206, R263, R266).
Choices and readings: log entries 13, 15, 17, 30, 79, 85, 89, 99, 117, 118, 119, 133, 134, 135, 136, 145 and 165. -/

namespace Sys2Proof.Machine

/-! ## Tick number and alignment (R157 to R163) -/

/-- TICK_NUM advances, and the next T0 is placed. The tick that an alignment step has lengthened ends here. -/
def Dev.tickOn (d : Dev) : Dev :=
  let step := d.time.stepping
  let d := d.onTime fun t =>
    { t with tick := t.nextTick, edges := t.edges + 1, edgeAt := t.now, nextTick := t.nextTick + 1
             nextAt := t.now + tickClock (t.nextTick + 1) - tickClock t.nextTick, stepping := false, aligned := t.aligned || t.stepping }
  if step then d.setReg A.tickSteps (d.reg A.tickSteps + 1) else d

/-- R161: a step that is due waits for the channels. -/
def Dev.alignWait (d : Dev) : Dev :=
  let wait := d.alignDue && !d.allChanOff
  d.onTime fun t => { t with alignPending := wait }

/-- R163: the phase error in 2^-32 ns, at the first T0 of a frame. -/
def Dev.phaseErr (d : Dev) : Int := ((d.ptp d.time.selected).count : Int) - ((d.time.tick * 15625 * 2 ^ 31 : Nat) : Int)

/-- R163: measure the phase error and raise its alarm. -/
def Dev.phaseMeasure (d : Dev) : Dev :=
  if d.time.tick % 16 ≠ 0 || !d.todValid || !d.time.aligned then d
  else
    let e := d.phaseErr
    let d := d.setReg A.tickPhaseErr (field 32 (satInt 32 (e / 2 ^ 29)))
    if d.reg A.tickAlarmNs * 2 ^ 32 < e.natAbs then
      (d.setBit A.tickStatus 5 true).limited [0x0203] 1000000000 fun d => d.log 0x0203 6 (le 4 (d.reg A.tickPhaseErr))
    else d

/-! ## Register writes (R167) -/

/-- One delayed write takes effect; a write of BUF_OWNER_CFG carries its owner's tag, plus 1, above bit 32 of its address. -/
def Dev.takeEffect (d : Dev) (a v : Nat) : Dev :=
  if 2 ^ 32 ≤ a then
    let tag := a / 2 ^ 32 - 1
    if d.ownerExists tag then d.onOwner tag fun o => { o with prof := v % 8, basinMax := v / 256 } else d
  else
    match (List.range 6).find? fun die => A.clsCfg die == a with
    | some die => d.pipeChange die v
    | none =>
      let old := d.live' a
      let d := d.setLive a v
      if a = A.bufCtrl && bit v 0 && !bit old 0 then d.failHeld else d

/-- Every write whose T0 this is. -/
def Dev.takeWrites (d : Dev) : Dev :=
  let now := d.due.filter fun e => decide (e.1 ≤ d.time.edges)
  if now.isEmpty then d
  else
    let d := { d with due := d.due.filter fun e => decide (d.time.edges < e.1) }
    let d := now.foldl (fun d e => d.takeEffect e.2.1 e.2.2.toNat) d
    if d.domOn 15 then d.each [0, 1, 2, 3] fun p d => d.poolWatch p else d

/-! ## Commands ordered for the edge (R167, R181, R266) -/

/-- Order in which the commands of one T0 commit: swaps, then all others, then moves of registry entries (Table 7-1). -/
def commitClass (op : Nat) : Nat := if op = 0x0705 then 0 else if op = 0x0302 || op = 0x0303 || op = 0x0304 then 2 else 1

/-- A RULE_SWAP that changes nothing leaves no swap pending. -/
def Dev.commitFailed (d : Dev) (r : Req) : Dev :=
  if r.op = 0x0705 then d.onCls fun c => { c with pending := false, done := true } else d

/-- The second check, the effect and the answer. -/
def Dev.commitOne (d : Dev) (r : Req) : Dev :=
  match cmdOf r.op with
  | none => d
  | some c =>
    let x := c.call r.func (d.kiosk r.func).level r.seq r.body
    let fail := fun (d : Dev) (s t : Nat) => (d.commitFailed r).respond r.func r.op r.seq s t []
    if !d.permits c.caller r.func then fail d 0x0007 0
    else
      match c.check d x with
      | some (s, t) => fail d s t
      | none =>
        match (c.atEdge.getD c.run) d x with
        | (d, .ok p) => d.answerOk c.mirrored r p
        | (d, .err s t) => fail d s t
        | (d, .later) => d

/-- Take the first waiting command that passes a test off the list and commit it, until none is left. -/
def Dev.commitAll (ready : Dev → Req → Bool) : Nat → Dev → Dev
  | 0, d => d
  | k + 1, d =>
    match findIdx (ready d) d.pon.commits with
    | some i =>
      let r := d.pon.commits[i]?
      let d := d.onPon fun p => { p with commits := p.commits.eraseIdx i }
      match r with
      | some r => Dev.commitAll ready k (d.commitOne r)
      | none => d
    | none => d

/-- The commands of a class whose T0 this is. -/
def Dev.commitClassNow (d : Dev) (cls : Nat) : Dev :=
  Dev.commitAll (fun d r => r.op != 0x0202 && commitClass r.op == cls && decide (r.from' ≤ d.time.edges)) d.pon.commits.length d

/-- R181: the channel transitions of a frame boundary. -/
def Dev.commitChans (d : Dev) : Dev :=
  Dev.commitAll (fun d r => r.op == 0x0202 && decide (r.from' ≤ d.time.edges) && !d.awaitsTune r) d.pon.commits.length d

/-! ## Channels at a frame boundary -/

/-- R490 step 2: the running change makes the channels of Dike `n` send Towpath frames. -/
def Dev.towpathBy (d : Dev) (n : Nat) : Bool :=
  match d.power.run with
  | some c => c.phase == 1 && decide (c.tpAt ≤ d.time.now) && (bit c.off (5 + n) || bit c.off (9 + n) || c.req.state == .dormant)
  | none => false

/-- R487, R490: channels act as in TOWPATH, and act as in SERVICE again once their domains are up and the registry is restored. -/
def Dev.towpathEdge (d : Dev) : Dev :=
  d.each d.servChans fun c d =>
    let n := c / 128
    if d.towpathBy n then (if (d.chan c).asTowpath then d else d.onChan c fun x => { x with asTowpath := true, next := {} })
    else if (d.chan c).asTowpath && d.chanUp c && !bit d.power.owed (1 + n) && !bit d.power.owed (5 + n) && !bit d.power.owed (9 + n) then
      d.onChan c fun x => { x with asTowpath := false }
    else d

/-- R524: a lockout takes effect: the channel leaves SERVICE. -/
def Dev.lockEdge (d : Dev) : Dev :=
  d.each ((d.pon.chans.filter fun e => e.2.lockNext).map Prod.fst) fun c d =>
    let d := d.onChan c fun x => { x with lockNext := false }
    if (d.chan c).state = .service then (d.chanGo c .towpath).onChan c fun x => { x with locked := true } else d

/-- The work of a frame boundary before the maps are published. -/
def Dev.boundary (d : Dev) : Dev :=
  if d.time.tick % 16 ≠ 0 then d else d.commitChans.lockEdge.towpathEdge

/-! ## Maps (R166, R171, R172) -/

/-- R236 kind 3: a tick with a grant to an OPERATING ONU and without a locked burst counts; one with a locked burst ends the run. -/
def Dev.lossTick (d : Dev) (c : Nat) : Dev :=
  let r := d.recv c
  if r.lockedNow then d.onRecv c fun r => { r with lockedNow := false, lossRun := 0 }
  else if (d.chan c).map.entries.any fun e => !e.ranging && (d.onu e.onu).state == .operating then
    d.onRecv c fun r => { r with lossRun := r.lossRun + 1 }
  else d

/-- R172: an overrun is counted, shown, and reported once per second. -/
def Dev.overrun (d : Dev) (c : Nat) : Dev :=
  let n := c / 128
  let i := c % 128
  let d := ((d.bumpSat (A.ovrCnt c)).setBit (A.ovrPend n (i / 32)) (i % 32) true).setBit A.tickStatus 7 true
  let d := (d.bumpSat A.tickOvrTotal).onChan c fun x => { x with ovrRun := x.ovrRun + 1, ovrSince := x.ovrSince + 1 }
  let due := match (d.chan c).ovrAt with
    | some t => decide (t + 1000000000 ≤ d.uptimeNs)
    | none => true
  let d := if due && d.fwServes then
      (d.evTickOverrun c (d.chan c).ovrSince).onChan c fun x => { x with ovrSince := 0, ovrAt := some d.uptimeNs }
    else d
  if (d.chan c).ovrRun = 128 then (d.setBit A.tickStatus 8 true).log 0x0205 n (le 2 c) else d

/-- The map of a channel for this tick: the one built, or the reused one where its build is late. -/
def Dev.mapEdge (d : Dev) (c : Nat) (late : Bool) : Dev :=
  let d := d.lossTick c
  if late && d.chanUp c && d.serves c then (d.reuseMap c).overrun c
  else (d.publishMap c).onChan c fun x => { x with ovrRun := 0 }

/-- R170: the cycles of one build of a DBA engine, a free value of 16 bits. -/
def Dev.buildPeak (d : Dev) (n : Nat) : Dev :=
  let (r, d) := d.draw
  d.setReg (A.dbaPeak n) (max (d.reg (A.dbaPeak n)) (r % 65536))

/-- Every channel's build for the next tick, after the refill of every allocation (R279, R285). -/
def Dev.buildEdge (d : Dev) : Dev :=
  let l := d.servChans.filter fun c => d.chanUp c && d.serves c
  let d := d.onPon fun p => { p with allocs := Tbl.mapVals p.allocs fun _ a => Alloc.refill a }
  let d := d.each l fun c d => d.buildMap c
  d.each ((List.range 4).filter fun n => l.any fun c => c / 128 == n) fun n d => d.buildPeak n

/-! ## ONUs (R222, R262, R263, R266) -/

/-- Moves that bursts and timers have ordered. -/
def Dev.onuMoves (d : Dev) : Dev :=
  d.each (d.onusWith fun o => o.moveTo.isSome) fun o d =>
    match (d.onu o).moveTo with
    | some (st, cause) => d.moveOnu o st cause
    | none => d

/-- Robust states and equalisation delays that the last tick has fixed. -/
def Dev.onuValues (d : Dev) : Dev :=
  let moved := d.onusWith fun o => o.eqdNext.isSome && o.state != .migrating
  let step := fun (_ : Nat) (o : Onu) => { o with robust := o.robustNext }
  let d := d.onPon fun p => { p with onus := Tbl.mapPut {} p.onus step }
  d.each moved fun o d => (d.onOnu o fun x => { x with eqd := x.eqdNext.getD x.eqd, eqdNext := none }).mirrorEntry o

/-- R200: the rings whose switch frame this is. -/
def Dev.keyEdge (d : Dev) : Dev :=
  if d.time.tick % 16 ≠ 0 then d
  else
    let d := d.each (d.onusWith fun o => o.keys.rolling) fun o d => d.keySwitch (.onu o)
    d.each ((d.pon.chans.filter fun e => e.2.bcast.rolling).map Prod.fst) fun c d => d.keySwitch (.bcast c)

/-- R227: an RSSI record that has not come within two ticks: the ONU's RX_POWER is 0x8000. -/
def Dev.rssiEdge (d : Dev) : Dev :=
  let old := fun (e : Nat × Nat × Nat) => decide (e.2.2 + 2 < d.time.edges)
  d.each ((d.pon.recv.filter fun e => e.2.rssi.any old).map Prod.fst) fun c d =>
    let gone := (d.recv c).rssi.filter old
    let d := d.onRecv c fun r => { r with rssi := r.rssi.filter fun e => !old e }
    gone.foldl (fun d e => d.onOnu e.2.1 fun o => { o with acc := { o.acc with rxPower := 0x8000 } }) d

/-! ## Messages of a frame boundary (R195, R205, R206, R221) -/

/-- Channels whose lines send. -/
def Dev.lit (d : Dev) : List Nat := d.onChans.filter fun c => d.domOn (1 + c / 128) && !d.dieFailed (c / 128) && d.ponRuns (c / 128)

/-- EXT_CHAN_PROFILE (Table 8-7), and with it in SERVICE the burst profiles of Table 9-2 (their layout is PRESUMED, log entry 30). -/
def Dev.profileMsgs (d : Dev) (c : Nat) : Dev :=
  let t := match (d.chan c).tree with
    | some t => d.treeChans t
    | none => [c]
  let pos := (findIdx (· == c) t).getD 0
  let four := (List.range 4).flatMap fun i =>
    match t[i]? with
    | some m => le 1 (d.chan m).dsWl ++ le 1 (d.chan m).usWl ++ le 2 0 ++ le 4 (d.chan m).ponId
    | none => List.replicate 8 0
  let d := d.emit (.ploam c none "EXT_CHAN_PROFILE" (le 1 t.length ++ le 1 pos ++ le 2 0 ++ four))
  if d.serves c then
    d.each [0, 1, 2] fun i d =>
      d.emit (.ploam c none "Burst_Profile" (le 1 i ++ le 2 (2 ^ i * preambleOf (d.chan c).usRate) ++ le 2 (guardOf (d.chan c).usRate)))
  else d

/-- t(S) of R204 for a channel, n frames on, in 2^-32 ns, with the correction of a takeover (Table 18-5). -/
def Dev.todOf (d : Dev) (c n : Nat) : Int :=
  let ch := d.chan c
  ((d.ptp d.time.selected).count : Int) + ((dsOffset ch.mode + n * 125000 : Nat) : Int) * 2 ^ 32
    + ((d.liveFld (A.dsDelay (c / 16)) 0 16 * 2 ^ 32 / 10 : Nat) : Int) + (d.recv c).shift * 15625 * 2 ^ 30 / (mfBits ch.usRate : Int)

/-- EXT_TOD (R205, Table 8-7). -/
def Dev.todMsg (d : Dev) (c : Nat) : Dev :=
  let t := (d.todOf c 16).toNat
  let ns := t / 2 ^ 32
  d.emit (.ploam c none "EXT_TOD" (le 8 (d.frame % 2 ^ 51) ++ le 6 (ns / 1000000000) ++ le 4 (ns % 1000000000) ++ le 2 (t % 2 ^ 32 / 2 ^ 16)
    ++ List.replicate 16 0))

/-- R206: a Dike's sample of the selected domain. -/
def Dev.todSample (d : Dev) (n : Nat) : Dev :=
  if !d.domOn (1 + n) || d.dieFailed n then d
  else
    let t := (d.ptp d.time.selected).count
    let ns := t / 2 ^ 32
    let d := (d.setCtr (A.todSfc n) d.frame).setCtr (A.todSec n) (ns / 1000000000)
    let d := d.setCtr (A.todSub n) (t % (1000000000 * 2 ^ 32) / 2 ^ 29)
    d.setReg (A.todStatus n) (1 + 2 * d.time.selected)

/-- The synchronisation block of an extended-mode microframe (R190, Table 8-5). -/
def Dev.syncWords (d : Dev) (c : Nat) : List (BitVec 64) :=
  let ch := d.chan c
  let hec := fun (w : Nat) => BitVec.ofNat 64 (w + (Config.hec (w / 2 ^ 13)).toNat)
  [BitVec.ofNat 64 0x6E3A91C50F4DB2A7, hec (d.frame % 2 ^ 51 * 2 ^ 13),
    hec (2 ^ 32 * ch.ponId + 2 ^ 28 * ch.dsWl + 2 ^ 24 * ch.usWl + 2 ^ 20 * (d.time.tick % 16) + 2 ^ 19 * nb (!d.serves c) + 2 ^ 13)]

/-- Every line of an extended-mode channel begins a microframe; in TOWPATH it carries no grant (R202). -/
def Dev.syncBlocks (d : Dev) : Dev :=
  d.each (d.lit.filter fun c => (d.chan c).mode == 2) fun c d => d.emit (.syncBlock c (d.syncWords c))

/-- What frame F carries and samples. -/
def Dev.frameMsgs (d : Dev) : Dev :=
  if d.time.tick % 16 ≠ 0 then d
  else
    let d := if d.frame % 1000 = 0 then d.each d.lit fun c d => d.profileMsgs c else d
    if d.frame % 8000 = 0 && d.todValid then
      let d := d.each (List.range 4) fun n d => d.todSample n
      d.each (d.lit.filter fun c => (d.chan c).tod) fun c d => d.todMsg c
    else d

/-- R492: in Dormant the idle-frame generators ask every channel that is not OFF for its RSSI, at microframe index 8. -/
def Dev.towpathWatch (d : Dev) : Dev :=
  if d.power.cur != .dormant || d.time.tick % 16 ≠ 8 then d
  else d.each d.lit fun c d =>
    (d.onChan c fun x => { x with rssiReqs := x.rssiReqs + 1 }).emit (.rxReset c d.time.tick d.time.edgeAt (max 1 (d.liveFld (A.usCfg c) 18 5)) true)

/-! ## The mirror link (R448, R450) -/

/-- Upstream microframes of a channel whose end has reached the receiver since the last T0. -/
def Dev.endedMf (d : Dev) (c was : Nat) : List Nat :=
  let ch := d.chan c
  let m := mfBlocks ch.usRate
  let lag := dsOffset ch.mode + bitsNs ch.usRate (((d.teqd c : Nat) : Int) + (d.recv c).shift).toNat
  let k := d.time.tick - lag / 7812 - 2
  ((List.range 6).map (k + ·)).filterMap fun i =>
    let t := d.posClock c (i * m)
    if 0 < i && was < t && t ≤ d.time.now then some (i - 1) else none

/-- The census of a channel's microframe: sent where this device's own map addressed it (R447), and forgotten. -/
def Dev.censusEdge (d : Dev) (c was : Nat) : Dev :=
  (d.endedMf c was).foldl (fun d mf =>
    let l := d.censusOf c mf
    let send := d.mirroring && decide ((d.redCh c).listenTo ≤ mf)
    let d := if send then d.emit (.census c mf l.length (censusCrc l)) else d
    let n := if d.red.role == .active then mf + 1 else mf - 64
    d.onRedCh c fun r => { r with cens := r.cens.filter fun e => decide (n ≤ e.1) }) d

/-- A timing sample: the first granted burst of the map in force (R448). -/
def Dev.sampleEdge (d : Dev) (c : Nat) : Dev :=
  match (d.chan c).map.entries.find? fun e => !e.ranging && e.start != 0x3FFF with
  | some e => d.emit (.sample c e.onu (mfAddressed (d.chan c).mode d.time.tick) e.start e.profile)
  | none => d

/-- What the edge sends over the mirror link. -/
def Dev.mirrorEdge (d : Dev) (was : Nat) : Dev :=
  if !d.red.enable then d
  else
    let l := d.servChans.filter d.chanUp
    let d := d.each l fun c d => d.censusEdge c was
    if d.mirroring && d.time.edges % 128 = 0 then d.each l fun c d => d.sampleEdge c else d

/-! ## Dies and monitors -/

/-- R35: a Dike whose PON_REFCLK has returned restarts its lines. -/
def Dev.linesEdge (d : Dev) : Dev :=
  d.each (List.range 4) fun n d =>
    if bit d.pon.linesOff n && bit (d.reg A.refclk) n then d.onPon fun p => { p with linesOff := withBit p.linesOff n false } else d

/-- R537: dies are throttled or run freely from this tick on; a tick with a throttled die counts. -/
def Dev.throttleEdge (d : Dev) : Dev :=
  let d := if d.pav.throttled ≠ 0 then d.bump A.thermThrottleTicks else d
  let fresh := d.pav.throttleNext - Nat.land d.pav.throttleNext d.pav.throttled
  let d := d.onPav fun p => { p with throttled := p.throttleNext }
  if fresh ≠ 0 then d.thermCauseSet 1 else d

/-! ## The edge -/

/-- The PON side of a tick edge, in the order of Table 7-1. -/
def Dev.ponEdge (d : Dev) (late : List Nat) (was : Nat) : Dev :=
  let d := d.boundary
  let d := d.each d.servChans fun c d => d.mapEdge c (late.contains c)
  let d := ((d.commitClassNow 0).commitClassNow 1).commitClassNow 2
  let d := d.onuMoves.onuValues.migrEdge.keyEdge
  let d := d.rssiEdge.buildEdge
  let d := d.syncBlocks.frameMsgs.towpathWatch
  let d := d.mirrorEdge was
  d.each (Tbl.keys d.otdr) fun t d => d.otdrEdge t

/-- TICK_EDGE: the next T0 comes. `late` are the channels whose map a stall has kept from being complete. -/
def Dev.tickEdge (d : Dev) (late : List Nat) : Dev :=
  let was := d.time.edgeAt
  let d := (d.passTo d.time.nextAt).tickOn
  let d := d.perfTick.cwCapture
  let d := d.takeWrites.linesEdge.throttleEdge
  let d := if d.shadow then d.silently fun d => d.ponEdge late was else d.ponEdge late was
  let d := (d.alignWait.phaseMeasure).bwStart
  d.each (List.range 6) fun n d => d.linkProbe n

/-- TICK_EDGE. -/
def execTickEdge (late : List Nat) (s : State) : Host.Outcome State Fault Refusal :=
  act (late.all fun c => decide (c < 512)) (fun d => if d.boot.pd00 then d.tickEdge late else d) s

end Sys2Proof.Machine
end

