-- ==== Sys2Proof/Machine/Views.lean ====
section
/-! DEFINITION. What a read returns of every register that is no plain stored word: the views of the block's state, and the 64-bit
values that a pair of registers shows (R11; Tables 1-5, 3-9 to 3-11, 4-6, 7-3, 8-13, 9-5, 10-13, 11-7, 12-11, 13-9, 13-11, 14-9, 14-11,
15-6, 16-5 to 16-9, 17-5, 17-8, 18-9, 18-12, 19-5, 19-8, 20-8, 21-8, 22-7).
Choices and readings: log entries 14, 65, 72 and 92. -/

namespace Sys2Proof.Machine

/-- A family of registers that a function of the block's state gives, by die and index. -/
structure View where
  /-- First address. -/
  base : Nat
  /-- Number of dies or blocks. -/
  outer : Nat := 1
  /-- Distance between them. -/
  ostride : Nat := 0x800000
  /-- Registers in each. -/
  count : Nat := 1
  /-- Distance between them. -/
  stride : Nat := 4
  /-- The value has 64 bits and two registers, low word first (R11). -/
  wide : Bool := false
  /-- The value. -/
  get : Dev → Nat → Nat → Nat

/-- Die and index that an address names in a family, and whether it is the high word. -/
def View.at? (v : View) (a : Nat) : Option (Nat × Nat × Bool) :=
  let off := a - v.base
  let k := if v.outer ≤ 1 then 0 else off / v.ostride
  let r := off - k * v.ostride
  let s := r % v.stride
  if decide (v.base ≤ a) && decide (k < v.outer) && decide (r / v.stride < v.count) && (s == 0 || (v.wide && s == 4)) then
    some (k, r / v.stride, s == 4)
  else none

/-- A two-bit code and friends: 1 at bit `i` for true. -/
def at' (b : Bool) (i : Nat) : Nat := nb b * 2 ^ i

/-! ## PD00 -/

/-- Table 3-9. -/
def Dev.bootStatus (d : Dev) : Nat :=
  let b := d.boot
  b.stage + 8 * b.slotBooted + at' b.fallback 4 + 256 * b.failCode + 2 ^ 16 * b.slotA + 2 ^ 20 * b.slotB
    + at' (b.dieFail % 64 != 0) 24 + 2 ^ 25 * b.dieFail

/-- QUIESCENT of 32 functions from `f` on. -/
def Dev.quiescent (d : Dev) (f : Nat) : Nat := (List.range 32).foldl (fun a i => a + at' (!(d.fn (f + i)).disabling) i) 0

/-- A request code of POWER_STATUS, 0xF for none. -/
def reqCode (r : Option PReq) : Nat :=
  match r with
  | some r => PState.code r.state
  | none => 0xF

/-- POWER_STATUS. -/
def Dev.powerStatus (d : Dev) : Nat :=
  let p := d.power
  let run := p.run.map Change.req
  let phase := match p.run with
    | some c => c.phase
    | none => 0
  let src := fun (r : Option PReq) => match r with
    | some r => r.src
    | none => 0
  let woken := match run with
    | some r => r.wake != 0xFF
    | none => false
  PState.code p.cur + 4 * phase + 16 * reqCode run + 256 * reqCode p.queued + 4096 * p.lastWake
    + 2 ^ 16 * src run + 2 ^ 17 * src p.queued + at' woken 18

/-- TICK_STATUS (Table 7-5). -/
def Dev.tickStatus (d : Dev) : Nat :=
  let t := d.time
  d.reg A.tickStatus + nb d.todValid + 2 * t.selected + at' t.aligned 2 + at' t.alignPending 3
    + at' (d.holdover && bit (d.reg A.refclk) 7) 4

/-- RED_STATUS (Table 18-10). -/
def Dev.redStatus (d : Dev) : Nat :=
  let r := d.red
  Role.code r.role % 16 + 16 * r.peer + at' r.lvdsAt.isSome 8 + at' r.mirAt.isSome 9 + at' r.flag 10 + at' d.pins.arbGrant 11
    + at' r.watch.isSome 12 + 2 ^ 16 * r.lastCause

/-- PAV_STATUS. -/
def Dev.pavStatus (d : Dev) : Nat :=
  let p := d.pav
  nb p.lockstep + at' p.restarting 1 + at' p.failed 2 + at' p.stale 3 + 2 ^ 16 * sat 0xFFFF p.restarts

/-- PAV_SENSOR_MAX; 0 before the first valid sample. -/
def Dev.sensorMax (d : Dev) : Nat :=
  match d.hottest with
  | some (k, v) => field 16 v + 2 ^ 16 * (k / 16) + 2 ^ 20 * (k % 16)
  | none => 0

/-- PAV_GPIO_IN: the level at each pin, which is the output level where the device drives it. -/
def Dev.gpioIn (d : Dev) : Nat :=
  let oe := d.reg A.pavGpioOe
  let inp := d.pins.gpioIn.toNat
  inp - Nat.land inp oe + Nat.land (d.reg A.pavGpioOut) oe

/-- The registers of PD00. -/
def views0 : List View :=
  [ { base := 0x104, get := fun d _ _ => d.boot.strapFlash + 4 * d.boot.strapSlot + 16 * d.boot.strapRole },
    { base := 0x108, get := fun d _ _ => d.bootStatus },
    { base := 0x10C, get := fun d _ _ =>
        d.fuses.chanEn + at' d.fuses.extEn 10 + 2 ^ 16 * d.fuses.corrected + at' d.fuses.keyHashOk 24 },
    { base := 0x110, get := fun d _ _ => d.boot.readyUs },
    { base := 0x130, count := 2, get := fun d _ i => d.quiescent (32 * i) },
    { base := 0x100008, get := fun d _ _ => d.powerStatus },
    { base := 0x10000C, get := fun d _ _ => d.power.on },
    { base := 0x100010, get := fun d _ _ => d.power.resume.2 + 2 ^ 24 * PState.code d.power.resume.1 },
    { base := 0x10001C, get := fun d _ _ => d.power.latch.toNat },
    { base := 0x100040, count := 7, get := fun d _ i => nth 0 d.power.set i + 2 ^ 16 * nth 0 d.power.fused i },
    { base := 0x200008, count := 2, stride := 0x100, wide := true, get := fun d _ x => (d.ptp x).incr },
    { base := 0x200028, count := 2, stride := 0x100, wide := true, get := fun d _ x => d.ctr (A.ptpSetSec x) },
    { base := 0x200030, count := 2, stride := 0x100, wide := true, get := fun _ _ _ => 0 },
    { base := 0x201000, count := 4, stride := 0x40, get := fun d _ m => d.reg (A.cmpCtrl m) + nb (d.cmp m).armed },
    { base := 0x201004, count := 4, stride := 0x40, get := fun d _ m => d.reg (A.cmpStatus m) + nb (d.cmp m).armed },
    { base := 0x208004, get := fun d _ _ => d.tickStatus },
    { base := 0x208008, wide := true, stride := 8, get := fun d _ _ => d.time.tick },
    { base := 0x208018, wide := true, stride := 8, get := fun d _ _ => d.uptimeNs },
    { base := 0x800000, get := fun d _ _ => d.redStatus },
    { base := 0x900000, get := fun d _ _ => d.pavStatus },
    { base := 0x900010, get := fun d _ _ => d.pav.bootSeq },
    { base := 0x900014, get := fun d _ _ => d.pav.logNext },
    { base := 0x900018, get := fun d _ _ => d.logOldest },
    { base := 0x90002C, get := fun d _ _ => d.sensorMax },
    { base := 0x900030, get := fun d _ _ => UpdState.code d.upd.state + 256 * d.upd.result },
    { base := 0x900058, get := fun d _ _ => d.gpioIn },
    { base := 0x900060, get := fun d _ _ => d.pav.pinFaults.length },
    { base := 0x900100, get := fun d _ _ => d.pav.throttled + 256 * d.pav.hbmHot + at' d.pav.tripped 12 } ]

/-! ## DMA, PERF, BUFMGR, CRYPTO, MIRROR -/

/-- STATE of DMA_CHn_STATUS. -/
def DmaState.code : DmaState → Nat
  | .disabled => 0 | .run => 1 | .wait => 2 | .fin => 3 | .hold => 4 | .halt => 5

/-- DMA_CHn_STATUS. -/
def Dma.status (c : Dma) : Nat :=
  DmaState.code c.state + 16 * c.haltCause + 64 * c.errDir + at' c.lastBeat 7 + 2 ^ 16 * (c.count % 32768)

/-- BUF_STATUS. -/
def Dev.bufStatus (d : Dev) : Nat :=
  (List.range 4).foldl (fun a p => a + at' (nth false d.data.buf.warn p) p + at' (decide (d.sharedFree p ≤ 0)) (4 + p)
    + at' (nth false d.data.buf.placing p) (8 + p)) 0

/-- Free pages of the stacks that place pages, or all their pages. -/
def Dev.basinPages (d : Dev) (onlyFree : Bool) : Nat :=
  let b := d.data.buf
  (List.range 4).foldl (fun a s =>
    if nth false b.placing s then a + (stackPages - (if onlyFree then nth 0 b.used s + nth 0 b.retired s else 0)) else a) 0

/-- BASIN_SPILLED_Q. -/
def Dev.spilledQueues (d : Dev) : Nat :=
  let spilled := fun (l : List Pkt) => l.any fun p => p.seg == 2
  countP (fun e => spilled e.2) d.pon.queues + countP (fun e => spilled e.2) d.data.excWait
    + d.data.subs.foldl (fun a s => a + countP (fun e => spilled e.2) s.2.queues) 0

/-- BUSY of the pages of 32 functions from `f` on. -/
def Dev.pagesBusy (d : Dev) (f : Nat) : Nat := (List.range 32).foldl (fun a i => a + at' (d.page (f + i)).job.isSome i) 0

/-- The registers of the blocks from 0x030_0000 to 0x08F_FFFF that are in no domain of a die. -/
def views1 : List View :=
  [ { base := 0x300000, count := 32, stride := 0x40, get := fun d _ n => nb (d.dmaCh n).en },
    { base := 0x300008, count := 32, stride := 0x40, wide := true, get := fun d _ n => (d.dmaCh n).desc },
    { base := 0x300010, count := 32, stride := 0x40, get := fun d _ n => Dma.status (d.dmaCh n) },
    { base := 0x400008, outer := 7, ostride := 0x1000, count := 64, stride := 0x10, wide := true
      get := fun d n j => (Tbl.look ({} : Perf) d.meas.perf (n * 64 + j)).val },
    { base := 0x400400, outer := 7, ostride := 0x1000, count := 64, stride := 8, wide := true
      get := fun d n j => (Tbl.look ({} : Perf) d.meas.perf (n * 64 + j)).snap },
    { base := 0x408004, get := fun d _ _ => nb d.frozen + at' d.meas.busy 1 },
    { base := 0x40A004, get := fun d _ _ => d.meas.slots.length },
    { base := 0x500004, get := fun d _ _ => d.bufStatus },
    { base := 0x500100, count := 4, stride := 0x20, get := fun _ _ p => poolCount p },
    { base := 0x500104, count := 4, stride := 0x20, get := fun d _ p => d.poolFree p },
    { base := 0x500108, count := 4, stride := 0x20, get := fun d _ p => d.poolReserved p },
    { base := 0x50010C, count := 4, stride := 0x20, get := fun d _ p => d.poolUnused p },
    { base := 0x500118, count := 4, stride := 0x20, get := fun d _ p => nth 0 d.data.buf.low p },
    { base := 0x500600, get := fun d _ _ => d.basinPages false },
    { base := 0x500604, get := fun d _ _ => d.basinPages true },
    { base := 0x500608, get := fun d _ _ => d.data.buf.retired.foldl (· + ·) 0 },
    { base := 0x50060C, get := fun d _ _ => d.spilledQueues },
    { base := 0x708000, get := fun d _ _ => nb (d.funcs.all fun e => e.2.page.job.isNone) + at' d.trngOk 1 },
    { base := 0x708004, get := fun _ _ _ => 0 },
    { base := 0x708008, count := 2, get := fun d _ i => d.pagesBusy (32 * i) },
    { base := 0x801000, get := fun d _ _ => nb d.mir.up + at' d.mir.deskewed 1 + 256 * d.mir.lock + 2 ^ 16 * d.mir.version } ]

/-! ## Dikes -/

/-- Position of a channel in its tree. -/
def Dev.treePos (d : Dev) (c : Nat) : Nat :=
  match (d.chan c).tree.bind d.tree? with
  | some t => (findIdx (· == c) t.chans).getD 0
  | none => 0

/-- STATE codes of Table 6-5. -/
def ChState.code' : ChState → Nat
  | .off => 0 | .towpath => 1 | .service => 2

/-- DS_CHi_STATUS (Table 8-14). -/
def Dev.dsStatus (d : Dev) (c : Nat) : Nat :=
  let x := d.chan c
  x.mode + 4 * ChState.code' x.state + at' x.tree.isSome 4 + 32 * d.treePos c + 128 * x.dsWl + 2048 * x.usWl + 32768 * x.alg
    + at' x.laser 16 + at' x.bcast.rolling 17 + at' (Chan.tuned x) 18

/-- RNG_CHi_GEO (Table 10-16). -/
def Dev.geoView (d : Dev) (c : Nat) : Nat :=
  let (valid, lo, hi) := d.geo c
  lo + 2 ^ 16 * hi + at' valid 31

/-- RED_CHi_STATUS. -/
def Dev.redChStatus (d : Dev) (c : Nat) : Nat :=
  nb (d.listens c d.time.tick) + at' ((d.redCh c).samples.length == 16) 1 + at' (d.redCh c).diverged 2

/-- The registers of the Dikes. -/
def views2 : List View :=
  [ { base := 0x1000000, outer := 4, count := 128, get := fun d n i => d.dsStatus (128 * n + i) },
    { base := 0x1001000, outer := 4, count := 8, get := fun d n e =>
        let x := d.eng (8 * n + e)
        d.reg (A.bclStatus (8 * n + e)) + nb x.up + at' x.fault 3 + 256 * x.code },
    { base := 0x1200400, outer := 4, count := 128, get := fun d n i => d.reg (A.usStatus (128 * n + i)) + nb (d.rxRuns (128 * n + i)) },
    { base := 0x1230000, outer := 4, count := 128, stride := 0x20, get := fun d n i => d.redChStatus (128 * n + i) },
    { base := 0x1480400, outer := 4, count := 128, get := fun d n i => d.geoView (128 * n + i) },
    { base := 0x1480600, outer := 4, count := 128, get := fun d n i =>
        if (d.recv (128 * n + i)).reach.isSome then d.teqd (128 * n + i) else 0 },
    { base := 0x1480800, outer := 4, count := 128, get := fun d n i => (d.recv (128 * n + i)).eqdPre } ]

/-! ## Datapath dies, Sluices and the Polder -/

/-- CLS_STATUS. -/
def Dev.clsStatus (d : Dev) (n : Nat) : Nat := d.pipes n + at' (d.die n).fence 8

/-- CLS_FRAG_USE. -/
def Dev.fragUse (d : Dev) (n : Nat) : Nat := (d.die n).frags.length + 2 ^ 16 * (d.die n).holding.length

/-- EM_STATUS (Table 14-10). -/
def Dev.emStatus (d : Dev) (n : Nat) : Nat :=
  let x := d.die n
  x.em.length + 2 ^ 21 * countP (fun e => decide (stash0 ≤ e.1)) x.em + at' x.moving.isSome 28

/-- UPL_q_STATUS of port `p`. -/
def Dev.uplStatus (d : Dev) (p : Nat) : Nat :=
  (List.range 8).foldl (fun a j => a + at' (d.sub (8 * p + j)).up j + at' (d.sub (8 * p + j)).miswire (8 + j)) 0

/-- UPL_LANEl_STATUS. -/
def Lane.status (l : Lane) : Nat := nb l.signal + at' l.locked 1 + at' l.inv 2 + 16 * l.fault

/-- CLS_BANK (Table 13-12). -/
def Cls.bankView (c : Cls) : Nat := c.epoch % 2 + at' c.pending 1 + at' c.draining 2 + at' c.done 3

/-- D2D_LINKn_STATUS (Table 1-6). -/
def DLink.status (l : DLink) : Nat :=
  nb l.up + at' l.retraining 1 + at' (l.spareUsed != 0) 2 + at' l.fatal 3 + 16 * l.spareUsed + 256 * l.spareLeft

/-- The registers of the datapath dies, the Sluices and the Polder. -/
def views3 : List View :=
  [ { base := 0x14C0004, outer := 4, get := fun d n _ => d.clsStatus n },
    { base := 0x3400004, outer := 2, get := fun d n _ => d.clsStatus (4 + n) },
    { base := 0x14C0008, outer := 4, get := fun d n _ => d.fragUse n },
    { base := 0x3400008, outer := 2, get := fun d n _ => d.fragUse (4 + n) },
    { base := 0x1500008, outer := 4, get := fun d n _ => d.emStatus n },
    { base := 0x3440008, outer := 2, get := fun d n _ => d.emStatus (4 + n) },
    { base := 0x3000004, outer := 2, count := 32, stride := 0x100, get := fun d n q => d.uplStatus (32 * n + q) },
    { base := 0x3010000, outer := 2, count := 128, get := fun d n l => Lane.status (d.lane (128 * n + l)) },
    { base := 0x3030004, outer := 2, count := 256, stride := 0x20, get := fun d n s => (d.sub (256 * n + s)).readout.2.1 },
    { base := 0x3030008, outer := 2, count := 256, stride := 0x20, get := fun d n s => (d.sub (256 * n + s)).readout.2.2 },
    { base := 0x3030010, outer := 2, count := 256, stride := 0x20, wide := true, get := fun d n s => (d.sub (256 * n + s)).readout.1 },
    { base := 0x3040000, outer := 2, get := fun d n _ =>
        let y := d.synce n
        nb y.enable + at' y.active 1 + 16 * y.sub },
    { base := 0x3480000, outer := 2, count := 256, stride := 0x40, get := fun d n s => d.gateStatus (256 * n + s) },
    { base := 0x3480008, outer := 2, count := 256, stride := 0x40, wide := true, get := fun d n s => (d.sub (256 * n + s)).change },
    { base := 0x4C00000, get := fun d _ _ => Trie.count d.data.trie 4 },
    { base := 0x4C00004, get := fun d _ _ => Trie.count d.data.trie 6 },
    { base := 0x4C00008, get := fun d _ _ => d.data.trie.nh.length },
    { base := 0x4C0000C, get := fun d _ _ => d.data.trie.restores.length },
    { base := 0x4D00000, get := fun d _ _ => Cls.bankView d.data.cls },
    { base := 0x4D00004, get := fun d _ _ => d.data.cls.epoch },
    { base := 0x4D00008, get := fun d _ _ => d.data.cls.swaps },
    { base := 0x4E00000, count := 6, stride := 0x40, get := fun d _ n => DLink.status (d.dlink n) },
    { base := 0x4E00030, count := 6, stride := 0x40, get := fun d _ n => (d.dlink n).latLast + 2 ^ 16 * (d.dlink n).latMax } ]

/-! ## Counters that stand as they are -/

/-- Families of `regs` 64-bit values, 8 bytes apart, that `Dev.ctrs` holds: base, dies, distance, objects, distance, values. -/
def ctrGroups : List (Nat × Nat × Nat × Nat × Nat × Nat) :=
  [ (0x100060, 1, 8, 1, 8, 2), (0x200028, 1, 8, 2, 0x100, 1), (0x201010, 1, 8, 4, 0x40, 1), (0x201020, 1, 8, 4, 0x40, 2),
    (0x300020, 1, 8, 32, 0x40, 4), (0x300800, 1, 8, 1, 8, 1), (0x408018, 1, 8, 1, 8, 1), (0x409008, 1, 8, 32, 0x20, 1),
    (0x409018, 1, 8, 32, 0x20, 1), (0x40A008, 1, 8, 1, 8, 3), (0x500200, 1, 8, 1, 8, 11), (0x800010, 1, 8, 1, 8, 2),
    (0x800028, 1, 8, 1, 8, 1), (0x801008, 1, 8, 1, 8, 4), (0x900068, 1, 8, 1, 8, 1), (0x900110, 1, 8, 1, 8, 1),
    (0x1001080, 4, 0x800000, 8, 8, 1), (0x1001100, 4, 0x800000, 1, 8, 3), (0x1210000, 4, 0x800000, 128, 0x40, 7),
    (0x1220010, 4, 0x800000, 1, 8, 7), (0x1230008, 4, 0x800000, 128, 0x20, 3), (0x1231000, 4, 0x800000, 128, 0x20, 1),
    (0x1450000, 4, 0x800000, 128, 0x40, 8), (0x1490000, 4, 0x800000, 128, 0x40, 8), (0x1540010, 4, 0x800000, 1, 8, 2),
    (0x14C0010, 4, 0x800000, 1, 8, 13), (0x3400010, 2, 0x800000, 1, 8, 13), (0x1500010, 4, 0x800000, 1, 8, 13),
    (0x3440010, 2, 0x800000, 1, 8, 13), (0x3020008, 2, 0x800000, 256, 0x80, 11), (0x3480010, 2, 0x800000, 256, 0x40, 4),
    (0x4B00018, 1, 8, 1, 8, 2), (0x4C00010, 1, 8, 1, 8, 6), (0x4D00100, 1, 8, 16, 0x10, 2), (0x4D00200, 1, 8, 1, 8, 1),
    (0x4E00008, 1, 8, 6, 0x40, 5) ]

/-- The view of one value of a group. -/
def ctrView (g : Nat × Nat × Nat × Nat × Nat × Nat) (j : Nat) : View :=
  let (base, outer, ostride, count, stride, _) := g
  { base := base + 8 * j, outer := outer, ostride := ostride, count := count, stride := stride, wide := true
    get := fun d n i => d.ctr (base + 8 * j + n * ostride + i * stride) }

/-- Every 64-bit value that `Dev.ctrs` holds. -/
def ctrViews : List View := ctrGroups.flatMap fun g => (List.range g.2.2.2.2.2).map (ctrView g)

/-- Every view. -/
def views : List View := views0 ++ views1 ++ views2 ++ views3 ++ ctrViews

/-- The value at an address that a view gives: all of it, the address of its low word, and whether the address is its high word of two. -/
def Dev.viewAt (d : Dev) (a : Nat) : Option (Nat × Bool × Bool) :=
  views.findSome? fun v => (v.at? a).map fun e => (v.get d e.1 e.2.1, v.wide, e.2.2)

end Sys2Proof.Machine
end

