-- ==== Sys2Proof/Machine/Access.lean ====
section
/-! DEFINITION. Host accesses: which bytes of a function's address spaces name what, what a read returns and a write does, accesses to
domains that are off, and the rows that are writes or reads of one register (R7 to R11, R74 to R76, R80, R82 to R91, R99, R541).
Choices and readings: log entries 15, 19, 35, 43, 53, 63, 64, 65, 66, 67, 68, 70, 72, 73 and 140. -/

namespace Sys2Proof.Machine

/-! ## Address spaces (Tables 4-3 to 4-5) -/

/-- What an offset names: a register or byte under the address that PF0's map gives it (a function window's Kiosk, crypto page and
counter window stand at the addresses of PF0's own copies), an MSI-X table or PBA byte, FUNC_STATUS, or nothing. -/
inductive Place where
  | reg (a : Nat)
  | msix (o : Nat)
  | pba (o : Nat)
  | status
  | none
  deriving DecidableEq, Repr

/-- Size of a BAR, 0 where it is not implemented (Table 4-3). -/
def barSize (f bar : Nat) : Nat :=
  if f = 0 then (if bar = 0 then 0x8000000 else if bar = 2 then 0x10000 else 0)
  else if bar = 0 then (if f = 1 then 0x100000 else 0x10000) else 0

/-- The place of an offset, and its power domain; an unassigned range counts as PD00's. -/
def locate (f bar off : Nat) : Place × Nat :=
  if f = 0 then
    if bar = 2 then (if off < 0x8000 then .msix off else .pba (off - 0x8000), 0)
    else match domainOf off with
      | some p => (.reg off, p)
      | none => (.none, 0)
  else if off < 0x4000 then (.reg (0x600000 + off), 0)
  else if off < 0x8000 then (.reg (0x700000 + (off - 0x4000)), 20)
  else if off < 0xC000 then (.reg (0x40C000 + (off - 0x8000)), 23)
  else if off < 0xE000 then (.msix (off - 0xC000), 0)
  else if off < 0xF000 then (.pba (off - 0xE000), 0)
  else if off < 0x10000 then (if off / 4 = 0x3C00 then .status else .none, 0)
  else (if off < 0x10800 then .reg (0x300000 + (off - 0x10000)) else .none, 21)

/-- Offset, in a function's BAR0, of its Kiosk, crypto page and counter window. -/
def kioskOff (f o : Nat) : Nat := (if f = 0 then 0x600000 else 0) + o
def pageOff (f o : Nat) : Nat := (if f = 0 then 0x700000 else 0x4000) + o
def cwOff (f o : Nat) : Nat := (if f = 0 then 0x40C000 else 0x8000) + o

/-- End of the ring or crypto data area that holds an address (R82). -/
def areaEnd (a : Nat) : Option Nat :=
  if 0x600000 ≤ a && a < 0x601000 then some 0x601000
  else if 0x601000 ≤ a && a < 0x602000 then some 0x602000
  else if 0x700400 ≤ a && a < 0x700800 then some 0x700800
  else if 0x700800 ≤ a && a < 0x702400 then some 0x702400
  else if 0x702400 ≤ a && a < 0x704000 then some 0x704000
  else none

/-- An access of `n` bytes lies within a ring or crypto data area. -/
def inArea (p : Place) (n : Nat) : Bool :=
  match p with
  | .reg a => (match areaEnd a with | some e => decide (a + n ≤ e) | none => false)
  | _ => false

/-- The bytes of a read that its byte enables select; a read in an area has them all. -/
def Held.enabled (h : Held) (bs : Bytes) : Bytes :=
  if h.len = 4 then ((bs.zip (List.range bs.length)).filter fun e => bit h.be e.2).map Prod.fst else bs

/-- MSI-X vectors of a function (R78). -/
def msixCount (f : Nat) : Nat := if f = 0 then 800 else if f = 1 then 256 else 16

/-! ## Reads -/

/-- R11: one word of a 64-bit value. The low word latches the high word for the reading function. -/
def Dev.readWide (d : Dev) (f low v : Nat) (high : Bool) : Nat × Dev :=
  if high then
    ((match Tbl.get? (d.fn f).latch low with
      | some w => w.toNat
      | none => v / 2 ^ 32 % 2 ^ 32), d)
  else (v % 2 ^ 32, d.onFn f fun x => { x with latch := Tbl.set x.latch low (w32 (v / 2 ^ 32)) })

/-- KIOSK_STATUS (Table 5-2). -/
def Dev.kioskStatus (d : Dev) (f : Nat) : Nat :=
  let k := d.kiosk f
  nb k.ready + at' k.restarting 1 + at' (k.level != 0) 2 + 8 * k.level + at' k.ringFault 5 + at' k.resetBusy 6
    + at' k.executing.isSome 7 + at' (d.budgetWaits f) 8

/-- A read of `n` bytes within a ring or a crypto data area (R91, R98, R124, R316). -/
def Dev.readArea (d : Dev) (f a n : Nat) : Bytes :=
  let zeros := List.replicate n (0 : Byte)
  let k := d.kiosk f
  let p := d.page f
  if (d.fn f).disabling then zeros
  else if a < 0x602000 then
    if k.resetBusy then zeros else Mem.read (if a < 0x601000 then k.reqMem else k.rspMem) (a % 0x1000) n
  else if a < 0x700800 then Mem.read p.aad (a - 0x700400) n
  else if a < 0x702400 then Mem.read p.inp (a - 0x700800) n
  else if p.job.isSome then zeros
  else Mem.read p.outp (a - 0x702400) n

/-- A read of a register in the Kiosk of a function (R99). -/
def Dev.readKiosk (d : Dev) (f o : Nat) : Nat × Dev :=
  let k := d.kiosk f
  if (d.fn f).disabling then (0, d)
  else if o = 0x2000 then (k.reqTail.toNat, d)
  else if o = 0x2004 then (k.reqHead.toNat, d)
  else if o = 0x2008 then (k.rspTail.toNat, d)
  else if o = 0x200C then (k.rspHead.toNat, d)
  else if o = 0x2010 then (d.kioskStatus f, d)
  else if o = 0x2014 then (k.cause.toNat, d)
  else if o = 0x2018 then (k.intEn.toNat, d)
  else if o = 0x2020 then (k.errInfo.toNat, d)
  else if o = 0x2024 then (k.eventLost, d.onKiosk f fun k => { k with eventLost := 0 })
  else (0, d)

/-- CRYPTO_STATUS (Table 12-9). -/
def Page.status (p : Page) : Nat := nb p.job.isSome + at' p.done 1 + at' p.startErr 2 + at' p.writeErr 3 + 16 * p.result

/-- CRYPTO_SLOT_STATE. -/
def Page.slotState (p : Page) : Nat :=
  (List.range 8).foldl (fun a n => a + (Page.slot p n).alg * 4 ^ n + at' (Page.slot p n).retired (16 + n)) 0

/-- A read of a register in the crypto page of a function (R313). -/
def Dev.readPage (d : Dev) (f o : Nat) : Nat × Dev :=
  let p := d.page f
  if (d.fn f).disabling then (0, d)
  else if o = 0x00 then (p.op.toNat, d)
  else if o = 0x04 then (p.len.toNat, d)
  else if o = 0x0C then (Page.status p, d)
  else if o = 0x10 then (nb p.intEn, d)
  else if o = 0x14 then (Page.slotState p, d)
  else if 0x20 ≤ o && o < 0x2C then ((nth 0 p.nonce ((o - 0x20) / 4)).toNat, d)
  else if 0x30 ≤ o && o < 0x40 then ((nth 0 p.tag ((o - 0x30) / 4)).toNat, d)
  else if o = 0x40 then (p.outLen, d)
  else if 0x48 ≤ o && o < 0x50 then d.readWide f 0x700048 p.ops (o == 0x4C)
  else if 0x50 ≤ o && o < 0x58 then d.readWide f 0x700050 p.tagFail (o == 0x54)
  else if 0x80 ≤ o && o < 0xC0 then d.readWide f (0x700000 + o / 8 * 8) (Page.slot p ((o - 0x80) / 8)).ctr (o % 8 == 4)
  else if 0xC0 ≤ o && o < 0xE0 then ((Page.slot p ((o - 0xC0) / 4)).epoch, d)
  else (0, d)

/-- The function reads and writes its counter window: a VF's only with COUNTER_GRANT (R482). -/
def Dev.cwGranted (d : Dev) (f : Nat) : Bool := decide (f < 2) || (d.fn f).grant

/-- A read in the counter window of a function (Tables 19-11 and 19-12). A record's identifier and VALID are words, its counts 64-bit
values. -/
def Dev.readCw (d : Dev) (f o : Nat) : Nat × Dev :=
  let w := (d.fn f).cw
  if !d.cwGranted f then (0, d)
  else if o = 0x04 then (nb w.busy + at' w.ready 1, d)
  else if o = 0x08 then (w.count, d)
  else if 0x10 ≤ o && o < 0x18 then d.readWide f 0x40C010 w.tick (o == 0x14)
  else if 0x100 ≤ o && o < 0x300 then ((Tbl.look 0 w.list ((o - 0x100) / 4)).toNat, d)
  else if 0x1000 ≤ o && o < 0x3000 then
    let rec' := if w.captured then [] else Tbl.look [] w.recs ((o - 0x1000) / 0x40)
    let v := nth 0 rec' (o % 0x40 / 8)
    if o % 0x40 < 8 then (if o % 8 < 4 then v % 2 ^ 32 else v / 2 ^ 32, d)
    else d.readWide f (0x40C000 + o / 8 * 8) v (o % 8 == 4)
  else (0, d)

/-- PTP_x_NOW registers (R430): NOW_NS and NOW_SEC return what the read of NOW_FRAC latched, or the current value before any. -/
def Dev.readNow (d : Dev) (x o : Nat) : Nat × Dev :=
  let ns := Ptp.ns (d.ptp x)
  let latched := fun (a cur : Nat) => (match Tbl.get? (d.fn 0).latch a with
    | some w => w.toNat
    | none => cur)
  if o = 0x10 then d.ptpFracRead x
  else if o = 0x14 then (latched (A.ptpNowNs x) (ns % 1000000000), d)
  else if o = 0x18 then (latched (A.ptpNowSec x) (ns / 1000000000 % 2 ^ 32), d)
  else (latched (A.ptpNowSec x + 4) (ns / 1000000000 / 2 ^ 32), d)

/-- What the read of an RC register leaves in it (R7, R9); the lowest FREE since a read starts at the FREE of that clock. -/
def Dev.clearRead (d : Dev) (a : Nat) : Dev :=
  match (List.range 4).find? fun p => A.bufPool p 0x18 == a with
  | some p => d.onBuf fun b => { b with low := setAt b.low p (d.poolFree p) }
  | none =>
    if (List.range 32).any fun m => A.bwPeak m == a then d.setCtr a 0
    else if (descOf a).rc then d.setReg a (descOf a).rst
    else d

/-- Subport whose UPL_TSF_s_HEAD stands at an address. -/
def tsfOf (a : Nat) : Option Nat :=
  let o := (a - 0x3000000) % 0x800000
  if 0x3000000 ≤ a && a < 0x4000000 && 0x30000 ≤ o && o < 0x32000 && o % 0x20 = 0 then
    some ((a - 0x3000000) / 0x800000 * 256 + (o - 0x30000) / 0x20)
  else none

/-- A read of a register of PF0's map. -/
def Dev.readMap (d : Dev) (f a : Nat) : Nat × Dev :=
  if 0x200000 ≤ a && a < 0x200200 && 0x10 ≤ a % 0x100 && a % 0x100 < 0x20 then d.readNow ((a - 0x200000) / 0x100) (a % 0x100)
  else if 0x310000 ≤ a && a < 0x320000 then (ofLe (Mem.read d.data.descRam (a - 0x310000) 4), d)
  else
    match tsfOf a with
    | some sp => d.tsfRead sp
    | none =>
      match d.viewAt a with
      | some (v, true, high) =>
        let (w, d) := d.readWide f (if high then a - 4 else a) v high
        (w, d.clearRead a)
      | some (v, false, _) => (v % 2 ^ 32, d.clearRead a)
      | none => (d.reg a, d.clearRead a)

/-- PF1 sees the registers of a DMA channel that it owns (R476). -/
def Dev.pf1Sees (d : Dev) (a : Nat) : Bool := d.dmaOwner ((a - 0x300000) / 0x40 % 32) == 1

/-- A read of 4 bytes at a register's address by a function. -/
def Dev.readReg (d : Dev) (f a : Nat) : Nat × Dev :=
  if 0x600000 ≤ a && a < 0x604000 then d.readKiosk f (a - 0x600000)
  else if 0x700000 ≤ a && a < 0x704000 then d.readPage f (a - 0x700000)
  else if 0x40C000 ≤ a && a < 0x410000 then d.readCw f (a - 0x40C000)
  else if f != 0 && !d.pf1Sees a then (0, d)
  else d.readMap f a

/-- FUNC_STATUS (Table 4-10). -/
def Dev.funcStatus (d : Dev) (f : Nat) : Nat :=
  let x := d.fn f
  nb (!x.disabling) + at' (f == 1 || x.tenant != 0) 1 + at' x.grant 2 + 256 * f

/-- A word of the PBA: the pending bits of 32 vectors. -/
def Func.pbaWord (x : Func) (o : Nat) : Nat := (List.range 32).foldl (fun a i => a + at' (x.pba.contains (8 * o + i)) i) 0

/-- A read of 4 bytes at a place. -/
def Dev.readPlace (d : Dev) (f : Nat) (p : Place) : Nat × Dev :=
  match p with
  | .reg a => d.readReg f a
  | .msix o => (if o < 16 * msixCount f then (Func.msixWord (d.fn f) o).toNat else 0, d)
  | .pba o => (Func.pbaWord (d.fn f) o, d)
  | .status => (d.funcStatus f, d)
  | .none => (0, d)

/-- What a read that meets its domain returns: the bytes of an area, or those of a register that its byte enables select (R82). -/
def Dev.readHeld (d : Dev) (f : Nat) (h : Held) : Bytes × Dev :=
  let p := (locate f h.bar h.off).1
  match p with
  | .reg a =>
    if (areaEnd a).isSome then (d.readArea f a h.len, d)
    else
      let (v, d) := d.readPlace f p
      (Held.enabled h (le 4 v), d)
  | _ =>
    let (v, d) := d.readPlace f p
    (Held.enabled h (le 4 v), d)

/-! ## Writes -/

/-- Bits of a register that are set and enabled. -/
def Dev.causeLeft (d : Dev) (cause en : Nat) : Nat := Nat.land (d.reg cause) (d.reg en)

/-- R80: a write has cleared bits of a cause register; every source that it belongs to, and that has an enabled bit left, signals again.
Vector 35 of PF0 is fed by PAV_CAUSE and THERM_CAUSE, vector 42 by PERF_CAUSE and by CW_STATUS.READY of PF0's window. -/
def Dev.resignalAt (d : Dev) (a cleared : Nat) : Dev :=
  if cleared = 0 then d
  else if a = A.pavCause || a = A.thermCause then
    d.resignal cleared (d.causeLeft A.pavCause A.pavIntEn + d.causeLeft A.thermCause A.thermIntEn) 0 35
  else if a = A.powerCause then d.resignal cleared (d.causeLeft a A.powerIntEn) 0 40
  else if a = A.redCause then d.resignal cleared (d.causeLeft a A.redIntEn) 0 41
  else if a = A.perfCause then d.resignal cleared (d.causeLeft a A.perfIntEn + nb (d.fn 0).cw.ready) 0 42
  else if a = A.bufCause then d.resignal cleared (d.causeLeft a A.bufIntEn) 0 43
  else
    match (List.range 64).find? fun p => A.uplCause p == a with
    | some p => d.resignal cleared (d.causeLeft a (A.uplIntEn p)) 0 (576 + p)
    | none =>
      match (List.range 32).find? fun n => A.dmaCause n == a with
      | some n =>
        let req := d.dmaReq n
        let left := d.causeLeft a (A.dmaIntEn n)
        if 1 ≤ req && req ≤ 16 then
          let same := (List.range 32).filter fun m => d.dmaReq m == req
          let dones := same.foldl (fun s m => s + d.causeLeft (A.dmaCause m) (A.dmaIntEn m) % 2) 0
          let d := d.resignal (cleared % 2) dones 1 (35 + (req - 1))
          d.resignal (cleared / 2) (left / 2) (d.dmaOwner n) (3 + n)
        else d.resignal cleared left (d.dmaOwner n) (3 + n)
      | none => d

/-- A write of a register whose bits are stored, cleared or ignored by access type (R7, R10). -/
def Dev.writePlain (d : Dev) (a w : Nat) : Dev :=
  let k := descOf a
  let old := d.reg a
  let clear := Nat.land (Nat.land old k.w1c) w
  let new := Nat.lor (old - Nat.land old k.rw - clear) (Nat.land w k.rw)
  if k.rw = 0 && k.w1c = 0 then d
  else if k.edge then d.writeEdge a new
  else (d.setReg a new).resignalAt a clear

/-- Low word that a function holds for a pair, or that of the value in effect (R541). -/
def Dev.lowOf (d : Dev) (f low cur : Nat) : Nat :=
  match Tbl.get? (d.fn f).low low with
  | some w => w.toNat
  | none => cur % 2 ^ 32

/-- The writable 64-bit values (R430, R476): low address and what a new value does. A DMA channel takes DESC while it does not run. -/
def Dev.wideCur (d : Dev) (low : Nat) : Option Nat :=
  if low = A.ptpIncr 0 || low = A.ptpIncr 1 then some (d.ptp ((low - 0x200000) / 0x100)).incr
  else if low = A.ptpSetSec 0 || low = A.ptpSetSec 1 || low = A.ptpStep 0 || low = A.ptpStep 1 then some (d.ctr low)
  else if (List.range 4).any fun m => A.cmpTgtSec m == low then some (d.ctr low)
  else if 0x300000 ≤ low && low < 0x300800 && low % 0x40 = 8 then some (d.dmaCh ((low - 0x300000) / 0x40)).desc
  else none

/-- A 64-bit value takes effect. -/
def Dev.wideSet (d : Dev) (low v : Nat) : Dev :=
  if low = A.ptpIncr 0 || low = A.ptpIncr 1 then d.ptpIncrSet ((low - 0x200000) / 0x100) v
  else if low = A.ptpStep 0 || low = A.ptpStep 1 then d.ptpStepBy ((low - 0x200000) / 0x100) v
  else if 0x300000 ≤ low && low < 0x300800 then
    let n := (low - 0x300000) / 0x40
    let c := d.dmaCh n
    if c.state == .run || c.state == .hold then d else d.onDma n fun c => { c with desc := v, descNew := true }
  else d.setCtr low (v % 2 ^ 48)

/-- A write of one word of a writable 64-bit value (R541). -/
def Dev.writeWide (d : Dev) (f low w : Nat) (high : Bool) : Dev :=
  if high then
    let v := d.lowOf f low ((d.wideCur low).getD 0) + 2 ^ 32 * w
    (d.onFn f fun x => { x with low := Tbl.erase x.low low }).wideSet low v
  else d.onFn f fun x => { x with low := Tbl.set x.low low (w32 w) }

/-- A field that the specification states no value for: a free value under the mask of its bits. -/
def Dev.openReg (d : Dev) (e : Nat × Nat) : Dev :=
  let (v, d) := d.draw
  d.setReg e.1 (Nat.land (v % 2 ^ 32) e.2)

/-- A 64-bit readout that the specification states no value for. -/
def Dev.openCtr (d : Dev) (a : Nat) : Dev :=
  let (v, d) := d.draw
  d.setCtr a (v % 2 ^ 64)

/-- Readouts of a select register that names no object of its die: VALID 0, and every other field open (R240, R297, R410, R412). -/
def Dev.openAll (d : Dev) (regs : List (Nat × Nat)) (ctrs : List Nat) : Dev := ctrs.foldl Dev.openCtr (regs.foldl Dev.openReg d)

/-- A write of US_ONU_SEL (Table 9-5, 9-8). -/
def Dev.selectOnu (d : Dev) (n w : Nat) : Dev :=
  let b := A.usOnuSel n
  let o := w % 65536
  let e := d.onu o
  let d := d.setReg b o
  if e.state != .absent && e.channel / 128 == n then
    let d := d.setReg (b + 4) (1 + at' e.robust 1 + 256 * (e.channel % 128))
    let d := (d.setReg (b + 8) (e.acc.rxPower + 65536 * e.acc.lock)).setReg (b + 0xC) (field 32 e.acc.offset)
    [(0x10, e.acc.bursts), (0x18, e.acc.bits), (0x20, e.acc.preFec), (0x28, e.acc.missed), (0x30, e.acc.window),
      (0x38, e.acc.tagFail1), (0x40, e.acc.tagFail2)].foldl (fun d e => d.setCtr (b + e.1) e.2) d
  else d.openAll [(b + 4, 0x7F02), (b + 8, 0xFFFFFFFF), (b + 0xC, 0xFFFFFFFF)] ((List.range 7).map fun i => b + 0x10 + 8 * i)

/-- A write of DBA_ALLOC_SEL (Table 11-7, 11-9). -/
def Dev.selectAlloc (d : Dev) (n w : Nat) : Dev :=
  let b := A.dbaAllocSel n
  let d := d.setReg b (Nat.land w 0x01FF3FFF)
  let id := w % 16384
  let t := fld w 16 9
  let here := match d.tree? t with
    | some x => x.chans.headD 512 / 128 == n
    | none => false
  match d.alloc? (allocKey t id), here with
  | some a, true =>
    let info := 1 + 2 * a.type + 8 * a.prio + at' (d.fragOpen (allocKey t id) a) 6 + at' (a.hint.isSome || a.hintNext.isSome) 7
      + at' (id == a.onu % 1024) 8 + 65536 * a.onu
    let vals := [info, sat 0xFFFFFFFF a.d, (if a.type = 0 then a.fc else a.ac) / 1024, field 32 (a.mc / 1024), sat 0xFFFFFFFF a.out,
      a.last % 2 ^ 32]
    (vals.zip (List.range 6)).foldl (fun d e => d.setReg (b + 4 + 4 * e.2) e.1) d
  | _, _ =>
    d.openAll ((b + 4, 0xFFFF01FE) :: (List.range 5).map fun i => (b + 8 + 4 * i, 0xFFFFFFFF)) []

/-- A write of POL_FLOW_SEL (Table 16-9). -/
def Dev.selectPolicer (d : Dev) (n w : Nat) : Dev :=
  let b := A.polSel n
  let f := w % 2 ^ 21
  let d := d.setReg b f
  let here := match d.flow? f with
    | some fl => bit fl.dir 1 && (d.onu fl.onu).channel / 128 == n
    | none => false
  if here then
    let p := Policer.filled (d.pol f) d.time.edges
    (((d.setReg (b + 4) 1).setReg (b + 8) (p.tokens / 1024)).setCtr (b + 0x10) p.passed).setCtr (b + 0x18) p.dropped
  else (d.setReg (b + 4) 0).openAll [(b + 8, 0xFFFFFFFF)] [b + 0x10, b + 0x18]

/-- R391: a node of the hierarchy is eligible. -/
def Dev.nodeEligible (d : Dev) (node : Nat) : Bool :=
  let i := nodeIdx node
  let ready := Node.ready (d.nodeNow (nodeOf node))
  let onu := fun (o : Nat) => (d.flowChildren o).any fun c => c.elig
  if !d.serves (d.nodeChan node) || !ready then false
  else if nodeKind node = 0 then
    match d.flow? i with
    | some fl => (d.flowChildren fl.onu).any fun c => c.idx == i && c.elig
    | none => false
  else if nodeKind node = 1 then onu i
  else (d.onuChildren i).any fun c => c.elig

/-- A write of TM_NODE_SEL (Tables 16-5, 16-6). -/
def Dev.selectNode (d : Dev) (w : Nat) : Dev :=
  let b := 0x4B00000
  let d := d.setReg A.tmNodeSel w
  if !nodeBad w && d.nodeExists w then
    let n := d.nodeNow (nodeOf w)
    let info := 1 + at' (d.nodeEligible w) 1 + at' (n.rate == 0xFFFFFFFF) 2 + 8 * n.prio + 65536 * n.weight
    let vals := [info, n.rate, n.burst, n.deficit]
    let d := (vals.zip (List.range 4)).foldl (fun d e => d.setReg (b + 8 + 4 * e.2) e.1) d
    (d.setCtr (b + 0x18) (field 64 (n.tokens / 1024))).setCtr (b + 0x20) n.sent
  else d.openAll [(b + 8, 0xFFFF003E), (b + 0xC, 0xFFFFFFFF), (b + 0x10, 0xFFFFFFFF), (b + 0x14, 0xFFFFFFFF)] [b + 0x18, b + 0x20]

/-- A write of BUF_OWNER_SEL (R389). -/
def Dev.selectOwner (d : Dev) (w : Nat) : Dev :=
  let d := d.setReg A.bufOwnerSel w
  if d.ownerExists w then
    let o := d.owner w
    (d.setReg A.bufOwnerCfg (o.prof + 256 * o.basinMax)).setReg A.bufOwnerPages o.pages
  else d.openAll [(A.bufOwnerCfg, 0xFFFFFF07), (A.bufOwnerPages, 0xFFFFFFFF)] []

/-- A write of BUF_OWNER_CFG: it takes effect for the selected owner at the next T0 (R389). -/
def Dev.writeOwnerCfg (d : Dev) (w : Nat) : Dev :=
  let v := Nat.land w 0xFFFFFF07
  let d := d.setReg A.bufOwnerCfg v
  { d with due := d.due ++ [(d.nextCommit, A.bufOwnerCfg + 2 ^ 32 * (d.reg A.bufOwnerSel + 1), w32 v)] }

/-- A write of DMA_CHn_CTRL. -/
def Dev.writeDmaCtrl (d : Dev) (n w : Nat) : Dev :=
  let d := if bit w 0 then d.dmaEnable n else d.dmaDisable n
  let d := if bit w 1 then d.dmaResume n else d
  if bit w 2 then d.dmaKick n else d

/-- A write of DMA_CHn_CFG, by PF0 and while EN is 0 (R463, R476). -/
def Dev.writeDmaCfg (d : Dev) (f n w : Nat) : Dev :=
  if f = 0 && !(d.dmaCh n).en then d.setReg (A.dmaCfg n) (Nat.land w 0x7FFF01) else d

/-- The select registers with what a write of each does. -/
def selectRegs : List (Nat × (Dev → Nat → Dev)) :=
  [(A.tmNodeSel, fun d w => d.selectNode w), (A.bufOwnerSel, fun d w => d.selectOwner w)]
    ++ (List.range 4).map (fun n => (A.usOnuSel n, fun d w => d.selectOnu n w))
    ++ (List.range 4).map (fun n => (A.dbaAllocSel n, fun d w => d.selectAlloc n w))
    ++ (List.range 4).map (fun n => (A.polSel n, fun d w => d.selectPolicer n w))

/-- R324: a write of CLS_CFG that would enable no pipeline. -/
def noPipe (a w : Nat) : Bool :=
  (List.range 6).any fun die => A.clsCfg die == a && w % (if die < 4 then 16 else 256) == 0

/-- A write of one word of a register of PF0's map. -/
def Dev.writeMap (d : Dev) (f a w : Nat) : Dev :=
  if 0x310000 ≤ a && a < 0x320000 then d.onData fun x => { x with descRam := Mem.write x.descRam (a - 0x310000) (le 4 w) }
  else if (d.wideCur a).isSome then d.writeWide f a w false
  else if 4 ≤ a && (d.wideCur (a - 4)).isSome then d.writeWide f (a - 4) w true
  else if a = A.ptpCtrl 0 || a = A.ptpCtrl 1 then d.ptpCtrlWrite ((a - 0x200000) / 0x100) (w32 w)
  else if 0x201000 ≤ a && a < 0x201100 && a % 0x40 = 0 then d.cmpWrite ((a - 0x201000) / 0x40) (w32 w)
  else if a = A.tickCtrl then
    (d.setReg a (w % 2)).onTime fun t => { t with alignReq := t.alignReq || bit w 1 }
  else if a = A.powerReq then d.powerReqWrite w
  else if a = A.perfCtrl then d.perfCtrlWrite w
  else if a = A.cryptoEngZeroise then d.engZeroise w
  else if a = A.bufOwnerCfg then d.writeOwnerCfg w
  else if noPipe a w then d
  else if 0x300000 ≤ a && a < 0x300800 && a % 0x40 = 0 then d.writeDmaCtrl ((a - 0x300000) / 0x40) w
  else if 0x300000 ≤ a && a < 0x300800 && a % 0x40 = 4 then d.writeDmaCfg f ((a - 0x300000) / 0x40) w
  else
    match (List.range 64).find? fun p => A.uplCfg p == a with
    | some p => d.uplCfgWrite p (w32 w)
    | none =>
      match selectRegs.find? fun e => e.1 == a with
      | some e => e.2 d w
      | none => d.writePlain a w

/-- A write of one word of a Kiosk register (Tables 5-1 to 5-4, R80). -/
def Dev.writeKiosk (d : Dev) (f o w : Nat) : Dev :=
  if o = 0x2000 then d.writeReqTail f (w32 w)
  else if o = 0x200C then d.writeRspHead f (w32 w)
  else if o = 0x2014 then
    let k := d.kiosk f
    let clear := Nat.land (Nat.land k.cause.toNat 0x7F) w
    let left := k.cause.toNat - clear
    let on := Nat.land left k.intEn.toNat
    let d := d.onKiosk f fun k => { k with cause := w32 left }
    let d := d.resignal (Nat.land clear kioskVec0) (Nat.land on kioskVec0) f 0
    d.resignal (Nat.land clear 2) (Nat.land on 2) f 1
  else if o = 0x2018 then d.onKiosk f fun k => { k with intEn := w32 (Nat.land w 0x7F) }
  else if o = 0x201C then (if bit w 0 then d.ringReset f else d)
  else d

/-- A write of one word of a crypto page register (Table 12-5, R316). -/
def Dev.writePageReg (d : Dev) (f o w : Nat) : Dev :=
  let guard := fun (g : Page → Page) =>
    d.onPage f fun p => if p.job.isSome then { p with writeErr := true } else g p
  if o = 0x00 then guard fun p => { p with op := w32 (Nat.land w 0x77) }
  else if o = 0x04 then guard fun p => { p with len := w32 (Nat.land w 0x7FF1FFF) }
  else if o = 0x08 then d.cryptoCtrl f w
  else if o = 0x0C then
    d.onPage f fun p => { p with done := p.done && !bit w 1, startErr := p.startErr && !bit w 2, writeErr := p.writeErr && !bit w 3 }
  else if o = 0x10 then d.onPage f fun p => { p with intEn := bit w 0 }
  else if 0x20 ≤ o && o < 0x2C then guard fun p => { p with nonce := setAt p.nonce ((o - 0x20) / 4) (w32 w) }
  else if 0x30 ≤ o && o < 0x40 then guard fun p => { p with tag := setAt p.tag ((o - 0x30) / 4) (w32 w) }
  else d

/-- A write of bytes in a crypto data area (R316). -/
def Dev.writePageArea (d : Dev) (f o : Nat) (bs : Bytes) : Dev :=
  d.onPage f fun p =>
    if p.job.isSome then { p with writeErr := true }
    else if o < 0x800 then { p with aad := Mem.write p.aad (o - 0x400) bs }
    else if o < 0x2400 then { p with inp := Mem.write p.inp (o - 0x800) bs }
    else { p with outp := Mem.write p.outp (o - 0x2400) bs }

/-- A write of one word of a counter window (Table 19-11). -/
def Dev.writeCw (d : Dev) (f o w : Nat) : Dev :=
  if !d.cwGranted f then d
  else if o = 0x00 then (if bit w 0 then d.cwSnap f else d)
  else if o = 0x04 then
    if bit w 1 && (d.fn f).cw.ready then
      let d := d.onCw f fun x => { x with ready := false }
      if f = 0 then d.resignal 1 (d.causeLeft A.perfCause A.perfIntEn) 0 42 else d
    else d
  else if o = 0x08 then d.onCw f fun x => { x with count := w % 256 }
  else if 0x100 ≤ o && o < 0x300 then d.onCw f fun x => { x with list := Tbl.put 0 x.list ((o - 0x100) / 4) (w32 w) }
  else d

/-- A write of bytes at a register's address by a function: a word outside the areas of R82, any string within one. -/
def Dev.writeReg (d : Dev) (f a : Nat) (bs : Bytes) : Dev :=
  let w := ofLe bs
  if 0x600000 ≤ a && a < 0x604000 then
    if (d.fn f).disabling then d
    else if a < 0x601000 then
      if (d.kiosk f).resetBusy then d else d.onKiosk f fun k => { k with reqMem := Mem.write k.reqMem (a - 0x600000) bs }
    else if a < 0x602000 then d
    else d.writeKiosk f (a - 0x600000) w
  else if 0x700000 ≤ a && a < 0x704000 then
    if (d.fn f).disabling then d
    else if a < 0x700400 then d.writePageReg f (a - 0x700000) w
    else d.writePageArea f (a - 0x700000) bs
  else if 0x40C000 ≤ a && a < 0x410000 then d.writeCw f (a - 0x40C000) w
  else if f != 0 && !d.pf1Sees a then d
  else d.writeMap f a w

/-- Bits of an MSI-X table word that a write stores (PCI Express Base 6.0): no low address bits, the mask bit of vector control. -/
def msixBits (o : Nat) : Nat := if o % 16 = 0 then 0xFFFFFFFC else if o % 16 = 12 then 1 else 0xFFFFFFFF

/-- A write of bytes at a place. -/
def Dev.writePlace (d : Dev) (f : Nat) (p : Place) (bs : Bytes) : Dev :=
  match p with
  | .reg a => d.writeReg f a bs
  | .msix o =>
    if o < 16 * msixCount f then
      (d.onFn f fun x => { x with msix := Tbl.put (if o % 16 = 12 then 1 else 0) x.msix o (w32 (Nat.land (ofLe bs) (msixBits o))) }).flushPending f
    else d
  | _ => d

/-! ## Errors and held accesses (R86 to R89) -/

/-- R89: an error of a host access: the record, the count, vector 35 and the log entry. Cause 0 domain off, 1 not up within the hold,
2 malformed. -/
def Dev.accessError (d : Dev) (f off : Nat) (write : Bool) (cause dom : Nat) : Dev :=
  let win := nb (f != 0)
  let d := if bit (d.reg A.daeInfo) 0 then d
    else (d.setReg A.daeAddr off).setReg A.daeInfo (1 + 2 * nb write + 4 * cause + 16 * win + 256 * dom + 65536 * f)
  let d := (d.bumpSat A.daeCount).raise 0 35
  let again := match Tbl.get? d.daeLogged f with
    | some t => decide (t + 1000000 ≤ d.uptimeNs)
    | none => true
  if again then
    ({ d with daeLogged := Tbl.set d.daeLogged f d.uptimeNs }).log 0x0301 6 (le 1 f ++ le 1 cause ++ le 1 dom ++ le 1 win ++ le 4 off)
  else d

/-- An access reaches a domain that is on. -/
def Dev.access (d : Dev) (f : Nat) (h : Held) : Dev :=
  match h.data with
  | some bs => d.writePlace f (locate f h.bar h.off).1 bs
  | none =>
    let (bs, d) := d.readHeld f h
    d.emit (.completion f bs)

/-- An access that the domain does not serve: a read returns 0xFFFF_FFFF, a write is discarded. -/
def Dev.accessFail (d : Dev) (f : Nat) (h : Held) (cause : Nat) : Dev :=
  let d := if h.data.isSome then d else d.emit (.completion f (Held.enabled h (List.replicate h.len 0xFF)))
  d.accessError f h.off h.data.isSome cause h.domain

/-- The access is not held: WAKE_ON_ACCESS is 0, or the domain belongs to a failed die. -/
def Dev.noHold (d : Dev) (h : Held) : Bool := !bit (d.reg A.globalCtrl) 0 || d.domFailed h.domain

/-- R83, R86, R88: an access arrives. It waits in the port behind 16 held ones, behind an earlier access to its domain that waits, or,
a read, behind an earlier write that waits; else it meets its domain. -/
def Dev.hostArrive (d : Dev) (f : Nat) (h : Held) : Dev :=
  let l := (d.fn f).held
  let h := { h with at' := d.time.now }
  let queue := fun (d : Dev) => d.onFn f fun x => { x with held := x.held ++ [h] }
  if 16 ≤ l.length || l.any (fun e => e.domain == h.domain || (h.data.isNone && e.data.isSome)) then queue d
  else if d.domOn h.domain then d.access f h
  else if d.noHold h then d.accessFail f h 0
  else Dev.afterChange 4 ((queue d).wake 4 0 (some h.domain))

/-- R88: the access that now takes the sixteenth place has arrived, after one in front has left. -/
def Dev.promote (f : Nat) : Nat → Dev → Dev
  | 0, d => d
  | k + 1, d =>
    match (d.fn f).held[15]? with
    | none => d
    | some h =>
      let h := { h with at' := d.time.now }
      if d.domOn h.domain then d.onFn f fun x => { x with held := setAt x.held 15 h }
      else if d.noHold h then Dev.promote f k ((d.onFn f fun x => { x with held := x.held.eraseIdx 15 }).accessFail f h 0)
      else Dev.afterChange 4 ((d.onFn f fun x => { x with held := setAt x.held 15 h }).wake 4 0 (some h.domain))

/-- The held access at a place leaves the port. -/
def Dev.unhold (d : Dev) (f i : Nat) : Dev :=
  Dev.promote f (d.fn f).held.length (d.onFn f fun x => { x with held := x.held.eraseIdx i })

/-- The domain of a held access came up within 20 µs of its arrival (R86, R484). -/
def Dev.heldInTime (d : Dev) (h : Held) : Bool := d.domOn h.domain && decide (Tbl.look 0 d.power.upAt h.domain ≤ h.at' + 20000)

/-- First held access that may complete: its domain is up in time, and it is no read behind a write. -/
def Dev.heldReady (d : Dev) (f : Nat) : Option Nat :=
  let l := ((d.fn f).held).take 16
  (List.range l.length).find? fun i =>
    match l[i]? with
    | some h => d.heldInTime h && !(h.data.isNone && (l.take i).any fun e => e.data.isSome)
    | none => false

/-- R65: after a stopped start-up, only the GLOBAL block answers. -/
def Dev.stopped (d : Dev) (bar off : Nat) : Bool := d.boot.stage == 7 && !(bar == 0 && decide (off < 0x100000))

/-- A host write of bytes at an offset of a BAR; `whole` says that every byte enable is set (R82). -/
def Dev.hostWrite (d : Dev) (f bar off : Nat) (data : Bytes) (whole : Bool) : Dev :=
  if !d.barUp f || d.stopped bar off then d
  else
    let (p, dom) := locate f bar off
    let n := data.length
    let put := fun (d : Dev) (o : Nat) (bs : Bytes) => d.hostArrive f { bar := bar, off := o, domain := dom, data := some bs, at' := 0 }
    if inArea p n then (if n ≤ (d.fn f).mps then put d off data else d)
    else if whole && (n == 4 || n == 8) && off % n == 0 then
      let d := put d off (data.take 4)
      if n = 8 then put d (off + 4) (data.drop 4) else d
    else d.accessError f off true 2 0

/-- A host read of `len` bytes at an offset of a BAR; `be` has a bit for each byte enable of a read of 4 or 8 bytes (R82). A function
that does not answer completes it with Unsupported Request (R63). -/
def Dev.hostRead (d : Dev) (f bar off len be : Nat) : Dev :=
  if !d.barUp f then (if d.pcie.linkUp then d.emit (.unsupported f) else d)
  else
    let (p, dom) := locate f bar off
    let get := fun (d : Dev) (o n be : Nat) => d.hostArrive f { bar := bar, off := o, domain := dom, data := none, len := n, be := be, at' := 0 }
    if d.stopped bar off then d.emit (.completion f (List.replicate len 0xFF))
    else if inArea p len && decide (len ≤ (d.fn f).mps) then get d off len 0xF
    else if !inArea p len && len == 4 && off % 4 == 0 then get d off 4 be
    else if !inArea p len && len == 8 && off % 8 == 0 && be % 256 == 0xFF then get (get d off 4 0xF) (off + 4) 4 0xF
    else (d.emit (.abort f)).accessError f off false 2 0

/-- A host write of one word in a function's BAR0. -/
def Dev.hostWord (d : Dev) (f off w : Nat) : Dev := d.hostWrite f 0 off (le 4 w) true

/-- An address that a function's BAR implements. -/
def inBar (f bar off : Nat) : Bool := decide (f < 64) && decide (off < barSize f bar)

/-! ## Rows that are host accesses -/

/-- REGISTER_WRITE. -/
def execRegisterWrite (func bar off : Nat) (data : Bytes) (whole : Bool) (s : State) : Host.Outcome State Fault Refusal :=
  act (inBar func bar off) (fun d => d.hostWrite func bar off data whole) s

/-- READ_CLEAR_REGISTER_READ: a host read at any offset; an RC field is cleared (R9). -/
def execReadClearRegisterRead (func bar off len be : Nat) (s : State) : Host.Outcome State Fault Refusal :=
  act (inBar func bar off) (fun d => d.hostRead func bar off len be) s

/-- LOW_WORD_READ: a host read of the low word of a pair, which stands at a multiple of 8. -/
def execLowWordRead (func bar off : Nat) (s : State) : Host.Outcome State Fault Refusal :=
  act (inBar func bar off && off % 8 == 0) (fun d => d.hostRead func bar off 4 0xF) s

/-- The place is a word of a writable 64-bit value. -/
def isWide (func bar off : Nat) (high : Bool) : Bool :=
  match (locate func bar off).1 with
  | .reg a => (Dev.wideCur {} (if high then a - 4 else a)).isSome && a % 8 == (if high then 4 else 0)
  | _ => false

/-- WIDE_LOW_WORD_WRITE. -/
def execWideLowWordWrite (func bar off : Nat) (word : W32) (s : State) : Host.Outcome State Fault Refusal :=
  act (inBar func bar off && isWide func bar off false) (fun d => d.hostWrite func bar off (le 4 word.toNat) true) s

/-- WIDE_HIGH_WORD_WRITE. -/
def execWideHighWordWrite (func bar off : Nat) (word : W32) (s : State) : Host.Outcome State Fault Refusal :=
  act (inBar func bar off && isWide func bar off true) (fun d => d.hostWrite func bar off (le 4 word.toNat) true) s

/-- HELD_ACCESS_COMPLETE: the oldest held access of the function whose domain has come up in time. -/
def execHeldAccessComplete (func : Nat) (s : State) : Host.Outcome State Fault Refusal :=
  act (decide (func < 64)) (fun d =>
    match d.heldReady func with
    | some i =>
      match (d.fn func).held[i]? with
      | some h => (d.unhold func i).access func h
      | none => d
    | none => d) s

/-- HELD_ACCESS_TIMEOUT: the oldest held access whose domain is not up 20 µs after its arrival. -/
def execHeldAccessTimeout (func : Nat) (s : State) : Host.Outcome State Fault Refusal :=
  act (decide (func < 64)) (fun d =>
    match findIdx (fun h => !d.heldInTime h) (((d.fn func).held).take 16) with
    | some i =>
      match (d.fn func).held[i]? with
      | some h => d.timer (h.at' + 20000) fun d => (d.unhold func i).accessFail func h 1
      | none => d
    | none => d) s

/-- KIOSK_REQ_TAIL_WRITE. -/
def execKioskReqTailWrite (func : Nat) (word : W32) (s : State) : Host.Outcome State Fault Refusal :=
  act (decide (func < 64)) (fun d => d.hostWord func (kioskOff func 0x2000) word.toNat) s

/-- KIOSK_RSP_HEAD_WRITE. -/
def execKioskRspHeadWrite (func : Nat) (word : W32) (s : State) : Host.Outcome State Fault Refusal :=
  act (decide (func < 64)) (fun d => d.hostWord func (kioskOff func 0x200C) word.toNat) s

/-- RING_RESET: a write of KIOSK_CTRL with RING_RESET = 1. -/
def execRingReset (func : Nat) (s : State) : Host.Outcome State Fault Refusal :=
  act (decide (func < 64)) (fun d => d.hostWord func (kioskOff func 0x201C) 1) s

/-- CRYPTO_START: a write of CRYPTO_CTRL with START = 1. -/
def execCryptoStart (func : Nat) (s : State) : Host.Outcome State Fault Refusal :=
  act (decide (func < 64)) (fun d => d.hostWord func (pageOff func 8) 1) s

/-- CRYPTO_CLEAR: a write of CRYPTO_CTRL with CLEAR bits. -/
def execCryptoClear (func slots : Nat) (s : State) : Host.Outcome State Fault Refusal :=
  act (decide (func < 64)) (fun d => d.hostWord func (pageOff func 8) (256 * (slots % 256))) s

/-- CRYPTO_ZEROISE_PAGE: a write of CRYPTO_ENG_ZEROISE with bit 8. -/
def execCryptoZeroisePage (func : Nat) (s : State) : Host.Outcome State Fault Refusal :=
  act (decide (func < 64)) (fun d => d.hostWord 0 A.cryptoEngZeroise (func + 0x100)) s

/-- CRYPTO_ZEROISE_ALL: a write of CRYPTO_ENG_ZEROISE with bit 9. -/
def execCryptoZeroiseAll (s : State) : Host.Outcome State Fault Refusal :=
  act true (fun d => d.hostWord 0 A.cryptoEngZeroise 0x200) s

/-- A write of DMA_CHn_CTRL: by PF0, or by PF1 where it owns the channel and PF0 does not answer. -/
def Dev.dmaCtrl (d : Dev) (n w : Nat) : Dev :=
  if d.barUp 0 then d.hostWord 0 (A.dma n 0) w else d.hostWord 1 (0x10000 + 0x40 * n) w

/-- DMA_ENABLE: EN = 1. -/
def execDmaEnable (channel : Nat) (s : State) : Host.Outcome State Fault Refusal :=
  act (decide (channel < 32)) (fun d => d.dmaCtrl channel 1) s

/-- DMA_DISABLE: EN = 0. -/
def execDmaDisable (channel : Nat) (s : State) : Host.Outcome State Fault Refusal :=
  act (decide (channel < 32)) (fun d => d.dmaCtrl channel 0) s

/-- DMA_RESUME: RESUME = 1, EN as it stands. -/
def execDmaResume (channel : Nat) (s : State) : Host.Outcome State Fault Refusal :=
  act (decide (channel < 32)) (fun d => d.dmaCtrl channel (2 + nb (d.dmaCh channel).en)) s

/-- DMA_KICK: KICK = 1, EN as it stands. -/
def execDmaKick (channel : Nat) (s : State) : Host.Outcome State Fault Refusal :=
  act (decide (channel < 32)) (fun d => d.dmaCtrl channel (4 + nb (d.dmaCh channel).en)) s

/-- CMP_ARM: a write of CMP_m_CTRL. -/
def execCmpArm (unit : Nat) (word : W32) (s : State) : Host.Outcome State Fault Refusal :=
  act (decide (unit < 4)) (fun d => d.hostWord 0 (A.cmpCtrl unit) word.toNat) s

/-- PTP_NOW_FRAC_READ. -/
def execPtpNowFracRead (domain : Nat) (s : State) : Host.Outcome State Fault Refusal :=
  act (decide (domain < 2)) (fun d => d.hostRead 0 0 (A.ptpNowFrac domain) 4 0xF) s

/-- PTP_LOAD: a write of PTP_x_CTRL with LOAD = 1, LOCKED as it stands. -/
def execPtpLoad (domain : Nat) (s : State) : Host.Outcome State Fault Refusal :=
  act (decide (domain < 2)) (fun d => d.hostWord 0 (A.ptpCtrl domain) (2 + nb (d.ptpLocked domain))) s

/-- PTP_STEP: a write of the high word of PTP_x_STEP. -/
def execPtpStep (domain : Nat) (high : W32) (s : State) : Host.Outcome State Fault Refusal :=
  act (decide (domain < 2)) (fun d => d.hostWord 0 (A.ptpStep domain + 4) high.toNat) s

/-- PTP_INCR_WRITE: a write of the high word of PTP_x_INCR. -/
def execPtpIncrWrite (domain : Nat) (high : W32) (s : State) : Host.Outcome State Fault Refusal :=
  act (decide (domain < 2)) (fun d => d.hostWord 0 (A.ptpIncr domain + 4) high.toNat) s

/-- ALIGN_REQ: a write of TICK_CTRL with ALIGN_REQ = 1, ALIGN_EN as it stands. -/
def execAlignReq (s : State) : Host.Outcome State Fault Refusal :=
  act true (fun d => d.hostWord 0 A.tickCtrl (2 + d.reg A.tickCtrl % 2)) s

/-- POWER_REQ_GO: a write of POWER_REQ with GO = 1. -/
def execPowerReqGo (state : Nat) (s : State) : Host.Outcome State Fault Refusal :=
  act (decide (state < 4)) (fun d => d.hostWord 0 A.powerReq (2 ^ 31 + state)) s

/-- UPL_CFG_EN_CLEAR: a write of UPL_q_CFG with EN = 0, the rest as it stands. -/
def execUplCfgEnClear (port : Nat) (s : State) : Host.Outcome State Fault Refusal :=
  act (decide (port < 64)) (fun d => d.hostWord 0 (A.uplCfg port) (withBit (d.reg (A.uplCfg port)) 0 false)) s

/-- UPL_CFG_MODE_WRITE: a write of UPL_q_CFG with another MODE, the rest as it stands. -/
def execUplCfgModeWrite (port mode : Nat) (s : State) : Host.Outcome State Fault Refusal :=
  act (decide (port < 64) && decide (mode < 4)) (fun d =>
    let w := d.reg (A.uplCfg port)
    d.hostWord 0 (A.uplCfg port) (w - 2 * fld w 1 2 + 2 * mode)) s

/-- UPL_CFG_EN_SET: a write of UPL_q_CFG with EN = 1, the rest as it stands. -/
def execUplCfgEnSet (port : Nat) (s : State) : Host.Outcome State Fault Refusal :=
  act (decide (port < 64)) (fun d => d.hostWord 0 (A.uplCfg port) (withBit (d.reg (A.uplCfg port)) 0 true)) s

/-- TSF_HEAD_READ: a read of UPL_TSF_s_HEAD. -/
def execTsfHeadRead (sp : Nat) (s : State) : Host.Outcome State Fault Refusal :=
  act (decide (sp < 512)) (fun d => d.hostRead 0 0 (A.tsfHead sp) 4 0xF) s

/-- PERF_FREEZE_SET: a write of PERF_CTRL with FREEZE = 1, the stored fields as they stand. -/
def execPerfFreezeSet (s : State) : Host.Outcome State Fault Refusal :=
  act true (fun d => d.hostWord 0 A.perfCtrl (withBit (d.reg A.perfCtrl) 0 true)) s

/-- PERF_SNAP: a write of PERF_CTRL with SNAP = 1, the stored fields as they stand. -/
def execPerfSnap (s : State) : Host.Outcome State Fault Refusal :=
  act true (fun d => d.hostWord 0 A.perfCtrl (withBit (d.reg A.perfCtrl) 1 true)) s

/-- PERF_CLEAR: a write of PERF_CTRL with CLEAR = 1, the stored fields as they stand. -/
def execPerfClear (s : State) : Host.Outcome State Fault Refusal :=
  act true (fun d => d.hostWord 0 A.perfCtrl (withBit (d.reg A.perfCtrl) 2 true)) s

/-- CW_SNAP: a write of CW_CTRL with SNAP = 1. -/
def execCwSnap (func : Nat) (s : State) : Host.Outcome State Fault Refusal :=
  act (decide (func < 64)) (fun d => d.hostWord func (cwOff func 0) 1) s

/-- SELECT_REGISTER_WRITE: a write of a select register, named by its PF0 BAR0 address. -/
def execSelectRegisterWrite (addr : Nat) (word : W32) (s : State) : Host.Outcome State Fault Refusal :=
  act (selectRegs.any fun e => e.1 == addr) (fun d => d.hostWord 0 addr word.toNat) s

end Sys2Proof.Machine
end

