-- ==== Sys2Proof/Machine/Dispatch.lean ====
section
/-! DEFINITION. The dispatch: one arm per command, one direct call of its meaning. -/

namespace Sys2Proof.Machine

/-- The effect of a command on everything but the queue. -/
def exec (i : Instr) (s : State) : Host.Outcome State Fault Refusal :=
  match i with
  | .sysResetNRise straps testEn avs0 avs1 rails => Sys2Proof.Machine.execSysResetNRise straps testEn avs0 avs1 rails s
  | .sysResetNAssert => Sys2Proof.Machine.execSysResetNAssert s
  | .railCheck rails => Sys2Proof.Machine.execRailCheck rails s
  | .fuseReadDone chanEn extEn corrected keyHashOk uncorrectable fused => Sys2Proof.Machine.execFuseReadDone chanEn extEn corrected keyHashOk uncorrectable fused s
  | .memoryInitDone failed => Sys2Proof.Machine.execMemoryInitDone failed s
  | .imageLoadDone flashOk dir0 dir1 slotA slotB config => Sys2Proof.Machine.execImageLoadDone flashOk dir0 dir1 slotA slotB config s
  | .firmwareReady recA recB recOk lastLog => Sys2Proof.Machine.execFirmwareReady recA recB recOk lastLog s
  | .firmwareReadyTimeout => Sys2Proof.Machine.execFirmwareReadyTimeout s
  | .pciePerstNAssert => Sys2Proof.Machine.execPciePerstNAssert s
  | .pciePerstNRelease => Sys2Proof.Machine.execPciePerstNRelease s
  | .pcieHotReset => Sys2Proof.Machine.execPcieHotReset s
  | .pcieLinkDisable => Sys2Proof.Machine.execPcieLinkDisable s
  | .pcieDataLinkLoss => Sys2Proof.Machine.execPcieDataLinkLoss s
  | .functionLevelReset func => Sys2Proof.Machine.execFunctionLevelReset func s
  | .busMasterEnableClear func => Sys2Proof.Machine.execBusMasterEnableClear func s
  | .d3hotEntry func => Sys2Proof.Machine.execD3hotEntry func s
  | .vfEnableClear => Sys2Proof.Machine.execVfEnableClear s
  | .vfEnableSet numVfs => Sys2Proof.Machine.execVfEnableSet numVfs s
  | .disableSequenceDone func => Sys2Proof.Machine.execDisableSequenceDone func s
  | .registerWrite func bar off data whole => Sys2Proof.Machine.execRegisterWrite func bar off data whole s
  | .readClearRegisterRead func bar off len be => Sys2Proof.Machine.execReadClearRegisterRead func bar off len be s
  | .lowWordRead func bar off => Sys2Proof.Machine.execLowWordRead func bar off s
  | .wideLowWordWrite func bar off word => Sys2Proof.Machine.execWideLowWordWrite func bar off word s
  | .wideHighWordWrite func bar off word => Sys2Proof.Machine.execWideHighWordWrite func bar off word s
  | .heldAccessComplete func => Sys2Proof.Machine.execHeldAccessComplete func s
  | .heldAccessTimeout func => Sys2Proof.Machine.execHeldAccessTimeout func s
  | .kioskReqTailWrite func word => Sys2Proof.Machine.execKioskReqTailWrite func word s
  | .kioskRspHeadWrite func word => Sys2Proof.Machine.execKioskRspHeadWrite func word s
  | .ringReset func => Sys2Proof.Machine.execRingReset func s
  | .ringResetDone func => Sys2Proof.Machine.execRingResetDone func s
  | .kioskTakeRequest dt => Sys2Proof.Machine.execKioskTakeRequest dt s
  | .hello m => Sys2Proof.Machine.execHello m s
  | .sysGetInfo m => Sys2Proof.Machine.execSysGetInfo m s
  | .sysSubscribe m => Sys2Proof.Machine.execSysSubscribe m s
  | .sysEcho m => Sys2Proof.Machine.execSysEcho m s
  | .sysRestart m => Sys2Proof.Machine.execSysRestart m s
  | .powerSetState m => Sys2Proof.Machine.execPowerSetState m s
  | .powerGetState m => Sys2Proof.Machine.execPowerGetState m s
  | .powerSetWake m => Sys2Proof.Machine.execPowerSetWake m s
  | .powerGetRails m => Sys2Proof.Machine.execPowerGetRails m s
  | .chanConfig m => Sys2Proof.Machine.execChanConfig m s
  | .chanSetState m => Sys2Proof.Machine.execChanSetState m s
  | .chanTuneTimeout func => Sys2Proof.Machine.execChanTuneTimeout func s
  | .chanGet m => Sys2Proof.Machine.execChanGet m s
  | .treeCreate m => Sys2Proof.Machine.execTreeCreate m s
  | .treeDelete m => Sys2Proof.Machine.execTreeDelete m s
  | .treeGet m => Sys2Proof.Machine.execTreeGet m s
  | .engineGet m => Sys2Proof.Machine.execEngineGet m s
  | .engineI2c m => Sys2Proof.Machine.execEngineI2c m s
  | .onuList m => Sys2Proof.Machine.execOnuList m s
  | .onuAuthorise m => Sys2Proof.Machine.execOnuAuthorise m s
  | .onuSuspend m => Sys2Proof.Machine.execOnuSuspend m s
  | .onuDeregister m => Sys2Proof.Machine.execOnuDeregister m s
  | .onuGet m => Sys2Proof.Machine.execOnuGet m s
  | .onuMigrate m => Sys2Proof.Machine.execOnuMigrate m s
  | .onuDiscLimit m => Sys2Proof.Machine.execOnuDiscLimit m s
  | .omciSend m => Sys2Proof.Machine.execOmciSend m s
  | .omciRecv m => Sys2Proof.Machine.execOmciRecv m s
  | .omciHandleExpiry handle => Sys2Proof.Machine.execOmciHandleExpiry handle s
  | .flowCreate m => Sys2Proof.Machine.execFlowCreate m s
  | .flowDelete m => Sys2Proof.Machine.execFlowDelete m s
  | .flowGet m => Sys2Proof.Machine.execFlowGet m s
  | .allocSet m => Sys2Proof.Machine.execAllocSet m s
  | .allocDelete m => Sys2Proof.Machine.execAllocDelete m s
  | .allocGet m => Sys2Proof.Machine.execAllocGet m s
  | .dbaHint m => Sys2Proof.Machine.execDbaHint m s
  | .dbaPolicy m => Sys2Proof.Machine.execDbaPolicy m s
  | .keyRoll m => Sys2Proof.Machine.execKeyRoll m s
  | .keyGet m => Sys2Proof.Machine.execKeyGet m s
  | .keyPolicy m => Sys2Proof.Machine.execKeyPolicy m s
  | .keyExchange m => Sys2Proof.Machine.execKeyExchange m s
  | .pageKeyUnwrap m => Sys2Proof.Machine.execPageKeyUnwrap m s
  | .ruleWrite m => Sys2Proof.Machine.execRuleWrite m s
  | .patternWrite m => Sys2Proof.Machine.execPatternWrite m s
  | .ruleRead m => Sys2Proof.Machine.execRuleRead m s
  | .ruleCopy m => Sys2Proof.Machine.execRuleCopy m s
  | .ruleSwap m => Sys2Proof.Machine.execRuleSwap m s
  | .ruleStatus m => Sys2Proof.Machine.execRuleStatus m s
  | .excClassSet m => Sys2Proof.Machine.execExcClassSet m s
  | .excClassGet m => Sys2Proof.Machine.execExcClassGet m s
  | .routeAdd m => Sys2Proof.Machine.execRouteAdd m s
  | .routeDelete m => Sys2Proof.Machine.execRouteDelete m s
  | .routeBatch m => Sys2Proof.Machine.execRouteBatch m s
  | .routeGet m => Sys2Proof.Machine.execRouteGet m s
  | .nhSet m => Sys2Proof.Machine.execNhSet m s
  | .emRead m => Sys2Proof.Machine.execEmRead m s
  | .emRestore m => Sys2Proof.Machine.execEmRestore m s
  | .ageSet m => Sys2Proof.Machine.execAgeSet m s
  | .shaperSet m => Sys2Proof.Machine.execShaperSet m s
  | .shaperGet m => Sys2Proof.Machine.execShaperGet m s
  | .policerSet m => Sys2Proof.Machine.execPolicerSet m s
  | .schedSet m => Sys2Proof.Machine.execSchedSet m s
  | .bufQuotaSet m => Sys2Proof.Machine.execBufQuotaSet m s
  | .bufQuotaGet m => Sys2Proof.Machine.execBufQuotaGet m s
  | .gateWrite m => Sys2Proof.Machine.execGateWrite m s
  | .gateCommit m => Sys2Proof.Machine.execGateCommit m s
  | .preemptSet m => Sys2Proof.Machine.execPreemptSet m s
  | .redConfig m => Sys2Proof.Machine.execRedConfig m s
  | .redGet m => Sys2Proof.Machine.execRedGet m s
  | .redSwitch m => Sys2Proof.Machine.execRedSwitch m s
  | .redResync m => Sys2Proof.Machine.execRedResync m s
  | .redPairKey m => Sys2Proof.Machine.execRedPairKey m s
  | .timeSelect m => Sys2Proof.Machine.execTimeSelect m s
  | .timeGet m => Sys2Proof.Machine.execTimeGet m s
  | .ptpPortSet m => Sys2Proof.Machine.execPtpPortSet m s
  | .todSet m => Sys2Proof.Machine.execTodSet m s
  | .synceSet m => Sys2Proof.Machine.execSynceSet m s
  | .measOnu m => Sys2Proof.Machine.execMeasOnu m s
  | .measChan m => Sys2Proof.Machine.execMeasChan m s
  | .otdrStart m => Sys2Proof.Machine.execOtdrStart m s
  | .otdrStatus m => Sys2Proof.Machine.execOtdrStatus m s
  | .otdrRead m => Sys2Proof.Machine.execOtdrRead m s
  | .sensorRead m => Sys2Proof.Machine.execSensorRead m s
  | .logRead m => Sys2Proof.Machine.execLogRead m s
  | .updBegin m => Sys2Proof.Machine.execUpdBegin m s
  | .updWrite m => Sys2Proof.Machine.execUpdWrite m s
  | .updCommit m => Sys2Proof.Machine.execUpdCommit m s
  | .updStatus m => Sys2Proof.Machine.execUpdStatus m s
  | .updRollback m => Sys2Proof.Machine.execUpdRollback m s
  | .tenantBind m => Sys2Proof.Machine.execTenantBind m s
  | .tenantUnbind m => Sys2Proof.Machine.execTenantUnbind m s
  | .tenantSetQuota m => Sys2Proof.Machine.execTenantSetQuota m s
  | .tenantGet m => Sys2Proof.Machine.execTenantGet m s
  | .counterGrant m => Sys2Proof.Machine.execCounterGrant m s
  | .tickEdge late => Sys2Proof.Machine.execTickEdge late s
  | .swapDrainEnd => Sys2Proof.Machine.execSwapDrainEnd s
  | .alignmentStep => Sys2Proof.Machine.execAlignmentStep s
  | .alignReq => Sys2Proof.Machine.execAlignReq s
  | .frameDriftCheck die drift => Sys2Proof.Machine.execFrameDriftCheck die drift s
  | .bclStateRefresh engine => Sys2Proof.Machine.execBclStateRefresh engine s
  | .bclTelemetryFrame engine intact flags records => Sys2Proof.Machine.execBclTelemetryFrame engine intact flags records s
  | .bclLinkDown engine => Sys2Proof.Machine.execBclLinkDown engine s
  | .bclLinkUpTimeout engine => Sys2Proof.Machine.execBclLinkUpTimeout engine s
  | .refclkLoss clock => Sys2Proof.Machine.execRefclkLoss clock s
  | .refclkReturn clock => Sys2Proof.Machine.execRefclkReturn clock s
  | .ptpRefDiffMeasure diff => Sys2Proof.Machine.execPtpRefDiffMeasure diff s
  | .dieLinkFlitCrcFail link atPolder same replayed => Sys2Proof.Machine.execDieLinkFlitCrcFail link atPolder same replayed s
  | .dieLinkRetrainDone link ok => Sys2Proof.Machine.execDieLinkRetrainDone link ok s
  | .dieLinkFailed link => Sys2Proof.Machine.execDieLinkFailed link s
  | .uplinkFrameRx sp frame overrun fecCorr fecUncorr => Sys2Proof.Machine.execUplinkFrameRx sp frame overrun fecCorr fecUncorr s
  | .burstLocked channel onu mf lock offset collision => Sys2Proof.Machine.execBurstLocked channel onu mf lock offset collision s
  | .burstMissed channel onu => Sys2Proof.Machine.execBurstMissed channel onu s
  | .burstOutsideWindow channel onu => Sys2Proof.Machine.execBurstOutsideWindow channel onu s
  | .quietWindowBurst channel win offset => Sys2Proof.Machine.execQuietWindowBurst channel win offset s
  | .codewordDecoded channel info corrected uncorrectable items => Sys2Proof.Machine.execCodewordDecoded channel info corrected uncorrectable items s
  | .poisonedTailArrival die src => Sys2Proof.Machine.execPoisonedTailArrival die src s
  | .reassemblyTimeout onu xgem => Sys2Proof.Machine.execReassemblyTimeout onu xgem s
  | .rogueDetect channel kind onu => Sys2Proof.Machine.execRogueDetect channel kind onu s
  | .serialNumberRx channel serial => Sys2Proof.Machine.execSerialNumberRx channel serial s
  | .discoveryHoldExpiry onu => Sys2Proof.Machine.execDiscoveryHoldExpiry onu s
  | .rangingResponse onu => Sys2Proof.Machine.execRangingResponse onu s
  | .activationStepTimeout onu => Sys2Proof.Machine.execActivationStepTimeout onu s
  | .registrationRx onu regId => Sys2Proof.Machine.execRegistrationRx onu regId s
  | .extCapsRx onu caps tuneDs tuneUs tuneMs => Sys2Proof.Machine.execExtCapsRx onu caps tuneDs tuneUs tuneMs s
  | .activationComplete onu => Sys2Proof.Machine.execActivationComplete onu s
  | .dyingGasp onu => Sys2Proof.Machine.execDyingGasp onu s
  | .eqdDriftBlock onu => Sys2Proof.Machine.execEqdDriftBlock onu s
  | .spreadIntegrationEnd channel detections => Sys2Proof.Machine.execSpreadIntegrationEnd channel detections s
  | .extTuneRespRx onu seq code offset => Sys2Proof.Machine.execExtTuneRespRx onu seq code offset s
  | .extTuneRespTimeout onu => Sys2Proof.Machine.execExtTuneRespTimeout onu s
  | .migrationRollbackExpiry onu => Sys2Proof.Machine.execMigrationRollbackExpiry onu s
  | .fenceTokenArrival die onu => Sys2Proof.Machine.execFenceTokenArrival die onu s
  | .fenceWaitTimeout die onu => Sys2Proof.Machine.execFenceWaitTimeout die onu s
  | .keyRollStart onu channel => Sys2Proof.Machine.execKeyRollStart onu channel s
  | .keyRequestRepeat onu channel => Sys2Proof.Machine.execKeyRequestRepeat onu channel s
  | .keyRollRetry onu channel => Sys2Proof.Machine.execKeyRollRetry onu channel s
  | .onuKeyRx onu key => Sys2Proof.Machine.execOnuKeyRx onu key s
  | .oldKeyExpiry onu channel => Sys2Proof.Machine.execOldKeyExpiry onu channel s
  | .recirculatePass die => Sys2Proof.Machine.execRecirculatePass die s
  | .reorderTimeout die src => Sys2Proof.Machine.execReorderTimeout die src s
  | .fragmentDecisionExpiry die => Sys2Proof.Machine.execFragmentDecisionExpiry die s
  | .fragmentHoldTimeout die => Sys2Proof.Machine.execFragmentHoldTimeout die s
  | .learnRequest die => Sys2Proof.Machine.execLearnRequest die s
  | .agingVisit die hit => Sys2Proof.Machine.execAgingVisit die hit s
  | .eccScrub mem die index uncorrectable vrf af len pfx stage => Sys2Proof.Machine.execEccScrub mem die index uncorrectable vrf af len pfx stage s
  | .heldBufferGrant pool => Sys2Proof.Machine.execHeldBufferGrant pool s
  | .bufferHoldExpiry die => Sys2Proof.Machine.execBufferHoldExpiry die s
  | .bufferFree pool index tag => Sys2Proof.Machine.execBufferFree pool index tag s
  | .bufferReclaimSweep => Sys2Proof.Machine.execBufferReclaimSweep s
  | .basinStageRead kind index cls bad => Sys2Proof.Machine.execBasinStageRead kind index cls bad s
  | .basinStackDrainEnd stack => Sys2Proof.Machine.execBasinStackDrainEnd stack s
  | .downstreamSelect channel pos space => Sys2Proof.Machine.execDownstreamSelect channel pos space s
  | .uplinkFrameStart sp => Sys2Proof.Machine.execUplinkFrameStart sp s
  | .gateEntryChange sp => Sys2Proof.Machine.execGateEntryChange sp s
  | .gateListChange sp => Sys2Proof.Machine.execGateListChange sp s
  | .preemptVerify sp answered => Sys2Proof.Machine.execPreemptVerify sp answered s
  | .uplinkLinkUp sp deskew inverted miswire => Sys2Proof.Machine.execUplinkLinkUp sp deskew inverted miswire s
  | .uplinkLinkDown sp signal locked => Sys2Proof.Machine.execUplinkLinkDown sp signal locked s
  | .laneFaultCheck lane fault => Sys2Proof.Machine.execLaneFaultCheck lane fault s
  | .uplCfgEnClear port => Sys2Proof.Machine.execUplCfgEnClear port s
  | .uplCfgModeWrite port mode => Sys2Proof.Machine.execUplCfgModeWrite port mode s
  | .tsfHeadRead sp => Sys2Proof.Machine.execTsfHeadRead sp s
  | .synceOutputReturn sluice => Sys2Proof.Machine.execSynceOutputReturn sluice s
  | .ptpNowFracRead domain => Sys2Proof.Machine.execPtpNowFracRead domain s
  | .ptpLoad domain => Sys2Proof.Machine.execPtpLoad domain s
  | .ptpStep domain high => Sys2Proof.Machine.execPtpStep domain high s
  | .ptpIncrWrite domain high => Sys2Proof.Machine.execPtpIncrWrite domain high s
  | .cmpArm unit word => Sys2Proof.Machine.execCmpArm unit word s
  | .compareFire unit => Sys2Proof.Machine.execCompareFire unit s
  | .cryptoStart func => Sys2Proof.Machine.execCryptoStart func s
  | .cryptoClear func slots => Sys2Proof.Machine.execCryptoClear func slots s
  | .cryptoOperationDone func => Sys2Proof.Machine.execCryptoOperationDone func s
  | .cryptoZeroisePage func => Sys2Proof.Machine.execCryptoZeroisePage func s
  | .cryptoZeroiseAll => Sys2Proof.Machine.execCryptoZeroiseAll s
  | .dmaEnable channel => Sys2Proof.Machine.execDmaEnable channel s
  | .dmaDisable channel => Sys2Proof.Machine.execDmaDisable channel s
  | .dmaResume channel => Sys2Proof.Machine.execDmaResume channel s
  | .dmaKick channel => Sys2Proof.Machine.execDmaKick channel s
  | .dmaDescriptorFetch channel desc more => Sys2Proof.Machine.execDmaDescriptorFetch channel desc more s
  | .dmaDescriptorComplete channel data => Sys2Proof.Machine.execDmaDescriptorComplete channel data s
  | .dmaBusError channel addr write last ecc count => Sys2Proof.Machine.execDmaBusError channel addr write last ecc count s
  | .dmaUnitWithdrawn channel written => Sys2Proof.Machine.execDmaUnitWithdrawn channel written s
  | .perfFreezeSet => Sys2Proof.Machine.execPerfFreezeSet s
  | .perfSnap => Sys2Proof.Machine.execPerfSnap s
  | .perfClear => Sys2Proof.Machine.execPerfClear s
  | .perfFreezePin high => Sys2Proof.Machine.execPerfFreezePin high s
  | .perfSnapDone => Sys2Proof.Machine.execPerfSnapDone s
  | .bwWindowEnd monitor => Sys2Proof.Machine.execBwWindowEnd monitor s
  | .traceSlotClose slot => Sys2Proof.Machine.execTraceSlotClose slot s
  | .cwSnap func => Sys2Proof.Machine.execCwSnap func s
  | .cwReady func => Sys2Proof.Machine.execCwReady func s
  | .selectRegisterWrite addr word => Sys2Proof.Machine.execSelectRegisterWrite addr word s
  | .powerReqGo state => Sys2Proof.Machine.execPowerReqGo state s
  | .powerDrainEnd => Sys2Proof.Machine.execPowerDrainEnd s
  | .domainUp domain => Sys2Proof.Machine.execDomainUp domain s
  | .domainRestore domain => Sys2Proof.Machine.execDomainRestore domain s
  | .avsAck bus ok => Sys2Proof.Machine.execAvsAck bus ok s
  | .avsTimeout bus => Sys2Proof.Machine.execAvsTimeout bus s
  | .powerChangeDone => Sys2Proof.Machine.execPowerChangeDone s
  | .wakeEvent source channel high => Sys2Proof.Machine.execWakeEvent source channel high s
  | .railTrim rail mv => Sys2Proof.Machine.execRailTrim rail mv s
  | .sensorSample temps rails => Sys2Proof.Machine.execSensorSample temps rails s
  | .throttleExit die => Sys2Proof.Machine.execThrottleExit die s
  | .hbmHotExit stack => Sys2Proof.Machine.execHbmHotExit stack s
  | .lockstepMismatch => Sys2Proof.Machine.execLockstepMismatch s
  | .watchdogExpiry => Sys2Proof.Machine.execWatchdogExpiry s
  | .pavilionSramUncorrectable kind kiosks => Sys2Proof.Machine.execPavilionSramUncorrectable kind kiosks s
  | .plannedRestart => Sys2Proof.Machine.execPlannedRestart s
  | .restartComplete result fwIfVer imageVer => Sys2Proof.Machine.execRestartComplete result fwIfVer imageVer s
  | .pavilionFailed => Sys2Proof.Machine.execPavilionFailed s
  | .logFlashFlush ok => Sys2Proof.Machine.execLogFlashFlush ok s
  | .updateVerifyDone result => Sys2Proof.Machine.execUpdateVerifyDone result s
  | .updateActivate => Sys2Proof.Machine.execUpdateActivate s
  | .otdrRunDone tree events => Sys2Proof.Machine.execOtdrRunDone tree events s
  | .otdrRunAbandon tree => Sys2Proof.Machine.execOtdrRunAbandon tree s
  | .rogueRoundEnd die energy => Sys2Proof.Machine.execRogueRoundEnd die energy s
  | .pinFaultCheck group idx fault => Sys2Proof.Machine.execPinFaultCheck group idx fault s
  | .heartbeatSend => Sys2Proof.Machine.execHeartbeatSend s
  | .heartbeatRx path width flags phase => Sys2Proof.Machine.execHeartbeatRx path width flags phase s
  | .heartbeatPathLoss path => Sys2Proof.Machine.execHeartbeatPathLoss path s
  | .failureFlagEnd => Sys2Proof.Machine.execFailureFlagEnd s
  | .arbGrantChange high => Sys2Proof.Machine.execArbGrantChange high s
  | .formation => Sys2Proof.Machine.execFormation s
  | .watchEnd energy => Sys2Proof.Machine.execWatchEnd energy s
  | .standbyReadyEntry peerEnable peerKey peerAligned tickEqual => Sys2Proof.Machine.execStandbyReadyEntry peerEnable peerKey peerAligned tickEqual s
  | .divergedTimeout channel => Sys2Proof.Machine.execDivergedTimeout channel s
  | .mirrorLinkUp pair low high laneMap => Sys2Proof.Machine.execMirrorLinkUp pair low high laneMap s
  | .mirrorLinkDown lock => Sys2Proof.Machine.execMirrorLinkDown lock s
  | .mirrorRecordRx number crcOk record => Sys2Proof.Machine.execMirrorRecordRx number crcOk record s
  | .mirrorAckRx number => Sys2Proof.Machine.execMirrorAckRx number s
  | .mirrorReplayTimeout => Sys2Proof.Machine.execMirrorReplayTimeout s
  | .mirrorAckTimeout => Sys2Proof.Machine.execMirrorAckTimeout s
  | .bulkCopyDone => Sys2Proof.Machine.execBulkCopyDone s
  | .switchRecordRx number tick => Sys2Proof.Machine.execSwitchRecordRx number tick s
  | .plannedSwitchEdge => Sys2Proof.Machine.execPlannedSwitchEdge s
  | .timingSampleRx channel offset => Sys2Proof.Machine.execTimingSampleRx channel offset s
  | .censusRx channel mf count crc => Sys2Proof.Machine.execCensusRx channel mf count crc s
  | .censusTimeout channel => Sys2Proof.Machine.execCensusTimeout channel s
  | .listenModeBurst channel onu mf found => Sys2Proof.Machine.execListenModeBurst channel onu mf found s
  | .inputPowerFail => Sys2Proof.Machine.execInputPowerFail s
  | .busMasterEnableSet func msixEn fmask mps => Sys2Proof.Machine.execBusMasterEnableSet func msixEn fmask mps s
  | .d0Entry func => Sys2Proof.Machine.execD0Entry func s
  | .pcieControllerRelease => Sys2Proof.Machine.execPcieControllerRelease s
  | .pcieLinkUp => Sys2Proof.Machine.execPcieLinkUp s
  | .pd00LeavesReset clocks => Sys2Proof.Machine.execPd00LeavesReset clocks s
  | .stackPlacesPages stack => Sys2Proof.Machine.execStackPlacesPages stack s
  | .spareLaneReplace link => Sys2Proof.Machine.execSpareLaneReplace link s
  | .trngHealthFail => Sys2Proof.Machine.execTrngHealthFail s
  | .belvedereStateUncorrectable => Sys2Proof.Machine.execBelvedereStateUncorrectable s
  | .uplCfgEnSet port => Sys2Proof.Machine.execUplCfgEnSet port s

end Sys2Proof.Machine
end

