-- ==== Sys2Proof/WellFormed.lean ====
section
/-! DEFINITION. Well-formed commands: every object that a command names exists on the device, and every size lies within what its
source can deliver. An ill-formed command stops with the fault noSuchObject.
Choices and readings: log entry 5. -/

namespace Sys2Proof

open Sys2Proof.Machine

/-- The command names only objects that the device has. -/
def Instr.wf : Instr → Bool
  | .sysResetNRise _ _ _ _ _ => true
  | .sysResetNAssert => true
  | .railCheck _ => true
  | .fuseReadDone _ _ _ _ _ _ => true
  | .memoryInitDone _ => true
  | .imageLoadDone _ _ _ _ _ _ => true
  | .firmwareReady _ _ _ _ => true
  | .firmwareReadyTimeout => true
  | .pciePerstNAssert => true
  | .pciePerstNRelease => true
  | .pcieHotReset => true
  | .pcieLinkDisable => true
  | .pcieDataLinkLoss => true
  | .functionLevelReset func => decide (func < 64)
  | .busMasterEnableClear func => decide (func < 64)
  | .d3hotEntry func => decide (func < 64)
  | .vfEnableClear => true
  | .vfEnableSet _ => true
  | .disableSequenceDone func => decide (func < 64)
  | .registerWrite func bar off _ _ => inBar func bar off
  | .readClearRegisterRead func bar off _ _ => inBar func bar off
  | .lowWordRead func bar off => inBar func bar off && off % 8 == 0
  | .wideLowWordWrite func bar off _ => inBar func bar off && isWide func bar off false
  | .wideHighWordWrite func bar off _ => inBar func bar off && isWide func bar off true
  | .heldAccessComplete func => decide (func < 64)
  | .heldAccessTimeout func => decide (func < 64)
  | .kioskReqTailWrite func _ => decide (func < 64)
  | .kioskRspHeadWrite func _ => decide (func < 64)
  | .ringReset func => decide (func < 64)
  | .ringResetDone func => decide (func < 64)
  | .kioskTakeRequest _ => true
  | .hello m => Msg.ok m
  | .sysGetInfo m => Msg.ok m
  | .sysSubscribe m => Msg.ok m
  | .sysEcho m => Msg.ok m
  | .sysRestart m => Msg.ok m
  | .powerSetState m => Msg.ok m
  | .powerGetState m => Msg.ok m
  | .powerSetWake m => Msg.ok m
  | .powerGetRails m => Msg.ok m
  | .chanConfig m => Msg.ok m
  | .chanSetState m => Msg.ok m
  | .chanTuneTimeout func => decide (func < 64)
  | .chanGet m => Msg.ok m
  | .treeCreate m => Msg.ok m
  | .treeDelete m => Msg.ok m
  | .treeGet m => Msg.ok m
  | .engineGet m => Msg.ok m
  | .engineI2c m => Msg.ok m
  | .onuList m => Msg.ok m
  | .onuAuthorise m => Msg.ok m
  | .onuSuspend m => Msg.ok m
  | .onuDeregister m => Msg.ok m
  | .onuGet m => Msg.ok m
  | .onuMigrate m => Msg.ok m
  | .onuDiscLimit m => Msg.ok m
  | .omciSend m => Msg.ok m
  | .omciRecv m => Msg.ok m
  | .omciHandleExpiry handle => decide (handle < 2 ^ 32)
  | .flowCreate m => Msg.ok m
  | .flowDelete m => Msg.ok m
  | .flowGet m => Msg.ok m
  | .allocSet m => Msg.ok m
  | .allocDelete m => Msg.ok m
  | .allocGet m => Msg.ok m
  | .dbaHint m => Msg.ok m
  | .dbaPolicy m => Msg.ok m
  | .keyRoll m => Msg.ok m
  | .keyGet m => Msg.ok m
  | .keyPolicy m => Msg.ok m
  | .keyExchange m => Msg.ok m
  | .pageKeyUnwrap m => Msg.ok m
  | .ruleWrite m => Msg.ok m
  | .patternWrite m => Msg.ok m
  | .ruleRead m => Msg.ok m
  | .ruleCopy m => Msg.ok m
  | .ruleSwap m => Msg.ok m
  | .ruleStatus m => Msg.ok m
  | .excClassSet m => Msg.ok m
  | .excClassGet m => Msg.ok m
  | .routeAdd m => Msg.ok m
  | .routeDelete m => Msg.ok m
  | .routeBatch m => Msg.ok m
  | .routeGet m => Msg.ok m
  | .nhSet m => Msg.ok m
  | .emRead m => Msg.ok m
  | .emRestore m => Msg.ok m
  | .ageSet m => Msg.ok m
  | .shaperSet m => Msg.ok m
  | .shaperGet m => Msg.ok m
  | .policerSet m => Msg.ok m
  | .schedSet m => Msg.ok m
  | .bufQuotaSet m => Msg.ok m
  | .bufQuotaGet m => Msg.ok m
  | .gateWrite m => Msg.ok m
  | .gateCommit m => Msg.ok m
  | .preemptSet m => Msg.ok m
  | .redConfig m => Msg.ok m
  | .redGet m => Msg.ok m
  | .redSwitch m => Msg.ok m
  | .redResync m => Msg.ok m
  | .redPairKey m => Msg.ok m
  | .timeSelect m => Msg.ok m
  | .timeGet m => Msg.ok m
  | .ptpPortSet m => Msg.ok m
  | .todSet m => Msg.ok m
  | .synceSet m => Msg.ok m
  | .measOnu m => Msg.ok m
  | .measChan m => Msg.ok m
  | .otdrStart m => Msg.ok m
  | .otdrStatus m => Msg.ok m
  | .otdrRead m => Msg.ok m
  | .sensorRead m => Msg.ok m
  | .logRead m => Msg.ok m
  | .updBegin m => Msg.ok m
  | .updWrite m => Msg.ok m
  | .updCommit m => Msg.ok m
  | .updStatus m => Msg.ok m
  | .updRollback m => Msg.ok m
  | .tenantBind m => Msg.ok m
  | .tenantUnbind m => Msg.ok m
  | .tenantSetQuota m => Msg.ok m
  | .tenantGet m => Msg.ok m
  | .counterGrant m => Msg.ok m
  | .tickEdge late => late.all fun c => decide (c < 512)
  | .swapDrainEnd => true
  | .alignmentStep => true
  | .alignReq => true
  | .frameDriftCheck die _ => decide (die < 4)
  | .bclStateRefresh engine => decide (engine < 32)
  | .bclTelemetryFrame engine _ _ records => decide (engine < 32) && decide (records.length ≤ 3840)
  | .bclLinkDown engine => decide (engine < 32)
  | .bclLinkUpTimeout engine => decide (engine < 32)
  | .refclkLoss clock => decide (clock < 10)
  | .refclkReturn clock => decide (clock < 10)
  | .ptpRefDiffMeasure _ => true
  | .dieLinkFlitCrcFail link _ _ replayed => decide (link < 6) && decide (1 ≤ replayed)
  | .dieLinkRetrainDone link _ => decide (link < 6)
  | .dieLinkFailed link => decide (link < 6)
  | .uplinkFrameRx sp _ _ _ _ => decide (sp < 512)
  | .burstLocked channel onu _ lock _ _ => decide (channel < 512) && decide (onu < 65536) && decide (lock < 65536)
  | .burstMissed channel onu => decide (channel < 512) && decide (onu < 65536)
  | .burstOutsideWindow channel onu => decide (channel < 512) && decide (onu < 65536)
  | .quietWindowBurst channel _ _ => decide (channel < 512)
  | .codewordDecoded channel info _ _ _ => decide (channel < 512) && decide (info ≤ 14592)
  | .poisonedTailArrival die _ => decide (die < 4)
  | .reassemblyTimeout onu xgem => decide (onu < 65536) && decide (xgem < 65536)
  | .rogueDetect channel kind onu => decide (channel < 512) && decide (kind < 4) && decide (onu < 65536)
  | .serialNumberRx channel _ => decide (channel < 512)
  | .discoveryHoldExpiry onu => decide (onu < 65536)
  | .rangingResponse onu => decide (onu < 65536)
  | .activationStepTimeout onu => decide (onu < 65536)
  | .registrationRx onu regId => decide (onu < 65536) && decide (regId.length ≤ 36)
  | .extCapsRx onu caps tuneDs tuneUs tuneMs => decide (onu < 65536) && decide (caps < 256) && decide (tuneDs < 65536) && decide (tuneUs < 65536) && decide (tuneMs < 65536)
  | .activationComplete onu => decide (onu < 65536)
  | .dyingGasp onu => decide (onu < 65536)
  | .eqdDriftBlock onu => decide (onu < 65536)
  | .spreadIntegrationEnd channel detections => decide (channel < 512) && decide (detections.length ≤ 4) && detections.all fun x => decide (x.1 < 1024) && decide (x.2 < 77760)
  | .extTuneRespRx onu seq code _ => decide (onu < 65536) && decide (seq < 256) && decide (code < 4)
  | .extTuneRespTimeout onu => decide (onu < 65536)
  | .migrationRollbackExpiry onu => decide (onu < 65536)
  | .fenceTokenArrival die _ => decide (die < 6)
  | .fenceWaitTimeout die _ => decide (die < 6)
  | .keyRollStart onu channel => decide (onu < 65536) && decide (channel < 512)
  | .keyRequestRepeat onu channel => decide (onu < 65536) && decide (channel < 512)
  | .keyRollRetry onu channel => decide (onu < 65536) && decide (channel < 512)
  | .onuKeyRx onu key => decide (onu < 65536) && (key.length == 16 || key.length == 32)
  | .oldKeyExpiry onu channel => decide (onu < 65536) && decide (channel < 512)
  | .recirculatePass die => decide (die < 6)
  | .reorderTimeout die _ => decide (die < 6)
  | .fragmentDecisionExpiry die => decide (die < 6)
  | .fragmentHoldTimeout die => decide (die < 6)
  | .learnRequest die => decide (die < 6)
  | .agingVisit die _ => decide (die < 6)
  | .eccScrub mem die _ _ _ _ len _ stage => decide (mem < 4) && decide (die < 7) && decide (len ≤ 128) && decide (stage < 8)
  | .heldBufferGrant pool => decide (pool < 4)
  | .bufferHoldExpiry die => decide (die < 6)
  | .bufferFree pool index tag => decide (pool < 4) && decide (index < poolCount pool) && decide (tag < 2 ^ 32)
  | .bufferReclaimSweep => true
  | .basinStageRead kind index cls _ => decide (kind < 3) && decide (cls < 8) && decide (index < (if kind = 0 then flowMax else if kind = 1 then 512 else 16))
  | .basinStackDrainEnd stack => decide (stack < 4)
  | .downstreamSelect channel pos space => decide (channel < 512) && decide (pos < 16384) && decide (8 ≤ space) && decide (space % 8 = 0)
  | .uplinkFrameStart sp => decide (sp < 512)
  | .gateEntryChange sp => decide (sp < 512)
  | .gateListChange sp => decide (sp < 512)
  | .preemptVerify sp _ => decide (sp < 512)
  | .uplinkLinkUp sp _ _ _ => decide (sp < 512)
  | .uplinkLinkDown sp _ _ => decide (sp < 512)
  | .laneFaultCheck lane fault => decide (lane < 256) && decide (fault < 6)
  | .uplCfgEnClear port => decide (port < 64)
  | .uplCfgModeWrite port mode => decide (port < 64) && decide (mode < 4)
  | .tsfHeadRead sp => decide (sp < 512)
  | .synceOutputReturn sluice => decide (sluice < 2)
  | .ptpNowFracRead domain => decide (domain < 2)
  | .ptpLoad domain => decide (domain < 2)
  | .ptpStep domain _ => decide (domain < 2)
  | .ptpIncrWrite domain _ => decide (domain < 2)
  | .cmpArm unit _ => decide (unit < 4)
  | .compareFire unit => decide (unit < 4)
  | .cryptoStart func => decide (func < 64)
  | .cryptoClear func _ => decide (func < 64)
  | .cryptoOperationDone func => decide (func < 64)
  | .cryptoZeroisePage func => decide (func < 64)
  | .cryptoZeroiseAll => true
  | .dmaEnable channel => decide (channel < 32)
  | .dmaDisable channel => decide (channel < 32)
  | .dmaResume channel => decide (channel < 32)
  | .dmaKick channel => decide (channel < 32)
  | .dmaDescriptorFetch channel _ _ => decide (channel < 32)
  | .dmaDescriptorComplete channel _ => decide (channel < 32)
  | .dmaBusError channel _ _ _ _ _ => decide (channel < 32)
  | .dmaUnitWithdrawn channel _ => decide (channel < 32)
  | .perfFreezeSet => true
  | .perfSnap => true
  | .perfClear => true
  | .perfFreezePin _ => true
  | .perfSnapDone => true
  | .bwWindowEnd monitor => decide (monitor < 32)
  | .traceSlotClose slot => decide (slot < 16)
  | .cwSnap func => decide (func < 64)
  | .cwReady func => decide (func < 64)
  | .selectRegisterWrite addr _ => selectRegs.any fun e => e.1 == addr
  | .powerReqGo state => decide (state < 4)
  | .powerDrainEnd => true
  | .domainUp domain => decide (domain < 24)
  | .domainRestore domain => decide (domain < 24)
  | .avsAck bus _ => decide (bus < 2)
  | .avsTimeout bus => decide (bus < 2)
  | .powerChangeDone => true
  | .wakeEvent source channel _ => decide (source < 7) && decide (channel < 512)
  | .railTrim rail _ => decide (rail < 7)
  | .sensorSample _ _ => true
  | .throttleExit die => decide (die < 7)
  | .hbmHotExit stack => decide (stack < 4)
  | .lockstepMismatch => true
  | .watchdogExpiry => true
  | .pavilionSramUncorrectable kind kiosks => decide (kind < 3) && kiosks.all (fun f => decide (f < 64))
  | .plannedRestart => true
  | .restartComplete result _ _ => decide (1 ≤ result) && decide (result < 8)
  | .pavilionFailed => true
  | .logFlashFlush _ => true
  | .updateVerifyDone result => decide (1 ≤ result) && decide (result < 7)
  | .updateActivate => true
  | .otdrRunDone tree events => decide (tree < 512) && events.all (fun e => decide (e.1 < 2 ^ 32) && decide (e.2.1 < 65536) && decide (e.2.2 < 65536))
  | .otdrRunAbandon tree => decide (tree < 512)
  | .rogueRoundEnd die _ => decide (die < 4)
  | .pinFaultCheck group idx _ => decide (idx < pinCount group)
  | .heartbeatSend => true
  | .heartbeatRx path _ flags _ => decide (path < 2) && decide (flags < 16)
  | .heartbeatPathLoss path => decide (path < 2)
  | .failureFlagEnd => true
  | .arbGrantChange _ => true
  | .formation => true
  | .watchEnd _ => true
  | .standbyReadyEntry _ _ _ _ => true
  | .divergedTimeout channel => decide (channel < 512)
  | .mirrorLinkUp _ low high _ => decide (low < 65536) && decide (high < 65536)
  | .mirrorLinkDown lock => decide (lock < 256)
  | .mirrorRecordRx _ _ _ => true
  | .mirrorAckRx _ => true
  | .mirrorReplayTimeout => true
  | .mirrorAckTimeout => true
  | .bulkCopyDone => true
  | .switchRecordRx _ _ => true
  | .plannedSwitchEdge => true
  | .timingSampleRx channel _ => decide (channel < 512)
  | .censusRx channel _ _ _ => decide (channel < 512)
  | .censusTimeout channel => decide (channel < 512)
  | .listenModeBurst channel onu _ _ => decide (channel < 512) && decide (onu < 65536)
  | .inputPowerFail => true
  | .busMasterEnableSet func _ _ _ => decide (func < 64)
  | .d0Entry func => decide (func < 64)
  | .pcieControllerRelease => true
  | .pcieLinkUp => true
  | .pd00LeavesReset _ => true
  | .stackPlacesPages stack => decide (stack < 4)
  | .spareLaneReplace link => decide (link < 6)
  | .trngHealthFail => true
  | .belvedereStateUncorrectable => true
  | .uplCfgEnSet port => decide (port < 64)

/-- Every command of a list is well formed. -/
def allWf (l : List Instr) : Bool := l.all Instr.wf

end Sys2Proof
end

