-- ==== Sys2Proof/Safety.lean ====
section
/-! DEFINITION. The words that statements about the block use: a command completes with an effect, a command leaves the other parts of
the block alone, a Kiosk serves a request at once, and the invariants of the state. -/

namespace Sys2Proof.Machine

/-- The command completes on `s`: it answers the next state, with the queue as it was and a block that satisfies `P`. -/
def Does (c : Instr) (s : State) (P : Dev → Prop) : Prop := ∃ e, exec c s = .next { s with dev := e } ∧ P e

/-- The parts of the block that a frame names: the fields of `Dev`. -/
inductive Part where
  | draws | out | boot | fuses | image | pins | time | pcie | funcs | regs | ctrs | live | due | round | daeLogged | pon | data
  | red | mir | redch | meas | power | pav | otdr | upd
  deriving DecidableEq, Repr

/-- Two blocks agree in a part. -/
def Part.same (d e : Dev) : Part → Prop
  | .draws => e.draws = d.draws
  | .out => e.out = d.out
  | .boot => e.boot = d.boot
  | .fuses => e.fuses = d.fuses
  | .image => e.image = d.image
  | .pins => e.pins = d.pins
  | .time => e.time = d.time
  | .pcie => e.pcie = d.pcie
  | .funcs => e.funcs = d.funcs
  | .regs => e.regs = d.regs
  | .ctrs => e.ctrs = d.ctrs
  | .live => e.live = d.live
  | .due => e.due = d.due
  | .round => e.round = d.round
  | .daeLogged => e.daeLogged = d.daeLogged
  | .pon => e.pon = d.pon
  | .data => e.data = d.data
  | .red => e.red = d.red
  | .mir => e.mir = d.mir
  | .redch => e.redch = d.redch
  | .meas => e.meas = d.meas
  | .power => e.power = d.power
  | .pav => e.pav = d.pav
  | .otdr => e.otdr = d.otdr
  | .upd => e.upd = d.upd

/-- From `d` to `e` only the listed parts may have changed. -/
def Only (l : List Part) (d e : Dev) : Prop := ∀ p, p ∉ l → Part.same d e p

/-- The newest output is the OK response to request `m` of opcode `op`, with a payload. -/
def Answered (m : Msg) (op : Nat) (payload : Bytes) (e : Dev) : Prop :=
  e.out.head? = some (.response m.func op m.seq 0 0 payload)

/-- A request of command `c` is served the moment it is published: the host reaches the Kiosk (R91), the request ring is empty, the
firmware's next visit takes the request (R104, R117), no unplanned restart has cut it (R126), and the header passes (R113). -/
abbrev Serves (c : Cmd) (m : Msg) (d : Dev) : Prop :=
  Msg.ok m ∧ d.hostCan m.func = true ∧ (d.kiosk m.func).resetBusy = false ∧ (d.kiosk m.func).interrupted = false
    ∧ (d.kiosk m.func).reqTail = (d.kiosk m.func).reqHead
    ∧ (d.place c m).nextKiosk.map Prod.fst = some m.func
    ∧ d.headerCheck (some c) m.func c.op m.version m.seq = none

/-- The block once the firmware holds a request that it serves at once: the host's message placed, the round moved on, a token taken,
REQ_HEAD past the message and EXECUTING set (R104, R105, R114, R117, R118). -/
def Dev.received (d : Dev) (c : Cmd) (m : Msg) : Dev :=
  let d := d.place c m
  let d := match d.nextKiosk with
    | some (_, r) => { d with round := r }
    | none => d
  let r : Req := { func := m.func, op := c.op, seq := m.seq, args := [], body := m.payload, taken := d.time.now }
  (((d.takeToken m.func).consume m.func (units m.payload.length) r)).onKiosk m.func fun k => k.advance c.op m.seq

/-- An access of function `f` at an offset of its BAR0 is performed as it arrives: the function answers (R61, R63, R70), start-up has not
stopped short of the offset (R65), no access of the function is held (R83), and the offset's domain is on (R86). -/
abbrev Reaches (d : Dev) (f off : Nat) : Prop :=
  d.barUp f = true ∧ d.stopped 0 off = false ∧ (d.fn f).held = [] ∧ d.domOn (locate f 0 off).2 = true

/-- A request as its command sees it. -/
def callOf (m : Msg) (c : Cmd) (d : Dev) : Call := c.call m.func (d.kiosk m.func).level m.seq m.payload

/-- A request of command `c` is served at once and passes the checks of Table 5-8 (R113). -/
abbrev Passes (c : Cmd) (m : Msg) (d : Dev) : Prop := Serves c m d ∧ c.check (d.received c m) (callOf m c d) = none

/-- What serving and answering any request touches, with what its command touches: time passes, the Kiosk and its signals change, and
the measurement counts. -/
abbrev served (l : List Part) : List Part := [.draws, .regs, .meas, .funcs, .out, .time, .round] ++ l

/-- A request row completes: served at once and past its checks, and with no partner that mirrors, the request is answered OK with a
payload, has its effect, and touches only the listed parts beside what serving touches. -/
def Answers (row : Msg → Instr) (c : Cmd) (l : List Part) (payload : Dev → Msg → Bytes) (P : Dev → Msg → Dev → Prop) : Prop :=
  ∀ (s : State) (m : Msg), Passes c m s.dev → (c.mirrored = true → s.dev.mirroring = false) →
    Does (row m) s fun e => Answered m c.op (payload s.dev m) e ∧ P s.dev m e ∧ Only (served l) s.dev e

/-- A request row whose command takes effect at a tick edge completes (R167): served at once and past its checks, the request waits for
that edge; its Kiosk holds it, and nothing else happens yet. -/
def Orders (row : Msg → Instr) (c : Cmd) : Prop :=
  ∀ (s : State) (m : Msg), Passes c m s.dev →
    Does (row m) s fun e =>
      (∃ r : Req, r.func = m.func ∧ r.op = c.op ∧ r.seq = m.seq ∧ r.body = m.payload ∧ r.from' = s.dev.nextCommit
        ∧ e.pon = { s.dev.pon with commits := s.dev.pon.commits ++ [r] })
      ∧ (e.kiosk m.func).executing.map (fun r => (r.op, r.seq)) = some (c.op, m.seq)
      ∧ (e.kiosk m.func).reqHead = (s.dev.kiosk m.func).reqHead + BitVec.ofNat 16 (units m.payload.length)
      ∧ (∀ f, (e.kiosk f).rspTail = (s.dev.kiosk f).rspTail) ∧ Only [.funcs, .out, .round, .pon] s.dev e

/-- Every addressed memory of the block is in its canonical form: the rings of each Kiosk, the areas of each crypto page and the
descriptor memory. -/
def Dev.memoriesWf (d : Dev) : Prop :=
  Memory.wf d.data.descRam = true
  ∧ ∀ x ∈ d.funcs, Memory.wf x.2.kiosk.reqMem = true ∧ Memory.wf x.2.kiosk.rspMem = true
    ∧ Memory.wf x.2.page.aad = true ∧ Memory.wf x.2.page.inp = true ∧ Memory.wf x.2.page.outp = true

/-- A Kiosk holds the request `r` and will publish its response. -/
abbrev Dev.awaits (d : Dev) (r : Req) : Prop :=
  (d.kiosk r.func).executing.map (fun q => (q.op, q.seq)) = some (r.op, r.seq) ∧ (d.kiosk r.func).interrupted = false
    ∧ (d.kiosk r.func).discard = false

/-- What a command ordered for a tick edge does when its edge commits it (R113, R167): past its second check, and with no partner that
mirrors, it is answered OK with a payload, has its effect, and touches only the listed parts beside its answer. -/
def Commits (c : Cmd) (l : List Part) (payload : Dev → Bytes → Bytes) (P : Dev → Bytes → Dev → Prop) : Prop :=
  ∀ (d : Dev) (r : Req), r.op = c.op → d.permits c.caller r.func = true → d.awaits r → d.mirroring = false →
    c.check d (c.call r.func (d.kiosk r.func).level r.seq r.body) = none →
    (d.commitOne r).out.head? = some (.response r.func c.op r.seq 0 0 (payload d r.body)) ∧ P d r.body (d.commitOne r)
      ∧ Only ([.funcs, .out] ++ l) d (d.commitOne r)

end Sys2Proof.Machine
end

