-- ==== Sys2Proof/Certificates/Slice0/Obligations.lean ====
section
/-! DEFINITION. What is claimed of the block, statement by statement. A statement about a command says where it completes (`Does`: the
command answers a next state, and its queue is untouched), what it then holds, and what it leaves alone (`Only`, and the reads of the
objects it does not name). -/

open Sys2Proof Sys2Proof.Machine

/-! ## The block and its queue -/

/-- One step takes the command at the front of the queue and runs it on the rest; an empty queue idles (DESIGN CHOICE, log entry 1). -/
def Obligations.StepRunsFrontCommand : Prop :=
  (∀ (c : Instr) (rest : List Instr) (d : Dev), step { pending := c :: rest, dev := d } = exec c { pending := rest, dev := d })
  ∧ ∀ d : Dev, step { pending := [], dev := d } = .next { pending := [], dev := d }

/-- Every command answers: a well-formed one a next state, whose queue is as it was; one that names an object the device does not have
stops with the fault noSuchObject (the model's own, log entry 5). No command is refused. -/
def Obligations.CommandsAnswerAndKeepTheQueue : Prop :=
  ∀ (c : Instr) (s : State),
    (Instr.wf c = true → ∃ t, exec c s = .next t ∧ t.pending = s.pending) ∧ (Instr.wf c = false → exec c s = .fault .noSuchObject)

/-- Any queue of well-formed commands runs to its end, on any block: after k steps the first k commands are gone, in order. -/
def Obligations.WellFormedQueueRunsToItsEnd : Prop :=
  ∀ (k : Nat) (s : State), allWf s.pending = true →
    ∃ t, Host.Core.run Sys2Proof.core k s = .next t ∧ t.pending = s.pending.drop k ∧ allWf t.pending = true

/-- Every step keeps the addressed memories in their canonical form: rising addresses, and no cell that holds the 0 which an unlisted
address reads as. They are the rings of the Kiosks, the areas of the crypto pages and the descriptor memory of the DMA engine. -/
def Obligations.StepsKeepMemoriesCanonical : Prop :=
  ∀ s t : State, s.dev.memoriesWf → step s = .next t → t.dev.memoriesWf

/-! ## From power to service -/

/-- R31, R32, R38, R43: the rise of SYS_RESET_N samples the straps, returns the rails whose bus answers to 0.75 V, and begins start-up
when every rail is in range, else waits; with TEST_EN high it begins nothing. A rail check does the same later. -/
def Obligations.ResetRiseSamplesStrapsAndChecksRails : Prop :=
  (∀ (s : State) (straps : Nat) (testEn avs0 avs1 : Bool) (rails : List Nat), s.dev.boot.resetHigh = false →
    Does (.sysResetNRise straps testEn avs0 avs1 rails) s fun e =>
      e.boot = { s.dev.boot with
        railsUp := true, resetHigh := true
        strapFlash := fld straps 0 2, strapSlot := fld straps 2 2, strapRole := fld straps 4 2
        waitRails := if testEn then s.dev.boot.waitRails else !railsGood rails
        started := s.dev.boot.started || (!testEn && railsGood rails) }
      ∧ (∀ r < 7, (if r < 3 then avs0 else avs1) = true → nth 750 e.power.set r = 750)
      ∧ (∀ r < 7, (if r < 3 then avs0 else avs1) = false → nth 750 e.power.set r = nth 750 s.dev.power.set r)
      ∧ Only [.boot, .power, .out] s.dev e)
  ∧ ∀ (s : State) (rails : List Nat), s.dev.boot.resetHigh = true → s.dev.boot.waitRails = true →
    Does (.railCheck rails) s fun e =>
      e.boot = { s.dev.boot with waitRails := !railsGood rails, started := s.dev.boot.started || railsGood rails }
      ∧ Only [.boot] s.dev e

/-- R64, R42: SYS_RESET_N low, or lost input power, returns the block to what it is right after reset. The board's pins, its setpoints and
the flash log outlast the first; the second loses all but the flash log. The model's own records stay. -/
def Obligations.ResetAndPowerLossClearTheBlock : Prop :=
  (∀ s : State, Does .sysResetNAssert s fun e =>
    Only [.draws, .out, .boot, .pins, .power, .pav] State.reset.dev e
    ∧ e.boot = { State.reset.dev.boot with railsUp := s.dev.boot.railsUp } ∧ e.pins = s.dev.pins
    ∧ e.power = { State.reset.dev.power with set := s.dev.power.set } ∧ e.pav = { State.reset.dev.pav with flash := s.dev.pav.flash }
    ∧ e.draws = s.dev.draws ∧ e.out = s.dev.out)
  ∧ ∀ s : State, Does .inputPowerFail s fun e =>
    Only [.draws, .out, .boot, .pav] State.reset.dev e
    ∧ e.boot = { State.reset.dev.boot with railsUp := false } ∧ e.pav = { State.reset.dev.pav with flash := s.dev.pav.flash }
    ∧ e.draws = s.dev.draws ∧ e.out = s.dev.out

/-- R48, R49, R50, R159: PD00 leaves reset with every time count at 0; the fuses are shadowed or start-up stops with code 1; memory
initialisation marks the failed dies, or stops start-up with code 6 (the Polder) or 5 (no datapath die left). -/
def Obligations.FirstStagesOfStartUp : Prop :=
  (∀ (s : State) (clocks : Nat), s.dev.boot.started = true → s.dev.boot.pd00 = false →
    Does (.pd00LeavesReset clocks) s fun e =>
      e.time.tick = 0 ∧ e.time.now = 0 ∧ e.uptimeNs = 0 ∧ e.boot.pd00 = true ∧ e.boot.stage = 1
      ∧ e.reg A.refclk = clocks % 1024 ∧ Only [.time, .regs, .draws, .boot] s.dev e)
  ∧ (∀ (s : State) (chanEn : Nat) (extEn : Bool) (corrected : Nat) (keyOk uncorrectable : Bool) (fused : List Nat),
    s.dev.boot.pd00 = true → s.dev.boot.stage = 1 → s.dev.boot.halted = false →
    Does (.fuseReadDone chanEn extEn corrected keyOk uncorrectable fused) s fun e =>
      e.fuses = { chanEn := chanEn % 1024, extEn := extEn, corrected := min 255 corrected, keyHashOk := keyOk }
      ∧ (uncorrectable = false → e.boot = { s.dev.boot with stage := 2 } ∧ (∀ r < 7, nth 750 e.power.fused r = nth 750 fused r)
        ∧ e.out = .xspiReset :: s.dev.out ∧ Only [.fuses, .boot, .power, .out] s.dev e)
      ∧ (uncorrectable = true → e.boot.stage = 7 ∧ e.boot.failCode = 1 ∧ e.boot.devReady = false ∧ e.pcie.cfgOk = true))
  ∧ ∀ (s : State) (failed : Nat), s.dev.boot.stage = 2 → s.dev.boot.memDone = false → s.dev.boot.halted = false →
    Does (.memoryInitDone failed) s fun e =>
      e.boot.memDone = true ∧ e.boot.dieFail = Nat.lor s.dev.boot.dieFail (failed % 128)
      ∧ (bit failed 6 = true → e.boot.stage = 7 ∧ e.boot.failCode = 6)
      ∧ (bit failed 6 = false → Nat.land e.boot.dieFail 0x3F = 0x3F → e.boot.stage = 7 ∧ e.boot.failCode = 5)
      ∧ (bit failed 6 = false → Nat.land e.boot.dieFail 0x3F ≠ 0x3F → e.boot.stage = 2 ∧ Only [.boot] s.dev e)

/-- R56 to R61: the first slot of the strap's order that passes starts its firmware; the ready firmware raises DEV_READY in stage 4 with
every Kiosk READY; a firmware that is not ready within 60 ms fails its slot with result 7. -/
def Obligations.ImageBootsAndFirmwareReports : Prop :=
  (∀ (s : State) (dir0 dir1 : Bytes) (a b : SlotFacts) (config : ImageConfig) (x : Nat) (rest : List Nat),
    s.dev.boot.stage = 2 → s.dev.boot.memDone = true → s.dev.boot.halted = false → s.dev.boot.strapFlash ≠ 3 → s.dev.boot.tried = [] →
    Nat.land s.dev.boot.dieFail 0x3F ≠ 0x3F → (∀ i < 6, bit config.linksUp i = true) →
    slotOrder s.dev.boot.strapSlot (activeSlot dir0 dir1) = x :: rest → slotResult (if x = 0 then a else b) = 1 →
    Does (.imageLoadDone true dir0 dir1 a b config) s fun e =>
      e.boot.stage = 3 ∧ e.boot.slot = x ∧ e.boot.stage3At = s.dev.time.now ∧ (if x = 0 then e.boot.slotA else e.boot.slotB) = 1
      ∧ e.image.imageVer = leAt (if x = 0 then a else b).header 0x14 4 ∧ e.image.fwIfVer = leAt (if x = 0 then a else b).header 0x10 4
      ∧ e.pon = s.dev.pon ∧ e.funcs = s.dev.funcs ∧ e.time = s.dev.time ∧ e.power = s.dev.power ∧ e.red = s.dev.red)
  ∧ (∀ (s : State) (dir0 dir1 : Bytes) (a b : SlotFacts) (config : ImageConfig), s.dev.boot.stage = 2 → s.dev.boot.memDone = true →
    s.dev.boot.halted = false → s.dev.boot.strapFlash ≠ 3 →
    Does (.imageLoadDone false dir0 dir1 a b config) s fun e => e.boot.stage = 7 ∧ e.boot.failCode = 2)
  ∧ (∀ (s : State) (recA recB lastLog : Option Nat) (recOk : Bool), s.dev.boot.stage = 3 → s.dev.boot.halted = false →
    Does (.firmwareReady recA recB recOk lastLog) s fun e =>
      e.boot.stage = 4 ∧ e.boot.devReady = true ∧ e.boot.slotBooted = s.dev.boot.slot
      ∧ e.boot.fallback = (s.dev.boot.firstSlot != some s.dev.boot.slot) ∧ e.pcie.cfgOk = true
      ∧ (∀ f < 64, (e.kiosk f).ready = true) ∧ (s.dev.boot.strapRole ≠ 0 → e.red.role = .syncing)
      ∧ e.time = s.dev.time ∧ e.fuses = s.dev.fuses ∧ e.image = s.dev.image)
  ∧ ∀ s : State, s.dev.boot.stage = 3 → s.dev.boot.halted = false → s.dev.boot.stage3At + 60000000 ≤ s.dev.time.nextAt →
    Does .firmwareReadyTimeout s fun e =>
      (if s.dev.boot.slot = 0 then e.boot.slotA else e.boot.slotB) = 7
      ∧ (s.dev.boot.strapSlot = 3 ∨ 2 ≤ s.dev.boot.tried.length → e.boot.stage = 7 ∧ e.boot.failCode = 4)
      ∧ (s.dev.boot.strapSlot ≠ 3 → s.dev.boot.tried.length < 2 → e.boot.stage = 2)
      ∧ e.fuses = s.dev.fuses ∧ e.image = s.dev.image

/-! ## The PCIe port and its functions -/

/-- R63, R64, R94: release of the controller, PCIE_PERST_N and training; a fall of PCIE_PERST_N, a hot reset, Link Disable or a lost data
link takes the link down, disables every virtual function, and starts the disable sequence of every function once DEV_READY is high. -/
def Obligations.PcieLinkComesUpAndResets : Prop :=
  (∀ s : State, s.dev.boot.pd00 = true → s.dev.pcie.released = false → 200000 ≤ s.dev.time.nextAt →
    Does .pcieControllerRelease s fun e =>
      e.pcie = { s.dev.pcie with released := true, training := s.dev.pins.perstHigh }
      ∧ Only [.pcie, .draws, .regs, .meas, .funcs, .out, .time] s.dev e)
  ∧ (∀ s : State, Does .pciePerstNRelease s fun e =>
      e.pins = { s.dev.pins with perstHigh := true } ∧ e.pcie = { s.dev.pcie with training := s.dev.pcie.released }
      ∧ Only [.pins, .pcie] s.dev e)
  ∧ (∀ s : State, s.dev.pcie.training = true → s.dev.pins.perstHigh = true → bit (s.dev.reg A.refclk) 6 = true →
    Does .pcieLinkUp s fun e => e.pcie = { s.dev.pcie with linkUp := true, training := false } ∧ Only [.pcie] s.dev e)
  ∧ (∀ s : State, Does .pciePerstNAssert s fun e =>
      e.pcie = { s.dev.pcie with linkUp := false, vfEnable := false, numVfs := 0, training := false } ∧ e.pins.perstHigh = false
      ∧ (∀ f ∈ [0, 1] ++ s.dev.enabledVfs, (e.fn f).busMaster = false ∧ (e.fn f).msixEn = false ∧ (e.fn f).enabled = false
        ∧ (s.dev.boot.devReady = true → (e.fn f).disabling = true ∧ (e.fn f).tk = none ∧ (e.page f).job = none))
      ∧ e.boot = s.dev.boot ∧ e.time = s.dev.time ∧ e.power = s.dev.power ∧ e.pon = s.dev.pon ∧ e.red = s.dev.red)
  ∧ ∀ (s : State) (c : Instr), c = .pcieHotReset ∨ c = .pcieLinkDisable ∨ c = .pcieDataLinkLoss → s.dev.pcie.linkUp = true →
    Does c s fun e =>
      e.pcie = { s.dev.pcie with linkUp := false, vfEnable := false, numVfs := 0, training := s.dev.pcie.released }
      ∧ (∀ f ∈ [0, 1] ++ s.dev.enabledVfs, (e.fn f).busMaster = false ∧ (e.fn f).msixEn = false ∧ (e.fn f).enabled = false
        ∧ (s.dev.boot.devReady = true → (e.fn f).disabling = true ∧ (e.fn f).tk = none ∧ (e.page f).job = none))
      ∧ e.boot = s.dev.boot ∧ e.time = s.dev.time ∧ e.power = s.dev.power ∧ e.pon = s.dev.pon ∧ e.red = s.dev.red

/-- R90: each trigger starts the disable sequence of its function: a function-level reset, a cleared Bus Master Enable, entry to D3hot.
The transport key and every key slot of the function are gone at once, and no operation of its page runs on. -/
def Obligations.TriggersStartTheDisableSequence : Prop :=
  let begun := fun (d e : Dev) (f : Nat) =>
    (e.fn f).disabling = true ∧ (e.fn f).tk = none ∧ (e.page f).job = none ∧ (e.page f).slots = List.replicate 8 {}
      ∧ e.time = d.time ∧ e.boot = d.boot ∧ e.pins = d.pins ∧ e.power = d.power ∧ e.pon = d.pon ∧ e.red = d.red
  (∀ (s : State) (f : Nat), f < 64 → s.dev.cfgReach f = true →
    Does (.functionLevelReset f) s fun e =>
      begun s.dev e f ∧ (e.fn f).byFlr = true ∧ (e.fn f).busMaster = false ∧ (e.fn f).msixEn = false ∧ (e.fn f).held = [])
  ∧ (∀ (s : State) (f : Nat), f < 64 → s.dev.cfgReach f = true → (s.dev.fn f).busMaster = true →
    Does (.busMasterEnableClear f) s fun e => begun s.dev e f ∧ (e.fn f).busMaster = false ∧ e.pcie = s.dev.pcie)
  ∧ ∀ (s : State) (f : Nat), f < 64 → s.dev.cfgReach f = true → (s.dev.fn f).d3hot = false →
    Does (.d3hotEntry f) s fun e => begun s.dev e f ∧ (e.fn f).d3hot = true ∧ e.pcie = s.dev.pcie

/-- R70, R90, R91, R92: virtual functions come and go with VF Enable; the end of a disable sequence scrubs the function's Kiosk and page
and lets the function work again; Bus Master Enable and D0 undo their triggers. -/
def Obligations.FunctionsAreEnabledAndScrubbed : Prop :=
  (∀ (s : State) (n : Nat), s.dev.cfgReach 0 = true → s.dev.boot.stage ≠ 7 → n ≤ 62 → s.dev.pcie.vfEnable = false →
    Does (.vfEnableSet n) s fun e =>
      e.pcie = { s.dev.pcie with vfEnable := true, numVfs := n } ∧ (∀ f, 2 ≤ f → f < 2 + n → (e.fn f).enabled = true)
      ∧ (∀ f, f < 2 ∨ 2 + n ≤ f → e.fn f = s.dev.fn f) ∧ Only [.pcie, .funcs] s.dev e)
  ∧ (∀ (s : State) (n : Nat), 62 < n → Does (.vfEnableSet n) s fun e => e = s.dev)
  ∧ (∀ s : State, s.dev.cfgReach 0 = true →
    Does .vfEnableClear s fun e =>
      e.pcie = { s.dev.pcie with vfEnable := false, numVfs := 0 }
      ∧ (∀ f ∈ s.dev.enabledVfs, (e.fn f).enabled = false ∧ (e.fn f).disabling = true ∧ (e.fn f).busMaster = false)
      ∧ e.time = s.dev.time ∧ e.boot = s.dev.boot ∧ e.power = s.dev.power ∧ e.pon = s.dev.pon)
  ∧ (∀ (s : State) (f : Nat), f < 64 → (s.dev.fn f).disabling = true →
    Does (.disableSequenceDone f) s fun e =>
      (e.fn f).disabling = false ∧ e.page f = {} ∧ (e.kiosk f).reqMem = [] ∧ (e.kiosk f).rspMem = [] ∧ (e.kiosk f).level = 0
      ∧ (e.kiosk f).mask = 0 ∧ (e.kiosk f).ringFault = false
      ∧ (∀ g, g ≠ f → e.kiosk g = s.dev.kiosk g ∧ e.page g = s.dev.page g)
      ∧ e.time = s.dev.time ∧ e.boot = s.dev.boot ∧ e.pon = s.dev.pon ∧ e.power = s.dev.power ∧ e.pav = s.dev.pav)
  ∧ (∀ (s : State) (f mps : Nat) (msixEn fmask : Bool), f < 64 → s.dev.cfgReach f = true →
    Does (.busMasterEnableSet f msixEn fmask mps) s fun e =>
      (e.fn f).busMaster = true ∧ (e.fn f).msixEn = msixEn ∧ (e.fn f).fmask = fmask
      ∧ ((e.fn f).mps = if mps = 128 ∨ mps = 256 ∨ mps = 512 then mps else (s.dev.fn f).mps)
      ∧ (∀ g, e.kiosk g = s.dev.kiosk g ∧ e.page g = s.dev.page g) ∧ Only [.funcs, .out] s.dev e)
  ∧ ∀ (s : State) (f : Nat), f < 64 → s.dev.cfgReach f = true →
    Does (.d0Entry f) s fun e =>
      (e.fn f).d3hot = false ∧ (∀ g, e.kiosk g = s.dev.kiosk g ∧ e.page g = s.dev.page g) ∧ Only [.funcs, .out] s.dev e

/-! ## Host accesses -/

/-- R7, R10, R82, R98: a write of a register stores its RW bits, clears the W1C bits written as 1 and ignores the rest; a write in the
request ring stores its bytes and no other; a write of fewer than four enabled bytes outside the areas is discarded and recorded. -/
def Obligations.RegisterWritesFollowAccessTypes : Prop :=
  (∀ (s : State) (data : Bytes), Reaches s.dev 0 A.globalScratch → data.length = 4 →
    Does (.registerWrite 0 0 A.globalScratch data true) s fun e =>
      e.reg A.globalScratch = ofLe data ∧ (∀ a, a ≠ A.globalScratch → e.reg a = s.dev.reg a) ∧ Only [.regs] s.dev e)
  ∧ (∀ (s : State) (data : Bytes), Reaches s.dev 0 A.refclk → data.length = 4 →
    Does (.registerWrite 0 0 A.refclk data true) s fun e =>
      e.reg A.refclk = s.dev.reg A.refclk - Nat.land (Nat.land (s.dev.reg A.refclk) 0x03FF0000) (ofLe data)
      ∧ (∀ a, a ≠ A.refclk → e.reg a = s.dev.reg a) ∧ Only [.regs] s.dev e)
  ∧ (∀ (s : State) (data : Bytes), Reaches s.dev 0 A.globalId → data.length = 4 →
    Does (.registerWrite 0 0 A.globalId data true) s fun e => e = s.dev)
  ∧ (∀ (s : State) (f o : Nat) (data : Bytes), f < 64 → Reaches s.dev f (kioskOff f o) → o + data.length ≤ 0x1000 → o < 0x1000 →
    data.length ≤ (s.dev.fn f).mps → (s.dev.fn f).disabling = false → (s.dev.kiosk f).resetBusy = false →
    Does (.registerWrite f 0 (kioskOff f o) data true) s fun e =>
      (∀ a, Mem.byte (e.kiosk f).reqMem a =
        if o ≤ a ∧ a < o + data.length then data.getD (a - o) 0 else Mem.byte (s.dev.kiosk f).reqMem a)
      ∧ (e.kiosk f) = { s.dev.kiosk f with reqMem := (e.kiosk f).reqMem } ∧ (∀ g, g ≠ f → e.fn g = s.dev.fn g) ∧ Only [.funcs] s.dev e)
  ∧ ∀ (s : State) (f off : Nat) (data : Bytes), inBar f 0 off = true → s.dev.barUp f = true → s.dev.stopped 0 off = false →
    inArea (locate f 0 off).1 data.length = false → bit (s.dev.reg A.daeInfo) 0 = false →
    Does (.registerWrite f 0 off data false) s fun e =>
      e.reg A.daeAddr = off % 2 ^ 32 ∧ e.reg A.daeInfo = (1 + 2 + 8 + 16 * nb (f != 0) + 65536 * f) % 2 ^ 32
      ∧ e.reg A.daeCount = min 0xFFFFFFFF (s.dev.reg A.daeCount + 1) ∧ e.pon = s.dev.pon ∧ e.time = s.dev.time ∧ e.power = s.dev.power

/-- R9, R11, R82: a read answers its value and clears what is RC after it; a read of a low word latches the high word for the reading
function; a read of the response ring answers its bytes and changes nothing. -/
def Obligations.ReadsAnswerClearAndLatch : Prop :=
  (∀ (s : State) (f : Nat), f < 64 → Reaches s.dev f (kioskOff f 0x2024) → (s.dev.fn f).disabling = false →
    Does (.readClearRegisterRead f 0 (kioskOff f 0x2024) 4 0xF) s fun e =>
      e.out = .completion f (le 4 (s.dev.kiosk f).eventLost) :: s.dev.out ∧ e.kiosk f = { s.dev.kiosk f with eventLost := 0 }
      ∧ (∀ g, g ≠ f → e.fn g = s.dev.fn g) ∧ Only [.funcs, .out] s.dev e)
  ∧ (∀ s : State, Reaches s.dev 0 A.daeCount →
    Does (.readClearRegisterRead 0 0 A.daeCount 4 0xF) s fun e =>
      e.out = .completion 0 (le 4 (s.dev.reg A.daeCount)) :: s.dev.out ∧ e.reg A.daeCount = 0
      ∧ (∀ a, a ≠ A.daeCount → e.reg a = s.dev.reg a) ∧ Only [.regs, .out] s.dev e)
  ∧ (∀ s : State, Reaches s.dev 0 A.tickNum →
    Does (.lowWordRead 0 0 A.tickNum) s fun e =>
      e.out = .completion 0 (le 4 (s.dev.time.tick % 2 ^ 32)) :: s.dev.out
      ∧ Tbl.get? (e.fn 0).latch A.tickNum = some (w32 (s.dev.time.tick / 2 ^ 32))
      ∧ (∀ g, g ≠ 0 → e.fn g = s.dev.fn g) ∧ Only [.funcs, .out] s.dev e)
  ∧ ∀ (s : State) (f o n : Nat), f < 64 → Reaches s.dev f (kioskOff f (0x1000 + o)) → o < 0x1000 → o + n ≤ 0x1000 →
    n ≤ (s.dev.fn f).mps → (s.dev.fn f).disabling = false → (s.dev.kiosk f).resetBusy = false →
    Does (.readClearRegisterRead f 0 (kioskOff f (0x1000 + o)) n 0) s fun e =>
      e.out = .completion f (Mem.read (s.dev.kiosk f).rspMem o n) :: s.dev.out ∧ Only [.out] s.dev e

/-- R541: the low word of a writable 64-bit value waits for its function; the high word joins it and the value takes effect, in 48 bits
for a seconds register (Table 17-5). -/
def Obligations.WideValuesTakeEffectWithTheirHighWord : Prop :=
  (∀ (s : State) (x : Nat) (w : BitVec 32), x < 2 → Reaches s.dev 0 (A.ptpSetSec x) →
    Does (.wideLowWordWrite 0 0 (A.ptpSetSec x) w) s fun e =>
      Tbl.get? (e.fn 0).low (A.ptpSetSec x) = some w ∧ (∀ g, g ≠ 0 → e.fn g = s.dev.fn g) ∧ Only [.funcs] s.dev e)
  ∧ ∀ (s : State) (x : Nat) (lo hi : BitVec 32), x < 2 → Reaches s.dev 0 (A.ptpSetSec x + 4) →
    Tbl.get? (s.dev.fn 0).low (A.ptpSetSec x) = some lo →
    Does (.wideHighWordWrite 0 0 (A.ptpSetSec x + 4) hi) s fun e =>
      e.ctr (A.ptpSetSec x) = (lo.toNat + 2 ^ 32 * hi.toNat) % 2 ^ 48 ∧ Tbl.get? (e.fn 0).low (A.ptpSetSec x) = none
      ∧ (∀ a, a ≠ A.ptpSetSec x → e.ctr a = s.dev.ctr a) ∧ (∀ g, g ≠ 0 → e.fn g = s.dev.fn g) ∧ Only [.funcs, .ctrs] s.dev e

/-- R86, R88, R89: a held access whose domain came up within 20 µs is performed; one that was not served in that time completes with
0xFFFF_FFFF, or is discarded, and is recorded with cause 1. -/
def Obligations.HeldAccessesCompleteOrTimeOut : Prop :=
  (∀ (s : State) (f i : Nat) (h : Held), f < 64 → (s.dev.fn f).held.length ≤ 16 → s.dev.heldReady f = some i →
    (s.dev.fn f).held[i]? = some h →
    Does (.heldAccessComplete f) s fun e =>
      e = (s.dev.onFn f fun x => { x with held := x.held.eraseIdx i }).access f h
      ∧ (h.data = none → ∃ bs, e.out.head? = some (.completion f bs)))
  ∧ ∀ (s : State) (f i : Nat) (h : Held), f < 64 → (s.dev.fn f).held.length ≤ 16 →
    findIdx (fun h => !s.dev.heldInTime h) (s.dev.fn f).held = some i → (s.dev.fn f).held[i]? = some h →
    h.at' + 20000 ≤ s.dev.time.nextAt → h.len = 4 → h.be = 0xF →
    Does (.heldAccessTimeout f) s fun e =>
      (h.data = none → .completion f [0xFF, 0xFF, 0xFF, 0xFF] ∈ e.out) ∧ (e.fn f).held = (s.dev.fn f).held.eraseIdx i
      ∧ e.reg A.daeCount = min 0xFFFFFFFF (s.dev.reg A.daeCount + 1)
      ∧ (bit (s.dev.reg A.daeInfo) 0 = false →
        e.reg A.daeInfo = (1 + 2 * nb h.data.isSome + 4 + 16 * nb (f != 0) + 256 * h.domain + 65536 * f) % 2 ^ 32)
      ∧ e.pon = s.dev.pon ∧ e.power = s.dev.power ∧ e.boot = s.dev.boot

/-- R240, R297, R389, R410, R412: a write of a select register loads the state of the object that it names into its readouts. -/
def Obligations.SelectRegistersLoadTheirReadouts : Prop :=
  (∀ (s : State) (n : Nat) (w : BitVec 32), n < 4 → Reaches s.dev 0 (A.usOnuSel n) →
    (s.dev.onu (w.toNat % 65536)).state ≠ .absent → (s.dev.onu (w.toNat % 65536)).channel / 128 = n →
    Does (.selectRegisterWrite (A.usOnuSel n) w) s fun e =>
      let o := s.dev.onu (w.toNat % 65536)
      e.reg (A.usOnuSel n) = w.toNat % 65536 ∧ e.reg (A.usOnuSel n + 4) = (1 + 2 * nb o.robust + 256 * (o.channel % 128)) % 2 ^ 32
      ∧ e.ctr (A.usOnuSel n + 0x10) = o.acc.bursts % 2 ^ 64 ∧ e.ctr (A.usOnuSel n + 0x18) = o.acc.bits % 2 ^ 64
      ∧ e.ctr (A.usOnuSel n + 0x20) = o.acc.preFec % 2 ^ 64 ∧ e.ctr (A.usOnuSel n + 0x28) = o.acc.missed % 2 ^ 64
      ∧ Only [.regs, .ctrs] s.dev e)
  ∧ (∀ (s : State) (w : BitVec 32), Reaches s.dev 0 A.bufOwnerSel → s.dev.ownerExists w.toNat = true →
    Does (.selectRegisterWrite A.bufOwnerSel w) s fun e =>
      e.reg A.bufOwnerSel = w.toNat ∧ e.reg A.bufOwnerPages = (s.dev.owner w.toNat).pages % 2 ^ 32
      ∧ e.reg A.bufOwnerCfg = ((s.dev.owner w.toNat).prof + 256 * (s.dev.owner w.toNat).basinMax) % 2 ^ 32 ∧ Only [.regs] s.dev e)
  ∧ (∀ (s : State) (n : Nat) (w : BitVec 32) (fl : Flow), n < 4 → Reaches s.dev 0 (A.polSel n) →
    s.dev.flow? (w.toNat % 2 ^ 21) = some fl → bit fl.dir 1 = true → (s.dev.onu fl.onu).channel / 128 = n →
    Does (.selectRegisterWrite (A.polSel n) w) s fun e =>
      let p := Policer.filled (s.dev.pol (w.toNat % 2 ^ 21)) s.dev.time.edges
      e.reg (A.polSel n + 4) = 1 ∧ e.reg (A.polSel n + 8) = p.tokens / 1024 % 2 ^ 32 ∧ e.ctr (A.polSel n + 0x10) = p.passed % 2 ^ 64
      ∧ e.ctr (A.polSel n + 0x18) = p.dropped % 2 ^ 64 ∧ Only [.regs, .ctrs] s.dev e)
  ∧ (∀ (s : State) (n t id : Nat) (w : BitVec 32) (tr : Tree) (a : Alloc), n < 4 → Reaches s.dev 0 (A.dbaAllocSel n) →
    id = w.toNat % 16384 → t = fld w.toNat 16 9 → s.dev.tree? t = some tr → tr.chans.headD 512 / 128 = n →
    s.dev.alloc? (allocKey t id) = some a → a.type < 4 → a.prio < 8 →
    Does (.selectRegisterWrite (A.dbaAllocSel n) w) s fun e =>
      bit (e.reg (A.dbaAllocSel n + 4)) 0 = true ∧ fld (e.reg (A.dbaAllocSel n + 4)) 1 2 = a.type
      ∧ e.reg (A.dbaAllocSel n + 8) = min 0xFFFFFFFF a.d ∧ e.reg (A.dbaAllocSel n + 0x14) = min 0xFFFFFFFF a.out ∧ Only [.regs] s.dev e)
  ∧ ∀ (s : State) (w : BitVec 32), Reaches s.dev 0 A.tmNodeSel → nodeBad w.toNat = false → s.dev.nodeExists w.toNat = true →
    Does (.selectRegisterWrite A.tmNodeSel w) s fun e =>
      let n := s.dev.nodeNow (nodeOf w.toNat)
      e.reg A.tmNodeSel = w.toNat ∧ e.reg 0x4B0000C = n.rate % 2 ^ 32 ∧ e.reg 0x4B00010 = n.burst % 2 ^ 32
      ∧ e.ctr 0x4B00020 = n.sent % 2 ^ 64 ∧ Only [.regs, .ctrs] s.dev e

/-! ## Kiosks -/

/-- R98, R100, R101, R124: a doorbell within its ring moves the position; one beyond it is rejected with DB_ERROR and its value latched;
RING_RESET discards what waits and holds the Kiosk until the reset is done. -/
def Obligations.DoorbellsMovePositionsOrAreRejected : Prop :=
  (∀ (s : State) (f : Nat) (w : BitVec 32), f < 64 → Reaches s.dev f (kioskOff f 0x2000) → (s.dev.fn f).disabling = false →
    (s.dev.kiosk f).resetBusy = false →
    Does (.kioskReqTailWrite f w) s fun e =>
      ((w.setWidth 16 - (s.dev.kiosk f).reqTail).toNat ≤ free (s.dev.kiosk f).reqTail (s.dev.kiosk f).reqHead →
        e.kiosk f = { s.dev.kiosk f with reqTail := w.setWidth 16 } ∧ e.out = s.dev.out)
      ∧ (free (s.dev.kiosk f).reqTail (s.dev.kiosk f).reqHead < (w.setWidth 16 - (s.dev.kiosk f).reqTail).toNat →
        (e.kiosk f).reqTail = (s.dev.kiosk f).reqTail ∧ (e.kiosk f).errInfo.toNat = w.toNat % 65536
        ∧ bit (e.kiosk f).cause.toNat 5 = true)
      ∧ (∀ g, g ≠ f → e.kiosk g = s.dev.kiosk g) ∧ Only [.funcs, .out] s.dev e)
  ∧ (∀ (s : State) (f : Nat) (w : BitVec 32), f < 64 → Reaches s.dev f (kioskOff f 0x200C) → (s.dev.fn f).disabling = false →
    (s.dev.kiosk f).resetBusy = false →
    Does (.kioskRspHeadWrite f w) s fun e =>
      ((w.setWidth 16 - (s.dev.kiosk f).rspHead).toNat ≤ used (s.dev.kiosk f).rspTail (s.dev.kiosk f).rspHead →
        e.kiosk f = { s.dev.kiosk f with rspHead := w.setWidth 16 } ∧ e.out = s.dev.out)
      ∧ (used (s.dev.kiosk f).rspTail (s.dev.kiosk f).rspHead < (w.setWidth 16 - (s.dev.kiosk f).rspHead).toNat →
        (e.kiosk f).rspHead = (s.dev.kiosk f).rspHead ∧ (e.kiosk f).errInfo.toNat = w.toNat % 65536 + 0x20000
        ∧ bit (e.kiosk f).cause.toNat 5 = true)
      ∧ (∀ g, g ≠ f → e.kiosk g = s.dev.kiosk g) ∧ Only [.funcs, .out] s.dev e)
  ∧ (∀ (s : State) (f : Nat), f < 64 → Reaches s.dev f (kioskOff f 0x201C) → (s.dev.fn f).disabling = false →
    Does (.ringReset f) s fun e =>
      (e.kiosk f).resetBusy = true ∧ (e.kiosk f).reqHead = (s.dev.kiosk f).reqTail
      ∧ (e.kiosk f).discard = ((s.dev.kiosk f).discard || (s.dev.kiosk f).executing.isSome)
      ∧ (∀ g, g ≠ f → e.kiosk g = s.dev.kiosk g) ∧ Only [.funcs] s.dev e)
  ∧ ∀ (s : State) (f : Nat), f < 64 → (s.dev.kiosk f).resetBusy = true → (s.dev.kiosk f).executing = none →
    Does (.ringResetDone f) s fun e =>
      (e.kiosk f).resetBusy = false ∧ (e.kiosk f).ringFault = false ∧ (e.kiosk f).level = 0 ∧ (e.kiosk f).mask = 0
      ∧ (e.kiosk f).reqTail = 0 ∧ (e.kiosk f).reqHead = 0 ∧ (e.kiosk f).rspTail = 0 ∧ (e.kiosk f).rspHead = 0
      ∧ (∀ a, Mem.byte (e.kiosk f).reqMem a = 0 ∧ Mem.byte (e.kiosk f).rspMem a = 0)
      ∧ (∀ g, g ≠ f → e.fn g = s.dev.fn g) ∧ Only [.funcs] s.dev e

/-- R96, R97: a message stands in its ring from the old tail on: the header fills one unit, the payload follows, zero bytes pad it to a
whole unit, and a message wraps from unit 255 to unit 0, a header never. The tail moves past its 1 + ⌈LENGTH ÷ 16⌉ units, at most 128, and
every other byte of the ring is as it was. A response sets RSP_AVAIL. -/
def Obligations.MessagesStandInTheirRings : Prop :=
  (∀ n : Nat, n ≤ 2032 → units n = 1 + (n + 15) / 16 ∧ units n ≤ 128)
  ∧ (∀ (version flags op len status detail : Nat) (seq : BitVec 32), (msgHeader version flags op seq len status detail).length = 16)
  ∧ (∀ pos i : Nat, i < 16 → (pos % 256 * 16 + i) % 4096 = pos % 256 * 16 + i)
  ∧ (∀ (d : Dev) (f version flags op status detail : Nat) (seq : BitVec 32) (payload : Bytes), payload.length ≤ 2032 →
    let e := d.publish f version flags op seq status detail payload
    let len := 16 * units payload.length
    let bs := msgHeader version flags op seq payload.length status detail ++ payload ++ List.replicate (len - 16 - payload.length) 0
    (e.kiosk f).rspTail = (d.kiosk f).rspTail + BitVec.ofNat 16 (units payload.length)
    ∧ bit (e.kiosk f).cause.toNat 0 = true
    ∧ ringRead (e.kiosk f).rspMem (d.kiosk f).rspTail.toNat len = bs
    ∧ (∀ a < 4096, (∀ i < len, a ≠ ((d.kiosk f).rspTail.toNat % 256 * 16 + i) % 4096) →
      Mem.byte (e.kiosk f).rspMem a = Mem.byte (d.kiosk f).rspMem a)
    ∧ (e.kiosk f).reqMem = (d.kiosk f).reqMem ∧ (e.kiosk f).reqHead = (d.kiosk f).reqHead
    ∧ (∀ g, g ≠ f → e.kiosk g = d.kiosk g) ∧ Only [.funcs, .out] d e)
  ∧ ∀ (d : Dev) (c : Cmd) (m : Msg), m.payload.length ≤ 2032 →
    let e := d.place c m
    let len := 16 * units m.payload.length
    let bs := msgHeader m.version 0 c.op m.seq m.payload.length 0 0 ++ m.payload ++ List.replicate (len - 16 - m.payload.length) 0
    (e.kiosk m.func).reqTail = (d.kiosk m.func).reqTail + BitVec.ofNat 16 (units m.payload.length)
    ∧ ringRead (e.kiosk m.func).reqMem (d.kiosk m.func).reqTail.toNat len = bs
    ∧ (∀ a < 4096, (∀ i < len, a ≠ ((d.kiosk m.func).reqTail.toNat % 256 * 16 + i) % 4096) →
      Mem.byte (e.kiosk m.func).reqMem a = Mem.byte (d.kiosk m.func).reqMem a)
    ∧ (e.kiosk m.func).rspMem = (d.kiosk m.func).rspMem ∧ (∀ g, g ≠ m.func → e.kiosk g = d.kiosk g) ∧ Only [.funcs] d e

/-- R105, R107, R114, R117: the firmware's round takes the first message of a Kiosk. A faulty header is answered MALFORMED with its
position and stops the Kiosk with RING_FAULT; a sound message moves REQ_HEAD past its units and is served. -/
def Obligations.FirmwareTakesTheNextRequest : Prop :=
  (∀ (s : State) (f r dt : Nat), s.dev.nextKiosk = some (f, r) → faulty (Kiosk.header (s.dev.kiosk f)) = true →
    Does (.kioskTakeRequest dt) s fun e =>
      (e.kiosk f).ringFault = true ∧ (e.kiosk f).reqHead = (s.dev.kiosk f).reqHead + 1
      ∧ (e.kiosk f).errInfo.toNat = (s.dev.kiosk f).reqHead.toNat + 0x10000 ∧ bit (e.kiosk f).cause.toNat 4 = true
      ∧ .response f (leAt (Kiosk.header (s.dev.kiosk f)) 2 2) (w32 (leAt (Kiosk.header (s.dev.kiosk f)) 4 4)) 0x000E
        (s.dev.kiosk f).reqHead.toNat [] ∈ e.out
      ∧ (∀ g, g ≠ f → e.kiosk g = s.dev.kiosk g) ∧ e.round = r ∧ Only [.funcs, .out, .round] s.dev e)
  ∧ (∀ (s : State) (f r dt : Nat) (h : Bytes), s.dev.nextKiosk = some (f, r) → h = Kiosk.header (s.dev.kiosk f) → faulty h = false →
    leAt h 2 2 = 0x0004 → leAt h 0 1 = (s.dev.kiosk f).level → 1 ≤ (s.dev.kiosk f).level →
    w32 (leAt h 4 4) = (s.dev.kiosk f).expected → (s.dev.kiosk f).interrupted = false → leAt h 8 2 ≤ 2032 →
    Does (.kioskTakeRequest dt) s fun e =>
      e.out.head? = some (.response f 0x0004 (s.dev.kiosk f).expected 0 0
        (ringRead (s.dev.kiosk f).reqMem ((s.dev.kiosk f).reqHead.toNat + 1) (leAt h 8 2)))
      ∧ (e.kiosk f).reqHead = (s.dev.kiosk f).reqHead + BitVec.ofNat 16 (units (leAt h 8 2))
      ∧ (e.kiosk f).expected = (s.dev.kiosk f).expected + 1 ∧ (e.kiosk f).executing = none
      ∧ e.round = r ∧ Only [.draws, .regs, .meas, .funcs, .out, .time, .round] s.dev e)
  ∧ ∀ (s : State) (dt : Nat), s.dev.nextKiosk = none → Does (.kioskTakeRequest dt) s fun e => e = s.dev

/-- R113, Table 5-8: the checks of a message's header in their order: NOT_NEGOTIATED, VERSION_MISMATCH with the level, SEQUENCE_ERROR with
the expected number, UNKNOWN_OPCODE, NOT_PERMITTED. -/
def Obligations.HeaderChecksInOrder : Prop :=
  ∀ (d : Dev) (c : Cmd) (f version : Nat) (seq : BitVec 32), c.op ≠ 1 →
    let k := d.kiosk f
    (k.level = 0 → d.headerCheck (some c) f c.op version seq = some (0x0002, 0))
    ∧ (k.level ≠ 0 → version ≠ k.level → d.headerCheck (some c) f c.op version seq = some (0x0003, k.level))
    ∧ (k.level ≠ 0 → version = k.level → seq ≠ k.expected →
      d.headerCheck (some c) f c.op version seq = some (0x0004, k.expected.toNat))
    ∧ (k.level ≠ 0 → version = k.level → seq = k.expected → (k.level < c.lvl ∨ d.knows c = false) →
      d.headerCheck (some c) f c.op version seq = some (0x0001, 0))
    ∧ (k.level ≠ 0 → version = k.level → seq = k.expected → c.lvl ≤ k.level → d.knows c = true → d.permits c.caller f = false →
      d.headerCheck (some c) f c.op version seq = some (0x0007, 0))

/-- R122, R123: an event reaches a Kiosk of level 2 or 3 while 128 units stay free beyond it; else it is counted as lost, the next event
carries LOST, and EVENT_LOST is raised. Either way the event counter advances. -/
def Obligations.EventsAreWrittenOrCountedLost : Prop :=
  ∀ (d : Dev) (code f : Nat) (payload : Bytes), 2 ≤ (d.kiosk f).level → (d.kiosk f).ready = true →
    let k := d.kiosk f
    let e := d.eventTo code payload f
    (e.kiosk f).eventSeq = k.eventSeq + 1 ∧ (∀ g, g ≠ f → e.kiosk g = d.kiosk g) ∧ Only [.funcs, .out] d e
    ∧ (128 + units payload.length ≤ free k.rspTail k.rspHead → k.resetBusy = false →
      e.out.head? = some (.event f code k.eventSeq k.lostFlag payload) ∧ (e.kiosk f).lostFlag = false
      ∧ (e.kiosk f).rspTail = k.rspTail + BitVec.ofNat 16 (units payload.length))
    ∧ (free k.rspTail k.rspHead < 128 + units payload.length →
      (e.kiosk f).eventLost = min 0xFFFFFFFF (k.eventLost + 1) ∧ (e.kiosk f).lostFlag = true
      ∧ (e.kiosk f).rspTail = k.rspTail ∧ bit (e.kiosk f).cause.toNat 6 = true)

/-- R90 to R128: a request row as a whole. The host publishes the message; while the Kiosk's turn has not come it waits in the ring, and
the firmware has not moved. -/
def Obligations.RequestsWaitForTheirTurn : Prop :=
  ∀ (s : State) (m : Msg), Msg.ok m = true → s.dev.hostCan m.func = true → (s.dev.kiosk m.func).resetBusy = false →
    units m.payload.length ≤ free (s.dev.kiosk m.func).reqTail (s.dev.kiosk m.func).reqHead →
    (s.dev.kiosk m.func).reqTail ≠ (s.dev.kiosk m.func).reqHead →
    Does (.sysEcho m) s fun e =>
      (e.kiosk m.func).reqTail = (s.dev.kiosk m.func).reqTail + BitVec.ofNat 16 (units m.payload.length)
      ∧ (e.kiosk m.func).reqHead = (s.dev.kiosk m.func).reqHead ∧ (e.kiosk m.func).rspMem = (s.dev.kiosk m.func).rspMem
      ∧ (∀ g, g ≠ m.func → e.fn g = s.dev.fn g) ∧ Only [.funcs] s.dev e

/-! ## The system and power groups -/

/-- R109 to R112, Table 6-8: HELLO fixes the level, the next SEQUENCE and a cleared subscription; SYS_GET_INFO, SYS_ECHO answer and change
nothing of their own; SYS_SUBSCRIBE grants what the Kiosk may have; SYS_RESTART orders a restart, before which no request is taken. -/
def Obligations.SystemCommandsAnswer : Prop :=
  Answers .hello cmdHello [.pav, .ctrs, .data]
    (fun d m =>
      let l := bestLevel m.func (leAt m.payload 1 1)
      le 1 l ++ le 1 m.func ++ le 2 2048 ++ le 4 d.image.fwIfVer ++ le 4 d.image.imageVer ++ le 4 d.pav.restarts
        ++ le 4 (m.seq + 1).toNat ++ le 1 (levelsOf m.func) ++ le 3 0 ++ le 4 (d.reg A.globalId) ++ le 4 0)
    (fun d m e =>
      (e.kiosk m.func).level = bestLevel m.func (leAt m.payload 1 1) ∧ (e.kiosk m.func).expected = m.seq + 1
      ∧ (e.kiosk m.func).mask = 0 ∧ (e.kiosk m.func).eventSeq = 1 ∧ e.data.buf = d.data.buf ∧ e.data.cls = d.data.cls)
  ∧ Answers .sysGetInfo cmdSysGetInfo []
    (fun d _ => le 2 d.fuses.chanEn ++ le 1 (nb d.fuses.extEn) ++ le 1 d.boot.dieFail
      ++ (List.range 7).flatMap (fun n => le 8 (Config.dieId n).toNat) ++ le 4 d.pav.bootSeq ++ le 8 d.uptimeNs ++ le 1 d.boot.slotBooted
      ++ le 3 0)
    (fun d m e => (e.kiosk m.func).level = (d.kiosk m.func).level ∧ (e.kiosk m.func).expected = m.seq + 1)
  ∧ Answers .sysSubscribe cmdSysSubscribe [] (fun _ m => le 4 (Nat.land (leAt m.payload 0 4) (eventsOf m.func)))
    (fun d m e => (e.kiosk m.func).mask = Nat.land (leAt m.payload 0 4) (eventsOf m.func)
      ∧ (e.kiosk m.func).level = (d.kiosk m.func).level)
  ∧ Answers .sysEcho cmdSysEcho [] (fun _ m => m.payload)
    (fun d m e => (e.kiosk m.func).mask = (d.kiosk m.func).mask ∧ (e.kiosk m.func).expected = m.seq + 1)
  ∧ Answers .sysRestart cmdSysRestart [.pav] (fun _ _ => []) (fun d _ e => e.pav = { d.pav with ordered := true })

/-- Table 6-9, R488, R489: the power commands. A request that meets no running change starts one, or is met at once where its domains
stand already; a later one waits, and the next replaces it. -/
def Obligations.PowerCommandsAnswer : Prop :=
  Answers .powerGetState cmdPowerGetState []
    (fun d _ =>
      le 1 (PState.code d.power.cur) ++ le 1 ((d.power.run.map fun c => PState.code c.req.state).getD 0xFF)
        ++ le 1 ((d.power.queued.map fun r => PState.code r.state).getD 0xFF) ++ le 1 (if d.power.lastWake = 0xF then 0xFF else d.power.lastWake)
        ++ le 4 d.power.on)
    (fun _ _ _ => True)
  ∧ Answers .powerSetWake cmdPowerSetWake [] (fun _ _ => [])
    (fun _ m e => e.reg A.powerWakeCfg = leAt m.payload 0 1 + 256 * leAt m.payload 1 1)
  ∧ Answers .powerGetRails cmdPowerGetRails []
    (fun d _ => (List.range 18).flatMap fun i => le 2 (Tbl.look (0, 0) d.pav.rails i).1 ++ le 2 (Tbl.look (0, 0) d.pav.rails i).2)
    (fun _ _ _ => True)
  ∧ Answers .powerSetState cmdPowerSetState [.power, .red, .mir, .redch, .pon, .data, .ctrs, .pav]
    (fun d _ => le 1 (if d.power.run.isNone && !d.boot.halted then 0 else if d.power.queued.isNone then 1 else 2) ++ le 3 0)
    (fun d m e =>
      let r : PReq := { state := pstateOf (leAt m.payload 0 1), mask := leAt m.payload 4 4, src := 1 }
      (d.power.run.isSome ∨ d.boot.halted = true → e.power = { d.power with queued := some r })
      ∧ (d.power.run = none → d.boot.halted = false → d.power.queued = none → d.power.latch = 0 →
        (d.power.on ≠ d.powerTarget r → e.power.run.map Change.req = some r ∧ e.power.cur = d.power.cur)
        ∧ (d.power.on = d.powerTarget r → e.power.run = none ∧ e.power.cur = r.state ∧ e.power.on = d.power.on)))
/-- R488 to R490, R484, R486: POWER_REQ.GO submits a request, is refused with REQ_BAD, or waits; the drain's end switches off what the
change turns off; a domain comes up, owes its restore, is restored; the change completes with POWER_DONE. -/
def Obligations.PowerChangesRunTheirSteps : Prop :=
  (∀ (s : State) (st : Nat), st < 4 → Reaches s.dev 0 A.powerReq → s.dev.inService = true →
    Does (.powerReqGo st) s fun e =>
      let bad := !(powerBad st (s.dev.reg A.powerReqMask)).isEmpty || (s.dev.powerHeld st (s.dev.reg A.powerReqMask)).isSome
      let r : PReq := { state := pstateOf st, mask := s.dev.reg A.powerReqMask, src := 0 }
      e.reg A.powerReq = st
      ∧ (bad = true → bit (e.reg A.powerCause) 2 = true ∧ Only [.regs, .funcs, .out] s.dev e)
      ∧ (bad = false → s.dev.power.run.isSome = true → e.power = { s.dev.power with queued := some r })
      ∧ (bad = false → s.dev.power.run = none → s.dev.power.queued = none → s.dev.power.latch = 0 → s.dev.power.on ≠ s.dev.powerTarget r →
        e.power.run.map Change.req = some r))
  ∧ (∀ (s : State) (c : Change), s.dev.power.run = some c → c.phase = 1 → c.drained = false → c.drainAt ≤ s.dev.time.nextAt →
    s.dev.data.buf.draining = [] →
    Does .powerDrainEnd s fun e =>
      e.power.run.map Change.drained = some true ∧ (∀ p, 0 < p → p < 24 → bit c.off p = true → e.domOn p = false)
      ∧ (∀ p, p < 24 → bit c.off p = false → e.domOn p = s.dev.domOn p) ∧ e.boot = s.dev.boot ∧ e.fuses = s.dev.fuses ∧ e.pcie = s.dev.pcie)
  ∧ (∀ (s : State) (p : Nat), p < 24 → bit s.dev.power.rising p = true →
    Tbl.look 0 s.dev.power.riseAt p + bringUp p ≤ s.dev.time.nextAt → (∀ c, s.dev.power.run = some c → c.phase = 2) →
    Does (.domainUp p) s fun e =>
      e.domOn p = true ∧ bit e.power.rising p = false ∧ Tbl.get? e.power.upAt p = some e.time.now
      ∧ (1 ≤ p → p ≤ 12 → bit e.power.owed p = true) ∧ (∀ q, q ≠ p → e.domOn q = s.dev.domOn q)
      ∧ e.boot = s.dev.boot ∧ e.fuses = s.dev.fuses ∧ e.pcie = s.dev.pcie ∧ e.upd = s.dev.upd)
  ∧ (∀ (s : State) (p : Nat), p < 24 → bit s.dev.power.owed p = true → s.dev.fwServes = true →
    Does (.domainRestore p) s fun e => e.power = { s.dev.power with owed := withBit s.dev.power.owed p false } ∧ Only [.power] s.dev e)
  ∧ ∀ (s : State) (c : Change), s.dev.power.run = some c → c.phase = 2 → Nat.land s.dev.power.on c.on = c.on → s.dev.power.avs = [] →
    s.dev.power.owed = 0 → s.dev.fwServes = true → s.dev.power.queued = none → s.dev.power.latch = 0 →
    Does .powerChangeDone s fun e =>
      e.power.run = none ∧ e.power.on = s.dev.power.on
      ∧ e.power.cur = (if s.dev.power.on = s.dev.powerTarget c.req then c.req.state
        else if s.dev.power.on = s.dev.allDomains then .running else .trimmed)
      ∧ e.reg A.powerLastUs = (s.dev.time.now - c.from') / 1000 % 2 ^ 32 ∧ e.ctr A.powerChanges = (s.dev.ctr A.powerChanges + 1) % 2 ^ 64
      ∧ bit (e.reg A.powerCause) 0 = true ∧ Only [.power, .regs, .ctrs, .funcs, .out] s.dev e

/-- R492 to R494: a wake acts at once, latches while a change runs, and takes a Dormant device back to the state it left. R495 to R497:
a good acknowledgement moves the rail, a bad one is repeated once and then sets AVS_ERR; a trim moves a rail within its bounds. -/
def Obligations.WakesAndRegulators : Prop :=
  (∀ (s : State) (src ch : Nat) (high : Bool), src < 4 → ch < 512 → s.dev.wakeHolds src ch high = true → s.dev.inService = true →
    s.dev.power.run = none → s.dev.power.cur = .running → s.dev.power.latch = 0 → s.dev.power.queued = none →
    Does (.wakeEvent src ch high) s fun e =>
      e.power = { s.dev.power with lastWake := src } ∧ e.reg A.powerWakeInfo = src ∧ bit (e.reg A.powerCause) 1 = true
      ∧ e.pon = s.dev.pon ∧ e.red = s.dev.red ∧ e.time = s.dev.time)
  ∧ (∀ (s : State) (src ch : Nat) (high : Bool), src < 7 → ch < 512 → s.dev.wakeHolds src ch high = true → s.dev.inService = true →
    s.dev.power.run = none → s.dev.power.cur = .dormant → s.dev.power.resume.2 = 0 → s.dev.power.on ≠ s.dev.allDomains →
    Does (.wakeEvent src ch high) s fun e =>
      e.power.lastWake = src ∧ e.power.run.map Change.req = some { state := .running, mask := 0, src := 0, wake := src })
  ∧ (∀ (s : State) (src ch : Nat) (high : Bool), src < 7 → ch < 512 → s.dev.wakeHolds src ch high = true → s.dev.inService = true →
    s.dev.power.run.isSome = true →
    Does (.wakeEvent src ch high) s fun e =>
      bit e.power.latch.toNat src = true ∧ e.power = { s.dev.power with latch := e.power.latch, latchCh := e.power.latchCh }
      ∧ Only [.power, .red, .pon] s.dev e)
  ∧ (∀ (s : State) (b : Nat) (a : Avs), b < 2 → s.dev.avsHead b = some a →
    Does (.avsAck b true) s fun e =>
      e.power.set = s.dev.power.set.set a.rail a.step ∧ e.boot = s.dev.boot ∧ e.pcie = s.dev.pcie ∧ e.upd = s.dev.upd)
  ∧ (∀ (s : State) (b : Nat) (a : Avs), b < 2 → s.dev.avsHead b = some a → a.again = false →
    Does (.avsAck b false) s fun e =>
      e.out = .avs a.rail a.step :: s.dev.out ∧ e.power.set = s.dev.power.set ∧ { a with again := true, at' := s.dev.time.now } ∈ e.power.avs
      ∧ Only [.power, .out] s.dev e)
  ∧ (∀ (s : State) (b : Nat) (a : Avs), b < 2 → s.dev.avsHead b = some a → a.again = true → a.rail < 7 →
    a.at' + 1000000 ≤ s.dev.time.nextAt →
    Does (.avsTimeout b) s fun e =>
      bit (e.reg A.powerAvsStatus) a.rail = true ∧ bit (e.reg A.powerCause) 3 = true ∧ e.power.set = s.dev.power.set
      ∧ e.boot = s.dev.boot ∧ e.pcie = s.dev.pcie ∧ e.upd = s.dev.upd)
  ∧ ∀ (s : State) (rail mv : Nat), rail < 7 → s.dev.boot.devReady = true → (fedBy rail).any s.dev.domOn = true → 650 ≤ mv → mv ≤ 850 →
    mv ≤ nth 750 s.dev.power.fused rail + 25 → nth 750 s.dev.power.fused rail ≤ mv + 25 → mv ≤ nth 750 s.dev.power.set rail + 25 →
    nth 750 s.dev.power.set rail ≤ mv + 25 → (∀ t, Tbl.get? s.dev.power.trimAt rail = some t → t + 100000000 ≤ s.dev.uptimeNs) →
    s.dev.power.avs.all (fun a => a.rail != rail) = true → mv ≠ nth 750 s.dev.power.set rail →
    Does (.railTrim rail mv) s fun e =>
      (∃ a ∈ e.power.avs, a.rail = rail ∧ a.target = mv) ∧ Tbl.get? e.power.trimAt rail = some s.dev.uptimeNs
      ∧ e.power.set = s.dev.power.set ∧ Only [.power, .out] s.dev e

/-! ## Channels, trees and engines -/

/-- R143, R172, R180, R183, R184, R213, R214, Table 6-10: the channel group. -/
def Obligations.ChannelCommandsAnswer : Prop :=
  Answers .chanConfig cmdChanConfig [.pon, .due] (fun _ _ => [])
    (fun d m e =>
      let c := leAt m.payload 0 2
      let x := d.chan c
      e.chan c = { x with
        mode := leAt m.payload 2 1, usRate := leAt m.payload 3 1, dsWl := leAt m.payload 4 1, usWl := leAt m.payload 5 1
        ponId := leAt m.payload 8 4, maxLife := 86400, alg := if leAt m.payload 2 1 = 2 then x.alg else 0 }
      ∧ (∀ k, k ≠ c → e.chan k = d.chan k) ∧ (∀ o, e.onu o = d.onu o) ∧ e.reg (A.rngReach c) = (regReset (A.rngReach c)).toNat)
  ∧ Answers .treeCreate cmdTreeCreate [.pon] (fun _ _ => [])
    (fun d m e =>
      let t := leAt m.payload 0 2
      let cs := (List.range (leAt m.payload 2 1)).map fun n => leAt m.payload (4 + 2 * n) 2
      e.tree? t = some { chans := cs, ident := leAt m.payload 12 4, filledAt := d.uptimeNs }
      ∧ (∀ c ∈ cs, e.chan c = { d.chan c with tree := some t }) ∧ (∀ c, c ∉ cs → e.chan c = d.chan c)
      ∧ (∀ u, u ≠ t → e.tree? u = d.tree? u) ∧ (∀ o, e.onu o = d.onu o))
  ∧ Answers .treeDelete cmdTreeDelete [.pon, .otdr] (fun _ _ => [])
    (fun d m e =>
      let t := leAt m.payload 0 2
      e.tree? t = none ∧ (∀ c ∈ d.treeChans t, (e.chan c).tree = none) ∧ (∀ c, c ∉ d.treeChans t → e.chan c = d.chan c)
      ∧ (∀ u, u ≠ t → e.tree? u = d.tree? u ∧ e.otdrOf u = d.otdrOf u) ∧ (∀ o, e.onu o = d.onu o))
  ∧ Answers .chanGet cmdChanGet []
    (fun d m =>
      let c := leAt m.payload 0 2
      let x := d.chan c
      le 1 x.mode ++ le 1 x.usRate ++ le 1 x.dsWl ++ le 1 x.usWl ++ le 4 x.ponId ++ le 1 (ChState.num x.state) ++ le 1 0
        ++ le 2 (x.tree.getD 0xFFFF) ++ le 2 (d.pon.onus.filter fun o => o.2.state != .absent && o.2.channel == c).length ++ le 2 0
        ++ le 4 (if d.domOn (9 + c / 128) then d.reg (A.ovrCnt c) else 0))
    (fun _ _ _ => True)
  ∧ Answers .treeGet cmdTreeGet []
    (fun d m =>
      let t := leAt m.payload 0 2
      let x := (d.tree? t).getD { chans := [], ident := 0 }
      le 1 x.chans.length ++ le 1 (nb x.identOk) ++ (List.range 4).flatMap (fun n => le 2 (x.chans.getD n 0xFFFF)) ++ le 4 x.ident
        ++ le 2 (d.pon.onus.filter fun o => o.2.state != .absent && o.2.tree == t).length ++ le 2 0)
    (fun _ _ _ => True)
  ∧ Answers .engineGet cmdEngineGet [.pon]
    (fun d m =>
      let n := leAt m.payload 0 1
      let x := d.eng n
      le 4 (nb x.up + 2 * nb x.fault + 4 * nb x.cmdFail + 8 * nb x.telFail
        + (List.range 16).foldl (fun a i => a + nb (d.chan (16 * n + i)).laser * 2 ^ (4 + i)) 0)
        ++ le 2 (x.temp.getD 0x8000) ++ le 2 0 ++ (List.range 16).flatMap fun i => le 2 ((Tbl.get? x.txPower i).getD 0x8000))
    (fun d m e =>
      e.eng (leAt m.payload 0 1) = { d.eng (leAt m.payload 0 1) with cmdFail := false, telFail := false }
      ∧ (∀ n, n ≠ leAt m.payload 0 1 → e.eng n = d.eng n) ∧ (∀ c, e.chan c = d.chan c))
  ∧ ∀ (s : State) (m : Msg), Passes cmdEngineI2c m s.dev →
    Does (.engineI2c m) s fun e =>
      let n := leAt m.payload 0 1
      .i2c n (leAt m.payload 2 1) (leAt m.payload 4 2) (leAt m.payload 1 1 == 1) (m.payload.drop 8) ∈ e.out
      ∧ ((∃ p, p.length = (if leAt m.payload 1 1 = 1 then 0 else leAt m.payload 3 1) ∧ Answered m 0x0208 p e)
        ∨ (∃ i, i < leAt m.payload 3 1 + 3 ∧ e.out.head? = some (.response m.func 0x0208 m.seq 0x8001 i []))
        ∨ (.i2cRecover n ∈ e.out ∧ e.out.head? = some (.response m.func 0x0208 m.seq 0x8002 0 [])))
      ∧ Only (served []) s.dev e

/-- R167, R181, R182, Table 8-2: CHAN_SET_STATE is answered at once where the channel stands so already, else it waits; its commit at a
frame boundary changes the state, lights the laser or puts it out, and answers. Without TUNED in 19.5 ms it answers TIMEOUT. -/
def Obligations.ChannelStateChangesAtTheBoundary : Prop :=
  (∀ (s : State) (m : Msg), Passes cmdChanSetState m s.dev → s.dev.mirroring = false →
    Does (.chanSetState m) s fun e =>
      let c := leAt m.payload 0 2
      let new := chStateOf (leAt m.payload 2 1)
      ((s.dev.chan c).state = new → Answered m 0x0202 [] e ∧ e.pon = s.dev.pon ∧ Only (served []) s.dev e)
      ∧ ((s.dev.chan c).state ≠ new →
        (∃ r : Req, r.func = m.func ∧ r.op = 0x0202 ∧ r.seq = m.seq ∧ r.body = m.payload ∧ r.from' = s.dev.nextCommit
          ∧ e.pon = { s.dev.pon with commits := s.dev.pon.commits ++ [r] })
        ∧ (e.kiosk m.func).executing.map (fun r => (r.op, r.seq)) = some (0x0202, m.seq) ∧ Only [.funcs, .out, .round, .pon] s.dev e))
  ∧ (∀ (d : Dev) (c : Nat), (d.chan c).state = .off → (d.chan c).tree = none → d.shadow = false →
    let e := d.chanGo c .towpath
    (e.chan c).state = .towpath ∧ (e.chan c).laser = true ∧ (e.chan c).bcast.active = 1 ∧ (e.chan c).bcast.k1.isSome = true
    ∧ e.reg (A.ovrCnt c) = 0 ∧ .bcl (c / 16) (d.time.tick - 1) (d.bclWord c 2 0 1 d.time.tick) ∈ e.out
    ∧ (∀ k, k ≠ c → e.chan k = d.chan k) ∧ e.boot = d.boot ∧ e.power = d.power)
  ∧ (∀ (d : Dev) (c : Nat), (d.chan c).state = .service → d.pon.onus = [] →
    let e := d.chanGo c .off
    (e.chan c).state = .off ∧ (e.chan c).laser = false ∧ (e.chan c).bcast = {} ∧ (e.chan c).muted = true
    ∧ (∀ t, (d.chan c).tree = some t → d.treeChans t = [c] → (e.recv c).reach = none) ∧ e.boot = d.boot ∧ e.power = d.power)
  ∧ ∀ (s : State) (f : Nat) (r : Req), f < 64 → (s.dev.kiosk f).executing = some r → r.op = 0x0202 → s.dev.awaitsTune r = true →
    r.taken + 19500000 ≤ s.dev.time.nextAt → (s.dev.kiosk f).interrupted = false → (s.dev.kiosk f).discard = false →
    Does (.chanTuneTimeout f) s fun e =>
      e.out.head? = some (.response f 0x0202 r.seq 0x000C 0 []) ∧ (e.kiosk f).executing = none
      ∧ (∀ q ∈ e.pon.commits, ¬ (q.func = f ∧ q.seq = r.seq ∧ q.op = 0x0202)) ∧ (∀ c, e.chan c = s.dev.chan c)
      ∧ Only [.pon, .draws, .regs, .meas, .funcs, .out, .time] s.dev e

/-- R208 to R213: telemetry of an intact frame is taken and counts towards the link; a bad one is counted; a link that is lost, or does not
come up, sets LINK_LOST once; the state of the channels is repeated every 128 ticks. -/
def Obligations.BurstControlLinkRuns : Prop :=
  (∀ (s : State) (n fl : Nat), n < 32 → s.dev.bclRuns n = true → bit fl 0 = false →
    Does (.bclTelemetryFrame n true fl []) s fun e =>
      (e.eng n).good = min 4 ((s.dev.eng n).good + 1) ∧ (e.eng n).lastEdge = s.dev.time.edges ∧ (e.eng n).fault = bit fl 1
      ∧ (e.eng n).up = ((s.dev.eng n).up || decide (4 ≤ (s.dev.eng n).good + 1)) ∧ (∀ k, k ≠ n → e.eng k = s.dev.eng k)
      ∧ (∀ c, e.chan c = s.dev.chan c) ∧ Only [.pon] s.dev e)
  ∧ (∀ (s : State) (n v : Nat), n < 32 → v < 65536 → s.dev.bclRuns n = true →
    Does (.bclTelemetryFrame n true 0 [w32 (2 * 2 ^ 28 + v)]) s fun e => (e.eng n).temp = some v ∧ Only [.pon] s.dev e)
  ∧ (∀ (s : State) (n i v : Nat), n < 32 → i < 16 → v < 65536 → s.dev.bclRuns n = true →
    Does (.bclTelemetryFrame n true 0 [w32 (6 * 2 ^ 28 + i * 2 ^ 24 + v)]) s fun e =>
      (e.chan (16 * n + i)) = { s.dev.chan (16 * n + i) with dsDone := some v } ∧ (∀ c, c ≠ 16 * n + i → e.chan c = s.dev.chan c)
      ∧ Only [.pon] s.dev e)
  ∧ (∀ (s : State) (n fl : Nat), n < 32 → s.dev.bclRuns n = true →
    Does (.bclTelemetryFrame n false fl []) s fun e =>
      e.eng n = { s.dev.eng n with good := 0, telFail := true } ∧ e.ctr (A.bclCrc n) = (s.dev.ctr (A.bclCrc n) + 1) % 2 ^ 64
      ∧ Only [.pon, .ctrs] s.dev e)
  ∧ (∀ (s : State) (n : Nat), n < 32 → s.dev.bclRuns n = true → (s.dev.eng n).up = true → (s.dev.eng n).lastEdge + 3 ≤ s.dev.time.edges →
    Does (.bclLinkDown n) s fun e =>
      e.eng n = { s.dev.eng n with up := false, good := 0 } ∧ bit (e.reg (A.bclStatus n)) 1 = true
      ∧ Only [.pon, .regs, .pav, .ctrs, .data, .funcs, .out] s.dev e)
  ∧ (∀ (s : State) (n t : Nat), n < 32 → s.dev.bclRuns n = true → (s.dev.eng n).up = false → (s.dev.eng n).startEdge = some t →
    t + 128 ≤ s.dev.time.edges →
    Does (.bclLinkUpTimeout n) s fun e =>
      e.eng n = { s.dev.eng n with startEdge := none } ∧ bit (e.reg (A.bclStatus n)) 1 = true
      ∧ Only [.pon, .regs, .pav, .ctrs, .data, .funcs, .out] s.dev e)
  ∧ ∀ (s : State) (n : Nat), n < 32 → s.dev.bclRuns n = true → (s.dev.eng n).refreshed + 128 ≤ s.dev.time.edges →
    Does (.bclStateRefresh n) s fun e =>
      e.eng n = { s.dev.eng n with refreshed := s.dev.time.edges }
      ∧ (∀ i < 16, let c := 16 * n + i
        .bcl n s.dev.time.nextTick (s.dev.bclWord c 2 0 (nb (s.dev.chan c).laser) (s.dev.time.nextTick + 1)) ∈ e.out
        ∧ .bcl n s.dev.time.nextTick (s.dev.bclWord c 3 0 (s.dev.chan c).dsWl (s.dev.time.nextTick + 1)) ∈ e.out
        ∧ .bcl n s.dev.time.nextTick (s.dev.bclWord c 4 0 (s.dev.chan c).usWl (s.dev.time.nextTick + 1)) ∈ e.out)
      ∧ (∀ c, e.chan c = s.dev.chan c) ∧ Only [.pon, .out] s.dev e

/-! ## Die links and reference clocks -/

/-- R21 to R23: a failed flit is counted and replayed, and its fourth failure in a row starts a retrain; a good retrain ends it, the third
bad one declares the link failed, with the failure flag; a spare lane takes the place of a failed one. -/
def Obligations.DieLinksReplayRetrainAndFail : Prop :=
  (∀ (s : State) (n k : Nat) (atP same : Bool), n < 6 → 1 ≤ k → s.dev.domOn 15 = true → s.dev.linkCarries n = true →
    Does (.dieLinkFlitCrcFail n atP same k) s fun e =>
      let fails := if same then (s.dev.dlink n).fails + 1 else 1
      e.ctr (A.dlink n (if atP then 0x08 else 0x10)) = (s.dev.ctr (A.dlink n (if atP then 0x08 else 0x10)) + 1) % 2 ^ 64
      ∧ e.ctr (A.dlink n 0x18) = (s.dev.ctr (A.dlink n 0x18) + k) % 2 ^ 64
      ∧ (fails < 4 → e.dlink n = { s.dev.dlink n with replayed := true, fails := fails })
      ∧ (4 ≤ fails → e.dlink n = { s.dev.dlink n with replayed := true, fails := 0, retraining := true })
      ∧ (∀ j, j ≠ n → e.dlink j = s.dev.dlink j) ∧ Only [.data, .ctrs, .regs, .meas, .funcs, .out] s.dev e)
  ∧ (∀ (s : State) (n : Nat), n < 6 → s.dev.domOn 15 = true → (s.dev.dlink n).retraining = true → (s.dev.dlink n).badTrains < 3 →
    s.dev.data.buf.recvQ = [] →
    Does (.dieLinkRetrainDone n true) s fun e =>
      e.dlink n = { s.dev.dlink n with retraining := false, badTrains := 0 } ∧ (∀ j, j ≠ n → e.dlink j = s.dev.dlink j)
      ∧ Only [.data] s.dev e)
  ∧ (∀ (s : State) (n : Nat), n < 6 → s.dev.domOn 15 = true → (s.dev.dlink n).retraining = true → (s.dev.dlink n).badTrains < 3 →
    Does (.dieLinkRetrainDone n false) s fun e =>
      (e.dlink n).badTrains = (s.dev.dlink n).badTrains + 1 ∧ (e.dlink n).retraining = true
      ∧ e.ctr (A.dlink n 0x20) = (s.dev.ctr (A.dlink n 0x20) + nb (decide ((s.dev.dlink n).badTrains < 2))) % 2 ^ 64
      ∧ (∀ j, j ≠ n → e.dlink j = s.dev.dlink j) ∧ Only [.data, .ctrs] s.dev e)
  ∧ (∀ (s : State) (n : Nat), n < 6 → s.dev.domOn 15 = true → (s.dev.dlink n).fatal = false → 3 ≤ (s.dev.dlink n).badTrains →
    Does (.dieLinkFailed n) s fun e =>
      e.dlink n = { s.dev.dlink n with up := false, retraining := false, fatal := true }
      ∧ e.data.buf.recvQ = s.dev.data.buf.recvQ.filter (fun p => p.die != n)
      ∧ (s.dev.red.role ≠ .alone → e.red.flag = true ∧ e.red.flagStops = true)
      ∧ e.boot = s.dev.boot ∧ e.power = s.dev.power ∧ e.time = s.dev.time)
  ∧ ∀ (s : State) (n : Nat), n < 6 → s.dev.domOn 15 = true → (s.dev.dlink n).up = true → 0 < (s.dev.dlink n).spareLeft →
    (s.dev.dlink n).spareUsed < 8 →
    Does (.spareLaneReplace n) s fun e =>
      e.dlink n = { s.dev.dlink n with spareUsed := (s.dev.dlink n).spareUsed + 1, spareLeft := (s.dev.dlink n).spareLeft - 1 }
      ∧ (∀ j, j ≠ n → e.dlink j = s.dev.dlink j) ∧ Only [.data] s.dev e

/-- R35, R36, Table 2-5: the loss of a clock clears its OK bit, latches its LOST bit, and acts: the Dike's lines stop, the Sluice's links
go down, or the whole device leaves service. A clock that returns sets OK again. -/
def Obligations.ReferenceClocksComeAndGo : Prop :=
  (∀ (s : State) (k : Nat), k < 10 → s.dev.boot.pd00 = true → bit (s.dev.reg A.refclk) k = true →
    Does (.refclkLoss k) s fun e =>
      bit (e.reg A.refclk) k = false ∧ bit (e.reg A.refclk) (16 + k) = true
      ∧ (k < 4 → bit e.pon.linesOff k = true ∧ e.power = s.dev.power ∧ e.boot = s.dev.boot)
      ∧ (4 ≤ k → k < 6 → (∀ i < 256, (e.sub (256 * (k - 4) + i)).up = false) ∧ e.pon = s.dev.pon ∧ e.boot = s.dev.boot)
      ∧ (k = 6 → s.dev.pcie.linkUp = true → e.pcie.linkUp = false ∧ e.pcie.vfEnable = false)
      ∧ (k = 7 → e.boot.halted = true ∧ e.boot.devReady = false ∧ e.power.run = none ∧ (∀ p, 0 < p → p < 24 → e.domOn p = false))
      ∧ (k = 8 → e.boot = s.dev.boot ∧ e.power = s.dev.power ∧ e.pon = s.dev.pon ∧ e.pcie = s.dev.pcie)
      ∧ (k = 9 → s.dev.mir.up = true → e.mir.up = false ∧ e.power = s.dev.power))
  ∧ ∀ (s : State) (k : Nat), k < 10 → s.dev.boot.pd00 = true → bit (s.dev.reg A.refclk) k = false →
    Does (.refclkReturn k) s fun e =>
      bit (e.reg A.refclk) k = true ∧ (∀ j, j ≠ k → bit (e.reg A.refclk) j = bit (s.dev.reg A.refclk) j)
      ∧ (k = 7 ∨ k = 8 → e.time = { s.dev.time with diffFrom := s.dev.time.now }) ∧ (k ≠ 7 → k ≠ 8 → e.time = s.dev.time)
      ∧ Only [.regs, .time] s.dev e

/-! ## The registry -/

/-- R144, R247, R263, Table 6-11: the ONU commands that are answered at once. OMCI_SEND on a shadow device sends nothing. -/
def Obligations.OnuCommandsAnswer : Prop :=
  Answers .onuList cmdOnuList []
    (fun d m =>
      let all := d.pon.onus.filter fun e => e.2.state != .absent && e.2.tree == leAt m.payload 0 2 && decide (leAt m.payload 2 2 ≤ e.1)
        && bit (leAt m.payload 4 1) (OnuState.code e.2.state)
      le 2 (min 126 all.length) ++ le 2 (((all.drop 126).head?.map Prod.fst).getD 0xFFFF) ++ (all.take 126).flatMap fun e =>
        le 2 e.1 ++ le 1 (OnuState.code e.2.state) ++ le 1 e.2.caps ++ be 8 e.2.serial ++ le 2 e.2.channel ++ le 2 0)
    (fun _ _ _ => True)
  ∧ Answers .onuGet cmdOnuGet []
    (fun d m =>
      let o := d.onu (leAt m.payload 0 2)
      le 1 (OnuState.code o.state) ++ le 1 o.tenant ++ le 2 o.tree ++ le 2 o.channel ++ le 1 o.caps ++ le 1 0 ++ be 8 o.serial ++ le 4 o.eqd
        ++ le 2 (d.onuFlows (leAt m.payload 0 2)) ++ le 2 (d.onuAllocs (leAt m.payload 0 2)))
    (fun _ _ _ => True)
  ∧ Answers .onuMigrate cmdOnuMigrate [.pon] (fun _ _ => [])
    (fun d m e =>
      let o := leAt m.payload 0 2
      e.onu o = { d.onu o with migr := some { old := (d.onu o).channel, target := leAt m.payload 2 2, notBefore := d.nextCommit } }
      ∧ (∀ k, k ≠ o → e.onu k = d.onu k) ∧ (∀ c, e.chan c = d.chan c))
  ∧ Answers .onuDiscLimit cmdOnuDiscLimit [.pon] (fun _ _ => [])
    (fun d m e =>
      let t := leAt m.payload 0 2
      (e.tree? t).map Tree.rate = some (leAt m.payload 2 2) ∧ (∀ u, u ≠ t → e.tree? u = d.tree? u) ∧ (∀ o, e.onu o = d.onu o)
      ∧ ∀ x, e.tree? t = some x → x.tokens ≤ max (leAt m.payload 2 2) 1 * 1000000000)
  ∧ Answers .omciSend cmdOmciSend [.pon, .ctrs] (fun _ _ => [])
    (fun d m e =>
      let o := leAt m.payload 0 2
      (d.shadow = false → .omci o (m.payload.drop 4) ∈ e.out ∧ e.onu o = { d.onu o with omci := (d.onu o).omci + 1 } ∧ e.ctrs = d.ctrs)
      ∧ (d.shadow = true → e.onu o = d.onu o ∧ e.ctr A.redDsDiscard = (d.ctr A.redDsDiscard + 1) % 2 ^ 64)
      ∧ (∀ k, k ≠ o → e.onu k = d.onu k))
  ∧ Answers .omciRecv cmdOmciRecv []
    (fun d m => ((d.omciOf (leAt m.payload 0 4)).map fun x => le 2 x.onu ++ le 2 x.msg.length ++ x.msg).getD [])
    (fun _ _ _ => True)
  ∧ ∀ (s : State) (h : Nat), h < 2 ^ 32 →
    Does (.omciHandleExpiry h) s fun e =>
      (∀ x ∈ e.pon.omci, ¬ (x.handle = h ∧ x.at' + 1000000000 ≤ s.dev.uptimeNs))
      ∧ (∀ x ∈ s.dev.pon.omci, x.handle ≠ h → x ∈ e.pon.omci) ∧ e.pon = { s.dev.pon with omci := e.pon.omci } ∧ Only [.pon] s.dev e

/-- R144, R167, R244, R265, R266: authorise, suspend and deregister wait for a tick edge, which moves the entry and answers: a DISCOVERED
entry to RANGING, an OPERATING one to SUSPENDED and back; a deregistered one is gone with its flows and allocations. -/
def Obligations.RegistryChangesCommitAtTheEdge : Prop :=
  Orders .onuAuthorise cmdOnuAuthorise ∧ Orders .onuSuspend cmdOnuSuspend ∧ Orders .onuDeregister cmdOnuDeregister
  ∧ Commits cmdOnuAuthorise [.pon] (fun _ _ => [])
    (fun d b e =>
      let o := leAt b 0 2
      (e.onu o).auth = true ∧ (e.onu o).tenant = leAt b 2 1 ∧ (e.onu o).regId = slice b 4 36
      ∧ ((d.onu o).state = .quarantined → (e.onu o).state = .discovered)
      ∧ ((d.onu o).state = .discovered → (d.onu o).auth = false → (e.onu o).state = .ranging ∧ (e.onu o).step = 1)
      ∧ (∀ k, k ≠ o → e.onu k = d.onu k) ∧ (∀ c, e.chan c = d.chan c))
  ∧ Commits cmdOnuSuspend [.pon, .data] (fun _ _ => [])
    (fun _ b e =>
      let o := leAt b 0 2
      (e.onu o).state = (if leAt b 2 1 = 0 then .suspended else .operating) ∧ (e.onu o).held = (leAt b 2 1 == 0))
  ∧ Commits cmdOnuDeregister [.pon, .data, .ctrs, .regs, .meas, .pav] (fun _ _ => [])
    (fun d b e =>
      let o := leAt b 0 2
      (e.onu o).state = .absent ∧ (∀ a ∈ e.pon.allocs, a.2.onu ≠ o) ∧ (∀ f ∈ e.pon.flows, f.2.onu ≠ o)
      ∧ (∀ x ∈ e.pon.omci, x.onu ≠ o) ∧ e.boot = d.boot ∧ e.time = d.time)

/-! ## Discovery, activation and migration -/

/-- R226, R244, R245, R247, Table 10-5: a burst in a window is handed over; an unknown serial number creates the lowest free entry, which
becomes DISCOVERED at the next T0; an authorised one goes to RANGING; eight seconds without authorisation quarantine it. -/
def Obligations.SerialNumbersAreAdmitted : Prop :=
  (∀ (s : State) (c i : Nat) (off : Int) (w : Win), c < 512 → (s.dev.recv c).wins[i]? = some w → s.dev.rngRuns c = true → w.kind ≠ 2 →
    (64 * w.lo : Int) ≤ 64 * w.grant + off → (64 * w.grant + off : Int) < 64 * w.hi →
    Does (.quietWindowBurst c i off) s fun e =>
      e.recv c = { s.dev.recv c with heard := (s.dev.recv c).heard ++ [(w, off)] } ∧ (∀ k, k ≠ c → e.recv k = s.dev.recv k)
      ∧ (∀ o, e.onu o = s.dev.onu o) ∧ Only [.pon] s.dev e)
  ∧ (∀ (s : State) (c t : Nat) (sn : BitVec 64) (w : Win) (off : Int) (tr : Tree), c < 512 → s.dev.rngServes c = true →
    (s.dev.recv c).heard.find? (fun h => h.1.kind == 0 || h.1.kind == 3) = some (w, off) → (s.dev.chan c).tree = some t →
    s.dev.tree? t = some tr → tr.rate ≠ 0 → 1000000000 ≤ (Tree.fill tr s.dev.uptimeNs).tokens → s.dev.pon.onus = [] →
    Does (.serialNumberRx c sn) s fun e =>
      e.onu 0 = {
        serial := sn.toNat, tree := t, channel := c, lineId := 0, caps := if (s.dev.chan c).mode = 2 then 1 else 0
        moveTo := some (.discovered, 1), est := (if w.kind = 3 then 1 else 0, off - w.eqdPre) }
      ∧ e.ctr (A.rngSnRx c) = (s.dev.ctr (A.rngSnRx c) + 1) % 2 ^ 64 ∧ (∀ k, k ≠ 0 → e.onu k = s.dev.onu k)
      ∧ (∀ k, e.chan k = s.dev.chan k) ∧ Only [.pon, .ctrs] s.dev e)
  ∧ (∀ (s : State) (c t o : Nat) (sn : BitVec 64) (w : Win) (off : Int), c < 512 → s.dev.rngServes c = true →
    (s.dev.recv c).heard.find? (fun h => h.1.kind == 0 || h.1.kind == 3) = some (w, off) → (s.dev.chan c).tree = some t →
    (s.dev.pon.onus.find? fun e => Onu.held' e.2 && e.2.serial == sn.toNat).map Prod.fst = some o → (s.dev.onu o).tree = t →
    (s.dev.onu o).state = .discovered → (s.dev.onu o).auth = true → (s.dev.onu o).channel = c →
    Does (.serialNumberRx c sn) s fun e =>
      (e.onu o).moveTo = some (.ranging, 1) ∧ (e.onu o).moveCh = some c ∧ (e.onu o).state = .discovered
      ∧ (∀ k, k ≠ o → e.onu k = s.dev.onu k) ∧ Only [.pon, .ctrs] s.dev e)
  ∧ ∀ (s : State) (o : Nat), o < 65536 → s.dev.rngServes (s.dev.onu o).channel = true → (s.dev.onu o).state = .discovered →
    (s.dev.onu o).auth = false → (s.dev.onu o).since + 8000000000 ≤ s.dev.uptimeNs → (s.dev.onu o).moveTo = none →
    Does (.discoveryHoldExpiry o) s fun e =>
      e.onu o = { s.dev.onu o with moveTo := some (.quarantined, 4) } ∧ (∀ k, k ≠ o → e.onu k = s.dev.onu k) ∧ Only [.pon] s.dev e

/-- R196, R200, R244, R261, Table 10-8: each step's answer takes an ONU in RANGING to the next step; a step that waits too long asks again
or ends the activation; the last step orders OPERATING, or SUSPENDED for a held ONU. -/
def Obligations.ActivationStepsFollowEachOther : Prop :=
  let alone := fun (s : State) (o : Nat) (e : Dev) => ∀ k, k ≠ o → e.onu k = s.dev.onu k
  let ready := fun (s : State) (o step : Nat) =>
    o < 65536 ∧ s.dev.rngRuns (s.dev.onu o).channel = true ∧ (s.dev.onu o).state = .ranging ∧ (s.dev.onu o).step = step
  (∀ (s : State) (o : Nat) (w : Win) (off : Int), ready s o 1 →
    (s.dev.recv (s.dev.onu o).channel).heard.find? (fun h => h.1.kind == 1 && h.1.who == o) = some (w, off) →
    Does (.rangingResponse o) s fun e =>
      (e.onu o).eqd = ((w.eqdPre : Int) - off).toNat ∧ (e.onu o).step = 3 ∧ (e.onu o).tries = 1 ∧ (e.onu o).stepBy = s.dev.frame + 8
      ∧ .ploam (s.dev.onu o).channel (some (s.dev.onu o).lineId) "Ranging_Time" (le 4 (e.onu o).eqd) ∈ e.out
      ∧ alone s o e ∧ Only [.pon, .out] s.dev e)
  ∧ (∀ (s : State) (o : Nat), ready s o 3 → (s.dev.onu o).stepBy ≤ s.dev.frame → (s.dev.onu o).moveTo = none →
    Does (.activationStepTimeout o) s fun e =>
      ((s.dev.onu o).tries < 3 → (e.onu o).tries = (s.dev.onu o).tries + 1 ∧ (e.onu o).stepBy = s.dev.frame + 8 ∧ (e.onu o).step = 3)
      ∧ (3 ≤ (s.dev.onu o).tries → e.onu o = { s.dev.onu o with moveTo := some (.discovered, 3) }) ∧ alone s o e ∧ Only [.pon, .out] s.dev e)
  ∧ (∀ (s : State) (o : Nat) (reg : Bytes), ready s o 3 → reg.length ≤ 36 →
    Does (.registrationRx o reg) s fun e =>
      (slice reg 0 36 = slice (s.dev.onu o).regId 0 36 → (e.onu o).step = 4 ∧ (e.onu o).tries = 1 ∧ (e.onu o).stepBy = s.dev.frame + 8)
      ∧ ((s.dev.onu o).regId.any (· != 0) = true → slice reg 0 36 ≠ slice (s.dev.onu o).regId 0 36 →
        e.onu o = { s.dev.onu o with moveTo := some (.quarantined, 5) }) ∧ alone s o e ∧ Only [.pon, .out] s.dev e)
  ∧ (∀ (s : State) (o caps ds us ms : Nat), ready s o 4 → caps < 256 → ds < 65536 → us < 65536 → ms < 65536 →
    Does (.extCapsRx o caps ds us ms) s fun e =>
      (e.onu o).caps = (s.dev.onu o).caps % 2 + 2 * (caps / 2 % 4) ∧ (e.onu o).tuneDs = ds ∧ (e.onu o).tuneUs = us ∧ (e.onu o).tuneMs = ms
      ∧ (e.onu o).step = 5 ∧ alone s o e ∧ Only [.pon, .out] s.dev e)
  ∧ (∀ (s : State) (o : Nat) (key : Bytes), o < 65536 → s.dev.fwServes = true → s.dev.standby = false → (s.dev.onu o).state = .ranging →
    (s.dev.onu o).step = 5 → (s.dev.onu o).keys.active = 0 → key.length = keyBytes (s.dev.chan (s.dev.onu o).channel).alg →
    s.dev.red.pairKey = none →
    Does (.onuKeyRx o key) s fun e =>
      (e.onu o).keys.active = 1 ∧ (e.onu o).keys.k1 = some { alg := (s.dev.chan (s.dev.onu o).channel).alg, key := key }
      ∧ (e.onu o).keys.fromFrame = s.dev.frame ∧ (e.onu o).step = 6 ∧ alone s o e ∧ Only [.pon] s.dev e)
  ∧ (∀ (s : State) (o : Nat), ready s o 6 →
    Does (.activationComplete o) s fun e =>
      e.onu o = { s.dev.onu o with moveTo := some (if (s.dev.onu o).held then .suspended else .operating, 2) }
      ∧ alone s o e ∧ Only [.pon] s.dev e)
  ∧ ∀ (s : State) (o : Nat), o < 65536 → OnuState.losable (s.dev.onu o).state = true → s.dev.standby = false →
    Does (.dyingGasp o) s fun e =>
      e.onu o = { s.dev.onu o with moveTo := some (.discovered, 8) } ∧ alone s o e ∧ Only [.pon] s.dev e

/-- R259, R260, R262: a block of 128 bursts whose mean offset reaches the threshold sets a new EQD by the nearest whole number; the end of a
spread integration counts its detections and takes those that may be acknowledged. -/
def Obligations.DriftAndSpreadDiscovery : Prop :=
  (∀ (s : State) (o : Nat), o < 65536 → 128 ≤ (s.dev.onu o).blockN → s.dev.standby = false →
    let x := s.dev.onu o
    let thr := max 1 (fld (s.dev.live' (A.rngParam x.channel)) 16 4)
    Does (.eqdDriftBlock o) s fun e =>
      (e.onu o).blockN = 0 ∧ (e.onu o).blockSum = 0 ∧ (e.onu o).eqd = x.eqd
      ∧ (x.blockSum.natAbs < thr * x.blockN → e.onu o = { x with blockN := 0, blockSum := 0 } ∧ e.ctrs = s.dev.ctrs)
      ∧ (thr * x.blockN ≤ x.blockSum.natAbs → ∃ q : Int, 2 * (q * x.blockN - x.blockSum).natAbs ≤ x.blockN
        ∧ (e.onu o).eqdNext = some ((x.eqd : Int) - q).toNat
        ∧ e.ctr (A.rngEqdUpd x.channel) = (s.dev.ctr (A.rngEqdUpd x.channel) + 1) % 2 ^ 64)
      ∧ (∀ k, k ≠ o → e.onu k = s.dev.onu k) ∧ Only [.pon, .out, .ctrs, .draws] s.dev e)
  ∧ ∀ (s : State) (c : Nat) (l : List (Nat × Nat)), c < 512 → l.length ≤ 4 → (∀ x ∈ l, x.1 < 1024 ∧ x.2 < 77760) →
    s.dev.rngServes c = true → bit (s.dev.live' (A.rngCfg c)) 14 = true →
    s.dev.time.tick % (64 * min 4 (max 1 (fld (s.dev.live' (A.rngParam c)) 8 3))) = 0 → (s.dev.recv c).integFrom < s.dev.time.tick →
    Does (.spreadIntegrationEnd c l) s fun e =>
      e.ctr (A.rngSpreadDet c) = (s.dev.ctr (A.rngSpreadDet c) + l.length) % 2 ^ 64 ∧ (e.recv c).integFrom = s.dev.time.tick
      ∧ (e.recv c).acks = l.filter (fun x => !(s.dev.recv c).noAck.contains x.1) ∧ (e.recv c).noAck = []
      ∧ (∀ o, e.onu o = s.dev.onu o) ∧ Only [.pon, .ctrs, .out] s.dev e

/-- R263, Tables 10-10, 10-11: the answers to EXT_TUNE accept, refuse, arrive or return; no answer repeats the message three times and then
ends the migration; no arrival turns it back, and no return ends it. -/
def Obligations.MigrationsArriveOrTurnBack : Prop :=
  (∀ (s : State) (o sq code : Nat) (off : Int) (m : Migr), o < 65536 → sq < 256 → code < 4 → (s.dev.onu o).migr = some m →
    (s.dev.onu o).state = .migrating → s.dev.standby = false → (s.dev.onu o).tuneSeq = sq →
    Does (.extTuneRespRx o sq code off) s fun e =>
      (code = 0 → s.dev.frame < m.fs → e.onu o = { s.dev.onu o with migr := some { m with accepted := true } })
      ∧ (code = 1 → s.dev.frame < m.fs → e.onu o = { s.dev.onu o with moveCh := some m.old, moveTo := some (.operating, 9) })
      ∧ (code = 2 → m.fs ≤ s.dev.frame → m.rollback = false →
        e.onu o = { s.dev.onu o with
          moveCh := some m.target, eqdNext := some (((s.dev.onu o).eqd : Int) - off).toNat, moveTo := some (.operating, 9) })
      ∧ (code = 3 → m.rollback = true → e.onu o = { s.dev.onu o with moveCh := some m.old, moveTo := some (.operating, 9) })
      ∧ (∀ k, k ≠ o → e.onu k = s.dev.onu k) ∧ Only [.pon] s.dev e)
  ∧ (∀ (s : State) (o : Nat) (m : Migr), o < 65536 → (s.dev.onu o).migr = some m → (s.dev.onu o).state = .migrating → m.started = true →
    m.accepted = false → m.answerBy ≤ s.dev.frame → s.dev.standby = false → (s.dev.onu o).moveTo = none →
    Does (.extTuneRespTimeout o) s fun e =>
      (m.sends < 3 → (e.onu o).migr = some { m with sends := m.sends + 1, fs := s.dev.frame + 16, answerBy := s.dev.frame + 4 }
        ∧ (e.onu o).tuneSeq = ((s.dev.onu o).tuneSeq + 1) % 256)
      ∧ (3 ≤ m.sends → e.onu o = { s.dev.onu o with moveCh := some m.old, moveTo := some (.operating, 9) })
      ∧ (∀ k, k ≠ o → e.onu k = s.dev.onu k) ∧ Only [.pon, .out] s.dev e)
  ∧ ∀ (s : State) (o : Nat) (m : Migr), o < 65536 → (s.dev.onu o).migr = some m → (s.dev.onu o).state = .migrating →
    (s.dev.onu o).moveTo = none → s.dev.standby = false →
    Does (.migrationRollbackExpiry o) s fun e =>
      let rb := 8 * ((s.dev.onu o).tuneMs + 10)
      (m.rollback = false → m.fs + rb + m.lost ≤ s.dev.frame → (s.dev.chan m.old).state ≠ .off →
        (e.onu o).migr = some { m with rollback := true, waitTo := s.dev.frame + rb, lost := 0 } ∧ (e.node (nodeKey 1 o)).deficit = 0)
      ∧ (m.rollback = false → m.fs + rb + m.lost ≤ s.dev.frame → (s.dev.chan m.old).state = .off →
        e.onu o = { s.dev.onu o with moveTo := some (.discovered, 6) })
      ∧ (m.rollback = true → m.waitTo ≤ s.dev.frame → e.onu o = { s.dev.onu o with moveTo := some (.discovered, 6) })
      ∧ (∀ k, k ≠ o → e.onu k = s.dev.onu k) ∧ Only [.pon, .data] s.dev e

/-! ## Forwarding tables -/

/-- R347, R351, R358, R362, R363, Tables 6-16, 14-3: the forwarding commands. A route, a next hop or an entry changes and no other does; a
batch applies whole; a restored word takes its entry back or opens its range again. -/
def Obligations.ForwardingCommandsAnswer : Prop :=
  Answers .routeAdd cmdRouteAdd [.data] (fun _ _ => [])
    (fun d m e =>
      let o := routeAt m.payload 0 false
      let t := d.data.trie
      (e.data.trie.find o.vrf o.af o.len o.pfx).map (fun r => (r.nh, r.hidden)) = some (o.nh, t.openFor o.vrf o.af o.len o.pfx)
      ∧ (∀ v a l p, ¬ (v = o.vrf ∧ a = o.af ∧ l = o.len ∧ p = o.pfx) → e.data.trie.find v a l p = t.find v a l p)
      ∧ e.data = { d.data with trie := { t with routes := e.data.trie.routes } })
  ∧ Answers .routeDelete cmdRouteDelete [.data] (fun _ _ => [])
    (fun d m e =>
      let o := routeAt m.payload 0 true
      let t := d.data.trie
      (t.find o.vrf o.af o.len o.pfx).isSome = true ∧ e.data.trie.find o.vrf o.af o.len o.pfx = none
      ∧ (∀ v a l p, ¬ (v = o.vrf ∧ a = o.af ∧ l = o.len ∧ p = o.pfx) → e.data.trie.find v a l p = t.find v a l p)
      ∧ e.data = { d.data with trie := { t with routes := e.data.trie.routes } })
  ∧ Answers .routeBatch cmdRouteBatch [.data] (fun _ _ => [])
    (fun d m e => ∃ t, routeBatch (batchEntries m.payload) 0 d.data.trie = .ok t ∧ e.data = { d.data with trie := t })
  ∧ Answers .routeGet cmdRouteGet []
    (fun d m =>
      let o := routeAt m.payload 0 false
      match d.data.trie.find o.vrf o.af o.len o.pfx with
      | some r => le 1 1 ++ le 3 0 ++ le 4 r.nh
      | none => le 1 0 ++ le 3 0 ++ le 4 0)
    (fun _ _ _ => True)
  ∧ Answers .nhSet cmdNhSet [.data] (fun _ _ => [])
    (fun d m e =>
      let h := leAt m.payload 0 4
      let b := m.payload
      Tbl.get? e.data.trie.nh h = (if leAt b 4 1 = 0xFF then none
        else some { port := leAt b 4 1, sub := leAt b 5 1, dmac := beAt b 8 6, vlan := leAt b 14 2 })
      ∧ (∀ k, k ≠ h → Tbl.get? e.data.trie.nh k = Tbl.get? d.data.trie.nh k)
      ∧ e.data = { d.data with trie := { d.data.trie with nh := e.data.trie.nh } })
  ∧ Answers .emRead cmdEmRead []
    (fun d m =>
      let l := if leAt m.payload 0 1 = 6 then
          ((d.data.trie.restores.filter fun r => decide (leAt m.payload 4 4 ≤ r.word)).mergeSort fun a b => decide (a.word ≤ b.word)).map
            fun r => (r.word, Restore.bytes r)
        else (d.die (leAt m.payload 0 1)).em.filter fun e => decide (leAt m.payload 4 4 ≤ e.1)
      le 2 (min 63 l.length) ++ le 2 0 ++ le 4 (((l.drop 63).head?.map Prod.fst).getD 0xFFFFFFFF) ++ (l.take 63).flatMap Prod.snd)
    (fun _ _ _ => True)
  ∧ Answers .emRestore cmdEmRestore [.data] (fun _ _ => [])
    (fun d m e =>
      let n := leAt m.payload 0 1
      let i := leAt m.payload 4 4
      let x := slice m.payload 8 32
      let t := d.data.trie
      (n < 6 → e.data.trie = t ∧ (∀ k, k ≠ n → e.die k = d.die k) ∧ i ∉ (e.die n).emBad
        ∧ ((d.emFind n (emKey x)).isSome = true → (e.die n).em = (d.die n).em)
        ∧ (d.emFind n (emKey x) = none → e.emAt n i = some (emWith x false (emDest x) i) ∧ ∀ j, j ≠ i → e.emAt n j = d.emAt n j))
      ∧ (n = 6 → e.data.dies = d.data.dies ∧ e.data.trie.nh = t.nh ∧ e.data.trie.restores = t.restores.filter (fun r => r.word != i)
        ∧ e.data.trie.routes.length = t.routes.length
        ∧ ∀ r ∈ t.routes, r.hidden = false → r ∈ e.data.trie.routes)
      ∧ e.data.buf = d.data.buf)
  ∧ Answers .ageSet cmdAgeSet [] (fun _ _ => [])
    (fun d m e =>
      let n := leAt m.payload 0 1
      ∀ k < 6, e.reg (A.emScanMs k) = (if n = k ∨ (n = 0xFF ∧ d.dieUp k = true) then leAt m.payload 4 4 else d.reg (A.emScanMs k)))

/-- R354 to R361: the learn engine refreshes, moves, inserts or gives up its oldest request; the scanner marks an entry, and removes one that
it finds still marked; an error is corrected and counted, or takes its word out of use and is reported. -/
def Obligations.TableEnginesRun : Prop :=
  (∀ (s : State) (n i : Nat) (x : Bytes) (l : List Bytes), n < 6 → s.dev.dieUp n = true → (s.dev.die n).learn = x :: l →
    Does (.learnRequest n) s fun e =>
      (e.die n).learn = l ∧ (∀ k, k ≠ n → e.die k = s.dev.die k) ∧ Only [.data, .ctrs] s.dev e
      ∧ (∀ old, s.dev.emFind n (emKey x) = some (i, old) →
        (e.emAt n i).map emDest = some (emDest x) ∧ (e.emAt n i).map emMark = some false
        ∧ (∀ j, j ≠ i → e.emAt n j = s.dev.emAt n j)
        ∧ (emDest old = emDest x → e.ctrs = s.dev.ctrs)
        ∧ (emDest old ≠ emDest x → e.ctr (A.em n 0x028) = (s.dev.ctr (A.em n 0x028) + 1) % 2 ^ 64))
      ∧ (s.dev.emFind n (emKey x) = none → s.dev.emFree n (s.dev.emBuckets n (emKey x)) = some i →
        (e.emAt n i).map emDest = some (emDest x) ∧ (e.emAt n i).map emKey = some (emKey x)
        ∧ (∀ j, j ≠ i → e.emAt n j = s.dev.emAt n j) ∧ e.ctr (A.em n 0x020) = (s.dev.ctr (A.em n 0x020) + 1) % 2 ^ 64)
      ∧ (s.dev.emFind n (emKey x) = none → s.dev.emFree n (s.dev.emBuckets n (emKey x)) = none →
        s.dev.emPath n 16 [(s.dev.emBuckets n (emKey x), [])] = none → s.dev.emFree n stashSlots = none →
        (e.die n).em = (s.dev.die n).em ∧ e.ctr (A.em n 0x038) = (s.dev.ctr (A.em n 0x038) + 1) % 2 ^ 64))
  ∧ (∀ (s : State) (n : Nat) (hit : Bool), n < 6 → s.dev.dieUp n = true → s.dev.reg (A.emScanMs n) ≠ 0 →
    Does (.agingVisit n hit) s fun e =>
      let i := (s.dev.die n).scan
      (e.die n).scan = (i + 1) % 1048640 ∧ (∀ k, k ≠ n → e.die k = s.dev.die k) ∧ Only [.data, .ctrs] s.dev e
      ∧ (s.dev.emAt n i = none → (e.die n).em = (s.dev.die n).em ∧ e.ctrs = s.dev.ctrs)
      ∧ (∀ x, s.dev.emAt n i = some x → emMark x = false → hit = true → (e.die n).em = (s.dev.die n).em ∧ e.ctrs = s.dev.ctrs)
      ∧ (∀ x, s.dev.emAt n i = some x → emMark x = false → hit = false →
        (e.emAt n i).map emMark = some true ∧ (e.emAt n i).map emDest = some (emDest x) ∧ (e.emAt n i).map emKey = some (emKey x)
        ∧ (∀ j, j ≠ i → e.emAt n j = s.dev.emAt n j) ∧ e.ctrs = s.dev.ctrs)
      ∧ (∀ x, s.dev.emAt n i = some x → emMark x = true → (∀ j ∈ stashSlots, s.dev.emAt n j = none) →
        e.emAt n i = none ∧ (∀ j, j ≠ i → e.emAt n j = s.dev.emAt n j)
        ∧ e.ctr (A.em n 0x048) = (s.dev.ctr (A.em n 0x048) + 1) % 2 ^ 64
        ∧ e.ctr (A.em n 0x050) = (s.dev.ctr (A.em n 0x050) + nb hit) % 2 ^ 64))
  ∧ (∀ (s : State) (n i : Nat) (bad : Bool), n < 6 → i < 1048640 → s.dev.dieUp n = true →
    Does (.eccScrub 0 n i bad 0 0 0 0 0) s fun e =>
      (bad = false → e.ctr (A.em n 0x068) = (s.dev.ctr (A.em n 0x068) + 1) % 2 ^ 64 ∧ Only [.ctrs] s.dev e)
      ∧ (bad = true → e.emAt n i = none ∧ i ∈ (e.die n).emBad ∧ (∀ j, j ≠ i → e.emAt n j = s.dev.emAt n j)
        ∧ e.ctr (A.em n 0x070) = (s.dev.ctr (A.em n 0x070) + 1) % 2 ^ 64
        ∧ (s.dev.fwServes = false → e.pav = { s.dev.pav with owed := s.dev.pav.owed ++ [(n, 0, i, none)] })
        ∧ Only [.data, .ctrs, .funcs, .out, .pav] s.dev e))
  ∧ ∀ (s : State) (i v a l p st : Nat), l ≤ 128 → st < 8 → s.dev.domOn 15 = true →
    let r : Restore := { word := i, vrf := v, af := a, len := l, pfx := p, stage := st, opened := 0 }
    Does (.eccScrub 1 0 i true v a l p st) s fun e =>
      (∀ q ∈ e.data.trie.routes, r.inside q.vrf q.af q.len q.pfx = false ∧ q ∈ s.dev.data.trie.routes)
      ∧ (∀ q ∈ s.dev.data.trie.routes, r.inside q.vrf q.af q.len q.pfx = false → q ∈ e.data.trie.routes)
      ∧ { r with opened := s.dev.uptimeNs / 1000000000 } ∈ e.data.trie.restores
      ∧ e.ctr (A.trie 0x030) = (s.dev.ctr (A.trie 0x030) + 1) % 2 ^ 64 ∧ e.data.dies = s.dev.data.dies
      ∧ Only [.data, .ctrs, .funcs, .out, .pav] s.dev e

/-! ## Classification -/

/-- R329 to R335, R341, Table 6-15: rules and patterns are written to the bank that is not active; RULE_COPY fills it from the active one;
RULE_SWAP waits for a tick edge, which makes it the active one and answers once no packet of the old epoch is left. -/
def Obligations.RuleCommandsAnswer : Prop :=
  let other := fun (d : Dev) => d.data.cls.bank (d.data.cls.epoch + 1)
  let active := fun (d : Dev) => d.data.cls.bank d.data.cls.epoch
  let same := fun (d e : Dev) => active e = active d ∧ e.data = { d.data with cls := e.data.cls } ∧ e.data.cls.epoch = d.data.cls.epoch
  Answers .ruleWrite cmdRuleWrite [.data] (fun _ _ => [])
    (fun d m e =>
      let i := leAt m.payload 0 4
      let b := m.payload.drop 8
      Tbl.get? (other e).rules i = (if b = List.replicate 16 0 then none else some b)
      ∧ (∀ k, k ≠ i → Tbl.get? (other e).rules k = Tbl.get? (other d).rules k) ∧ (other e).patterns = (other d).patterns ∧ same d e)
  ∧ Answers .patternWrite cmdPatternWrite [.data] (fun _ _ => [])
    (fun d m e =>
      let i := leAt m.payload 0 2
      Tbl.get? (other e).patterns i = (if leAt m.payload 2 1 = 0 then none else some (m.payload.drop 4))
      ∧ (∀ k, k ≠ i → Tbl.get? (other e).patterns k = Tbl.get? (other d).patterns k) ∧ (other e).rules = (other d).rules ∧ same d e)
  ∧ Answers .ruleRead cmdRuleRead []
    (fun d m =>
      let k := if leAt m.payload 0 1 = 0 then d.data.cls.bankA else d.data.cls.bankB
      let i := leAt m.payload 4 4
      let b := (if leAt m.payload 1 1 = 0 then Tbl.get? k.rules i else Tbl.get? k.patterns i).getD []
      le 2 b.length ++ le 2 0 ++ b)
    (fun _ _ _ => True)
  ∧ Answers .ruleCopy cmdRuleCopy [.data] (fun _ _ => []) (fun d _ e => other e = active d ∧ same d e)
  ∧ Answers .ruleStatus cmdRuleStatus []
    (fun d _ => le 1 (d.data.cls.epoch % 2) ++ le 3 0 ++ le 4 d.data.cls.epoch ++ le 4 d.data.cls.swaps) (fun _ _ _ => True)
  ∧ Answers .excClassSet cmdExcClassSet [.data] (fun _ _ => [])
    (fun d m e =>
      let k := if leAt m.payload 0 1 = 0xFF then 16 else leAt m.payload 0 1
      (e.exc k).rate = leAt m.payload 4 4 ∧ (e.exc k).burst = leAt m.payload 8 4
      ∧ (e.exc k).tokens ≤ leAt m.payload 8 4 * 1000000000 ∧ (∀ j, j ≠ k → e.exc j = d.exc j)
      ∧ e.data = { d.data with exc := e.data.exc })
  ∧ (∀ (s : State) (m : Msg), Passes cmdExcClassGet m s.dev →
    Does (.excClassGet m) s fun e =>
      let k := leAt m.payload 0 1
      (k < 16 → Answered m 0x0708 (le 4 (s.dev.exc k).rate ++ le 4 (s.dev.exc k).burst ++ le 8 (s.dev.ctr (A.excPassed k))
        ++ le 8 (s.dev.ctr (A.excDropped k))) e)
      ∧ (k = 0xFF → ∃ v, Answered m 0x0708 (le 4 (s.dev.exc 16).rate ++ le 4 (s.dev.exc 16).burst ++ le 8 (s.dev.ctr A.excTotalPassed)
        ++ le 8 v) e)
      ∧ Only (served []) s.dev e)
  ∧ (∀ (s : State) (m : Msg), Passes cmdRuleSwap m s.dev →
    Does (.ruleSwap m) s fun e =>
      e.data.cls = { s.dev.data.cls with pending := true, done := false }
      ∧ (∃ r : Req, r.func = m.func ∧ r.op = 0x0705 ∧ r.seq = m.seq ∧ r.from' = s.dev.nextCommit
        ∧ e.pon = { s.dev.pon with commits := s.dev.pon.commits ++ [r] })
      ∧ (e.kiosk m.func).executing.map (fun r => (r.op, r.seq)) = some (0x0705, m.seq)
      ∧ Only [.funcs, .out, .round, .pon, .data] s.dev e)
  ∧ (∀ (d : Dev) (r : Req), r.op = 0x0705 → d.permits .m r.func = true → d.awaits r → d.mirroring = false →
    cmdRuleSwap.check d (cmdRuleSwap.call r.func (d.kiosk r.func).level r.seq r.body) = none →
    let e := d.commitOne r
    let ep := (d.data.cls.epoch + 1) % 2 ^ 32
    e.data.cls.epoch = ep ∧ e.data.cls.swaps = (d.data.cls.swaps + 1) % 2 ^ 32 ∧ e.data.cls.swapTick = d.time.tick
    ∧ e.data.cls.bankA = d.data.cls.bankA ∧ e.data.cls.bankB = d.data.cls.bankB
    ∧ (d.data.dies = [] → d.data.cls.draining = false → e.data.cls.done = true
      ∧ e.out.head? = some (.response r.func 0x0705 r.seq 0 0 (le 1 (ep % 2) ++ le 3 0 ++ le 4 ep ++ le 8 d.time.tick)))
    ∧ ((∃ n < 6, ∃ p ∈ (d.die n).recirc, p.epoch ≠ ep) → e.data.cls.draining = true ∧ e.out = d.out
      ∧ e.data.cls.req.map (fun q => (q.func, q.seq)) = some (r.func, r.seq))
    ∧ Only [.funcs, .out, .data] d e)
  ∧ ∀ (s : State), s.dev.data.cls.draining = true → s.dev.data.dies = [] → s.dev.data.cls.req = none →
    Does .swapDrainEnd s fun e =>
      e.data = { s.dev.data with cls := { s.dev.data.cls with draining := false, done := true } } ∧ Only [.data] s.dev e
/-! ## Pipelines, bursts and frames -/

/-- R264, R322 to R324, R333, R337, R338: a recirculated packet takes its next pass; a missing number is given up after 2 µs and what
stands next goes on; stored decisions and held fragments expire; a fence holds results back until its tokens arrive or 20 µs pass. -/
def Obligations.PipelinesPassOrderAndFence : Prop :=
  let decided := fun (d : Dev) (p : Pkt) =>
    (d.data.cls.bank p.epoch).decide' { die := p.die, src := p.src, xgem := p.xgem, flow := p.upFlow, metaVal := p.metaVal }
      (parse p.data p.len) p.data p.len p.pass
  (∀ (s : State) (n : Nat) (p : Pkt) (l : List Pkt), n < 6 → s.dev.dieUp n = true → (s.dev.die n).recirc = p :: l → p.pass = 2 →
    (parse p.data p.len).malformed = false → (parse p.data p.len).frag = none →
    Does (.recirculatePass n) s fun e =>
      (∀ a, decided s.dev p = some a → a.action = 4 →
        (∃ x : Pkt, (e.die n).recirc = l ++ [x] ∧ x.data = p.data.drop (stripBytes (parse p.data p.len) a.strip) ∧ x.pass = 3
          ∧ x.metaVal = a.metaVal ∧ x.seq = p.seq ∧ x.src = p.src ∧ x.epoch = p.epoch)
        ∧ e.ctr (A.cls n 0x030) = (s.dev.ctr (A.cls n 0x030) + 1) % 2 ^ 64 ∧ (∀ k, k ≠ n → e.die k = s.dev.die k)
        ∧ Only [.data, .ctrs, .meas] s.dev e)
      ∧ (decided s.dev p = none → p.loose = true → (s.dev.exc 0).rate = 0 →
        (e.die n).recirc = l ∧ e.ctr (A.cls n 0x018) = (s.dev.ctr (A.cls n 0x018) + 1) % 2 ^ 64
        ∧ e.ctr (A.excDropped 0) = (s.dev.ctr (A.excDropped 0) + 1) % 2 ^ 64
        ∧ Only [.data, .ctrs, .meas, .regs, .funcs, .out] s.dev e))
  ∧ (∀ (s : State) (n src k t : Nat) (res : Option Pkt), n < 6 →
    let key := orderKey (s.dev.die n).place src
    (Tbl.look {} (s.dev.die n).order key).done = [(k, res, t)] → t + 2000 ≤ s.dev.time.nextAt →
    (∀ p, res = some p → (s.dev.die n).fence = true ∧ p.place = (s.dev.die n).place) →
    Does (.reorderTimeout n src) s fun e =>
      (Tbl.look {} (e.die n).order key).expect = k + 1 ∧ (Tbl.look {} (e.die n).order key).done = []
      ∧ (e.die n).fenced = (s.dev.die n).fenced ++ res.toList
      ∧ e.ctr (A.cls n 0x070) = (s.dev.ctr (A.cls n 0x070) + 1) % 2 ^ 64 ∧ (∀ j, j ≠ n → e.die j = s.dev.die j)
      ∧ Only [.data, .ctrs, .pav, .regs, .funcs, .out, .draws, .meas, .time] s.dev e)
  ∧ (∀ (s : State) (n : Nat), n < 6 →
    Does (.fragmentDecisionExpiry n) s fun e =>
      e.die n = { s.dev.die n with frags := (s.dev.die n).frags.filter fun f => decide (s.dev.uptimeNs < f.born + 2000000) }
      ∧ (∀ k, k ≠ n → e.die k = s.dev.die k) ∧ Only [.data] s.dev e)
  ∧ (∀ (s : State) (n : Nat) (h : List Nat × Pkt × Nat) (l : List (List Nat × Pkt × Nat)), n < 6 → (s.dev.die n).holding = h :: l →
    h.2.2 + 500000 ≤ s.dev.time.nextAt → (s.dev.exc 3).rate = 0 →
    Does (.fragmentHoldTimeout n) s fun e =>
      e.die n = { s.dev.die n with holding := l } ∧ e.ctr (A.cls n 0x060) = (s.dev.ctr (A.cls n 0x060) + 1) % 2 ^ 64
      ∧ e.ctr (A.excDropped 3) = (s.dev.ctr (A.excDropped 3) + 1) % 2 ^ 64
      ∧ Only [.data, .ctrs, .draws, .meas, .regs, .funcs, .out, .time] s.dev e)
  ∧ (∀ (s : State) (n : Nat) (p : Pkt), n < 6 → (s.dev.die n).fenced = [p] → (s.dev.die n).onuFences = [] →
    Does (.fenceTokenArrival n none) s fun e =>
      e = (s.dev.onDie n fun x => { x with fence := false, fenceAt := none, fenced := [] }).forwardOut n p)
  ∧ (∀ (s : State) (n o : Nat), n < 6 → (s.dev.die n).fenced = [] →
    Does (.fenceTokenArrival n (some o)) s fun e =>
      (∀ f ∈ (e.die n).onuFences, f.1 = o → f.2.2.2 = true) ∧ (∀ f ∈ (s.dev.die n).onuFences, f.1 ≠ o → f ∈ (e.die n).onuFences)
      ∧ (e.die n).fence = (s.dev.die n).fence ∧ (∀ k, k ≠ n → e.die k = s.dev.die k) ∧ Only [.data] s.dev e)
  ∧ (∀ (s : State) (n t : Nat) (p : Pkt), n < 6 → (s.dev.die n).fenced = [p] → (s.dev.die n).onuFences = [] →
    (s.dev.die n).fenceAt = some t → t + 20000 ≤ s.dev.time.nextAt →
    Does (.fenceWaitTimeout n none) s fun e =>
      e = ((s.dev.passTo (t + 20000)).onDie n fun x =>
        { x with fence := false, fenceAt := none, late := true, fenced := [] }).forwardOut n p)
  ∧ ∀ (s : State) (n o c t : Nat) (p : Pkt), n < 6 → (s.dev.die n).fenced = [p] → (s.dev.die n).fence = false →
    (s.dev.die n).onuFences = [(o, c, some t, false)] → t + 20000 ≤ s.dev.time.nextAt →
    Does (.fenceWaitTimeout n (some o)) s fun e =>
      e = ((s.dev.passTo (t + 20000)).onDie n fun x => { x with onuFences := [(o, c, some t, true)], fenced := [] }).forwardOut n p

/-- R222 to R230, R244, R262, Table 9-2: a locked burst is measured and clears the run of misses; a missed one counts towards the loss of
its ONU; codewords count bits and errors, and an uncorrectable one stops delineation for its allocation. -/
def Obligations.BurstsAreReceived : Prop :=
  (∀ (s : State) (c o mf lock : Nat) (off : Int) (col : Option Nat), c < 512 → o < 65536 → lock < 65536 → s.dev.rxRuns c = true →
    (s.dev.onu o).state ≠ .absent → (s.dev.recv c).openF = none →
    Does (.burstLocked c o mf lock off col) s fun e =>
      let x := s.dev.onu o
      let on := bit (s.dev.live' (A.usCfg c)) 16
      (e.recv c).lastOffset = off ∧ (e.recv c).lockedNow = true ∧ (e.recv c).lossRun = 0 ∧ (e.recv c).stopped = false
      ∧ (e.recv c).burst = some (o, mf, 0, if on then col else none) ∧ (∀ k, k ≠ c → e.recv k = s.dev.recv k)
      ∧ (e.onu o).missRun = 0 ∧ (e.onu o).lockRun = x.lockRun + 1 ∧ (e.onu o).state = x.state
      ∧ (127 ≤ x.lockRun → (e.onu o).robustNext = false)
      ∧ (e.onu o).acc.lock = lock ∧ (e.onu o).acc.offset = off ∧ (e.onu o).acc.bursts = x.acc.bursts + 1
      ∧ (x.blockN < 128 → (e.onu o).blockN = x.blockN + 1 ∧ (e.onu o).blockSum = x.blockSum + off)
      ∧ (∀ k, k ≠ o → e.onu k = s.dev.onu k) ∧ (∀ k, k ≠ c → e.chan k = s.dev.chan k)
      ∧ e.ctr (A.usBursts c) = (s.dev.ctr (A.usBursts c) + 1) % 2 ^ 64 ∧ bit (e.reg (A.usStatus c)) 4 = false
      ∧ (on = true → col.isSome = true → bit (e.reg (A.usStatus c)) 5 = true)
      ∧ Only [.pon, .ctrs, .regs, .meas, .funcs, .out] s.dev e)
  ∧ (∀ (s : State) (c o : Nat), c < 512 → o < 65536 → s.dev.rxRuns c = true → (s.dev.onu o).state ≠ .absent →
    (s.dev.onu o).rogueOff = false → s.dev.standby = false →
    Does (.burstMissed c o) s fun e =>
      let x := s.dev.onu o
      let lob := max 4 (fld (s.dev.live' (A.rngCfg c)) 24 6)
      (e.onu o).missRun = x.missRun + 1 ∧ (e.onu o).lockRun = 0 ∧ (e.onu o).acc.missed = x.acc.missed + 1
      ∧ (1 ≤ x.missRun → bit (s.dev.live' (A.usCfg c)) 23 = false → (e.onu o).robustNext = true)
      ∧ (e.onu o).moveTo = (if lob ≤ x.missRun + 1 ∧ OnuState.losable x.state = true then some (.discovered, 6) else x.moveTo)
      ∧ (∀ k, k ≠ o → e.onu k = s.dev.onu k) ∧ (∀ k, e.recv k = s.dev.recv k)
      ∧ e.ctr (A.usMissed c) = (s.dev.ctr (A.usMissed c) + 1) % 2 ^ 64 ∧ Only [.pon, .ctrs, .regs, .meas, .funcs, .out] s.dev e)
  ∧ (∀ (s : State) (c o : Nat), c < 512 → o < 65536 → s.dev.rxRuns c = true → (s.dev.onu o).state ≠ .absent →
    Does (.burstOutsideWindow c o) s fun e =>
      (e.onu o).acc = { (s.dev.onu o).acc with window := (s.dev.onu o).acc.window + 1 }
      ∧ (e.recv c).outside.head? = some (o, s.dev.time.edges) ∧ (∀ k, k ≠ o → e.onu k = s.dev.onu k)
      ∧ (∀ k, k ≠ c → e.recv k = s.dev.recv k) ∧ Only [.pon] s.dev e)
  ∧ (∀ (s : State) (c info cor o mf n : Nat) (bad : Bool), c < 512 → info ≤ 14592 → s.dev.rxRuns c = true →
    (s.dev.recv c).burst = some (o, mf, n, none) → (s.dev.recv c).openF = none →
    Does (.codewordDecoded c info cor bad []) s fun e =>
      let err := if bad then info else cor
      e.ctr (A.usCw c) = (s.dev.ctr (A.usCw c) + 1) % 2 ^ 64 ∧ e.ctr (A.usBits c) = (s.dev.ctr (A.usBits c) + info) % 2 ^ 64
      ∧ e.ctr (A.usPrefec c) = (s.dev.ctr (A.usPrefec c) + err) % 2 ^ 64
      ∧ e.ctr (A.usCwUncorr c) = (s.dev.ctr (A.usCwUncorr c) + nb bad) % 2 ^ 64
      ∧ (e.onu o).acc.bits = (s.dev.onu o).acc.bits + info ∧ (e.onu o).acc.preFec = (s.dev.onu o).acc.preFec + err
      ∧ e.recv c = { s.dev.recv c with burst := some (o, mf, n + 1, none), stopped := (s.dev.recv c).stopped || bad }
      ∧ (∀ k, k ≠ o → e.onu k = s.dev.onu k) ∧ Only [.pon, .ctrs] s.dev e)
  ∧ (∀ (s : State) (c o mf n a occ : Nat) (x : Alloc), c < 512 → s.dev.rxRuns c = true →
    (s.dev.recv c).burst = some (o, mf, n, none) → (s.dev.recv c).openF = none → s.dev.standby = false → s.dev.redch = [] →
    occ < 0xFFFFFF → s.dev.alloc? (allocKey (s.dev.onu o).tree a) = some x → x.onu = o → x.type ≠ 0 → x.granted = [] →
    Does (.codewordDecoded c 0 0 false [.alloc a (some occ), .burstEnd]) s fun e =>
      (e.alloc? (allocKey (s.dev.onu o).tree a)).map (fun y => (y.d, y.out)) = some (4 * occ, 0)
      ∧ (∀ k, k ≠ allocKey (s.dev.onu o).tree a → e.alloc? k = s.dev.alloc? k)
      ∧ (e.recv c).burst = none ∧ (e.recv c).stopped = false ∧ Only [.pon, .ctrs] s.dev e)
  ∧ ∀ (s : State) (c o mf n : Nat) (f : OpenFrame) (b : Bytes), c < 512 → s.dev.rxRuns c = true →
    (s.dev.recv c).burst = some (o, mf, n, none) → (s.dev.recv c).stopped = false → (s.dev.recv c).openF = some f → f.key = none →
    f.skip = false → f.lf = true → f.sent = 0 → f.bytes = [] → b.length = padded (s.dev.chan c).mode f.pli → f.pli ≤ b.length →
    s.dev.context (c / 128) f.onu f.xgem = none → f.xgem < 1024 → s.dev.standby = false →
    Does (.codewordDecoded c 0 0 false [.bytes b]) s fun e =>
      e.pon.omci = s.dev.pon.omci ++ [{ handle := s.dev.pon.omciNext, onu := f.onu, msg := b.take f.pli, at' := s.dev.uptimeNs }]
      ∧ e.pon.omciNext = (s.dev.pon.omciNext + 1) % 2 ^ 32 ∧ (e.recv c).openF = none ∧ (∀ k, e.chan k = s.dev.chan k)
      ∧ Only [.pon, .ctrs, .funcs, .out] s.dev e

/-- R233 to R236, R520, R523, R524: a poisoned tail drops its frame wherever it stands, or ends it with a wrong FCS; an incomplete
reassembly is given up after 16 ticks; a rogue condition is latched and starts an isolation, whose rounds halve the candidates. -/
def Obligations.BadFramesAndRogues : Prop :=
  (∀ (s : State) (n src : Nat), n < 4 → (s.dev.die n).recirc = [] →
    let hit := fun (p : Pkt) => p.poisoned && p.die == n && p.src == src
    Does (.poisonedTailArrival n src) s fun e =>
      (∀ x ∈ e.data.sending, hit x.2 = false) ∧ (∀ x ∈ s.dev.data.sending, hit x.2 = false → x ∈ e.data.sending)
      ∧ (∀ x ∈ s.dev.data.sending, hit x.2 = true →
        .badTail x.1 (le 4 (0xFFFFFFFF - crc32 (x.2.data.take (x.2.data.length - 4)))) ∈ e.out)
      ∧ (∀ f, e.queue f = (s.dev.queue f).filter fun p => !hit p) ∧ (∀ p ∈ (e.die n).fenced, hit p = false)
      ∧ (∀ o, e.onu o = s.dev.onu o) ∧ e.time = s.dev.time ∧ e.power = s.dev.power)
  ∧ (∀ (s : State) (o x edge : Nat) (b : Bytes) (bad : Bool), o < 65536 → x < 65536 →
    let n := (s.dev.onu o).channel / 128
    s.dev.context n o x = some (reasmKeyOf o x, o, b, edge, bad) → edge + 16 ≤ s.dev.time.edges →
    Does (.reassemblyTimeout o x) s fun e =>
      e.context n o x = none ∧ (∀ q y, reasmKeyOf q y ≠ reasmKeyOf o x → e.context n q y = s.dev.context n q y)
      ∧ e.ctr (A.usPoisoned (s.dev.onu o).channel) = (s.dev.ctr (A.usPoisoned (s.dev.onu o).channel) + 1) % 2 ^ 64
      ∧ (∀ f, s.dev.anyFlow o x = some f → (e.flow? f).map Flow.poisoned = (s.dev.flow? f).map fun y => y.poisoned + 1)
      ∧ Only [.data, .ctrs, .pon] s.dev e)
  ∧ (∀ (s : State) (c kind o : Nat), c < 512 → kind < 4 → o < 65536 → s.dev.rxRuns c = true → (s.dev.chan c).state = .service →
    bit (s.dev.live' (A.usCfg c)) 16 = true →
    (kind = 2 → 4 ≤ ((s.dev.recv c).outside.filter fun e => e.1 == o && decide (s.dev.time.edges < e.2 + 128)).length) →
    (kind = 3 → 32 ≤ (s.dev.recv c).lossRun) →
    Does (.rogueDetect c kind o) s fun e =>
      bit (e.reg (A.usStatus c)) (kind + 1) = true
      ∧ (kind = 0 → bit (s.dev.reg A.pavCfg) 1 = true → s.dev.fwServes = true → (s.dev.die (c / 128)).rogue = none →
        s.dev.limitAt [0xE005, c, kind] = none →
        (e.die (c / 128)).rogue.map (fun r => (r.channel, r.kind, r.round, r.off)) = some (c, 0, 0, [])
        ∧ e.reg (A.rogueStatus (c / 128)) = 0xFFFF0080 + c % 128)
      ∧ (∀ k, e.onu k = s.dev.onu k) ∧ (∀ k, e.chan k = s.dev.chan k)
      ∧ Only [.regs, .pon, .pav, .funcs, .out, .data, .otdr] s.dev e)
  ∧ (∀ (s : State) (n : Nat) (r : Isolation), n < 4 → (s.dev.die n).rogue = some r → r.from' + 18 ≤ s.dev.time.edges →
    s.dev.fwServes = true → r.round = 0 → r.off = [] → 2 ≤ r.cands.length →
    Does (.rogueRoundEnd n true) s fun e =>
      let h := r.cands.take ((r.cands.length + 1) / 2)
      (e.die n).rogue = some { r with off := h, round := 1, from' := s.dev.time.edges } ∧ (∀ o ∈ h, (e.onu o).rogueOff = true)
      ∧ (∀ o ∈ h, .ploam (s.dev.onu o).channel none "Disable_Serial_Number" (le 1 0xFF ++ be 8 (s.dev.onu o).serial) ∈ e.out)
      ∧ (∀ o, o ∉ h → e.onu o = s.dev.onu o) ∧ Only [.data, .pon, .out] s.dev e)
  ∧ (∀ (s : State) (n : Nat) (r : Isolation), n < 4 → (s.dev.die n).rogue = some r → r.from' + 18 ≤ s.dev.time.edges →
    s.dev.fwServes = true → r.round = 0 → r.off = [] → (s.dev.die n).rogueWait = [] →
    Does (.rogueRoundEnd n false) s fun e =>
      (e.die n).rogue = none ∧ e.reg (A.rogueStatus n) = r.channel % 128 + 0xFFFF0300 ∧ bit (e.reg A.pavCause) 3 = true
      ∧ (∀ o, e.onu o = s.dev.onu o) ∧ (∀ c, e.chan c = s.dev.chan c) ∧ Only [.data, .regs, .pav, .ctrs, .funcs, .out] s.dev e)
  ∧ ∀ (s : State) (n o : Nat) (r : Isolation), n < 4 → (s.dev.die n).rogue = some r → r.from' + 18 ≤ s.dev.time.edges →
    s.dev.fwServes = true → r.round ≠ 0 → r.cands = [o] → r.off = [o] → (s.dev.die n).rogueWait = [] →
    Does (.rogueRoundEnd n false) s fun e =>
      (e.die n).rogue = none ∧ e.reg (A.rogueStatus n) = (r.channel % 128 + 256 + 65536 * o) % 2 ^ 32
      ∧ (e.onu o).moveTo = some (.discovered, 6) ∧ (e.onu o).rogueOff = (s.dev.onu o).rogueOff ∧ (∀ k, k ≠ o → e.onu k = s.dev.onu k)
      ∧ Only [.data, .pon, .regs, .pav, .ctrs, .funcs, .out] s.dev e
/-! ## Flows, tenants, allocations and keys -/

/-- R145, R155, R228, R298 to R301, R305, Tables 6-12, 6-20, 6-22: flows are created and deleted at a tick edge; tenants are bound, unbound
and given quotas; ONUs and channels are measured. -/
def Obligations.FlowsTenantsAndMeasurements : Prop :=
  Orders .flowCreate cmdFlowCreate ∧ Orders .flowDelete cmdFlowDelete
  ∧ Commits cmdFlowCreate [.pon, .data] (fun _ _ => [])
    (fun d b e =>
      let f := leAt b 0 4
      e.flow? f = some {
        onu := leAt b 4 2, xgem := leAt b 6 2, alloc := leAt b 8 2, cls := leAt b 10 1, dir := leAt b 11 1, encrypt := leAt b 12 1 }
      ∧ (∀ g, g ≠ f → e.flow? g = d.flow? g)
      ∧ (bit (leAt b 11 1) 0 = true → e.node (nodeKey 2 f) = { prio := leAt b 10 1, edge := d.time.edges })
      ∧ (bit (leAt b 11 1) 1 = true → e.pol f = { edge := d.time.edges }) ∧ (∀ o, e.onu o = d.onu o) ∧ e.data.buf = d.data.buf)
  ∧ Commits cmdFlowDelete [.pon, .data, .ctrs, .regs, .pav, .meas] (fun _ _ => [])
    (fun d b e =>
      let f := leAt b 0 4
      e.flow? f = none ∧ e.queue f = [] ∧ e.node (nodeKey 2 f) = {} ∧ e.pol f = {}
      ∧ (∀ g, g ≠ f → e.flow? g = d.flow? g ∧ e.queue g = d.queue g ∧ e.pol g = d.pol g) ∧ (∀ o, e.onu o = d.onu o))
  ∧ Answers .flowGet cmdFlowGet []
    (fun d m => ((d.flow? (leAt m.payload 0 4)).map fun x => le 2 x.onu ++ le 2 x.xgem ++ le 2 x.alloc ++ le 1 x.cls ++ le 1 x.dir
      ++ le 1 x.encrypt ++ le 1 (d.onu x.onu).tenant ++ le 2 0).getD [])
    (fun _ _ _ => True)
  ∧ Answers .tenantBind cmdTenantBind [] (fun _ _ => [])
    (fun d m e =>
      let t := leAt m.payload 0 1
      let f := leAt m.payload 1 1
      (e.fn f).tenant = t ∧ (e.kiosk f).tokens = (d.tenant t).cmdDepth * 1000000000 ∧ ∀ g, g ≠ f → (e.fn g).tenant = (d.fn g).tenant)
  ∧ Answers .tenantUnbind cmdTenantUnbind [] (fun _ _ => [])
    (fun d m e => ∀ f, d.funcOfTenant (leAt m.payload 0 1) = some f →
      (e.fn f).tenant = 0 ∧ (e.fn f).grant = false ∧ (e.fn f).tk = none
      ∧ ((d.page f).job = none → ∀ n < 8, (e.page f).slot n = {}) ∧ ∀ g, g ≠ f → (e.fn g).tenant = (d.fn g).tenant)
  ∧ Answers .tenantSetQuota cmdTenantSetQuota [.pon] (fun _ _ => [])
    (fun d m e =>
      let b := m.payload
      e.tenant (leAt b 0 1) = {
        onus := leAt b 2 2, flows := leAt b 4 4, allocs := leAt b 8 4, bufKib := leAt b 12 4, cmdRate := leAt b 16 4, cmdDepth := leAt b 20 2 }
      ∧ (∀ t, t ≠ leAt b 0 1 → e.tenant t = d.tenant t) ∧ e.pon = { d.pon with tenants := e.pon.tenants }
      ∧ ∀ f, d.funcOfTenant (leAt b 0 1) = some f → (e.kiosk f).tokens ≤ leAt b 20 2 * 1000000000)
  ∧ Answers .tenantGet cmdTenantGet []
    (fun d m =>
      let t := leAt m.payload 0 1
      let q := d.tenant t
      le 1 ((d.funcOfTenant t).getD 0) ++ le 1 (nb (d.funcOfTenant t).isSome) ++ le 2 (d.useOnus t) ++ le 4 (d.useFlows t)
        ++ le 4 (d.useAllocs t) ++ le 4 (ceilDiv (d.tenantUse t) 4) ++ le 2 q.onus ++ le 4 q.flows ++ le 4 q.allocs ++ le 4 q.bufKib
        ++ le 4 q.cmdRate ++ le 2 q.cmdDepth ++ le 2 0)
    (fun _ _ _ => True)
  ∧ Answers .counterGrant cmdCounterGrant [] (fun _ _ => [])
    (fun d m e => ∀ f, d.funcOfTenant (leAt m.payload 0 1) = some f → (e.fn f).grant = (leAt m.payload 1 1 == 1)
      ∧ ∀ g, g ≠ f → (e.fn g).grant = (d.fn g).grant)
  ∧ Answers .measOnu cmdMeasOnu []
    (fun d m =>
      let a := (d.onu (leAt m.payload 0 2)).acc
      le 2 a.rxPower ++ le 2 a.lock ++ le 4 (field 32 a.offset) ++ le 8 a.preFec ++ le 8 a.bits ++ le 8 a.bursts)
    (fun _ _ _ => True)
  ∧ Answers .measChan cmdMeasChan []
    (fun d m =>
      let c := leAt m.payload 0 2
      le 8 (d.ctr (A.usPrefec c)) ++ le 8 (d.ctr (A.usBits c)) ++ le 8 (d.ctr (A.usCwUncorr c)) ++ le 4 (d.reg (A.usRogue c))
        ++ le 4 (d.reg (A.ovrCnt c)))
    (fun _ _ _ => True)

/-- R272 to R276, R290, R291, R297, Table 6-13: allocations are set and deleted at a tick edge, and one that exists keeps its demand; a hint
series is held for its allocation; the policy of a tree's channels is written for the next tick edge. -/
def Obligations.AllocationsHintsAndPolicy : Prop :=
  Orders .allocSet cmdAllocSet ∧ Orders .allocDelete cmdAllocDelete
  ∧ Commits cmdAllocSet [.pon] (fun _ _ => [])
    (fun d b e =>
      let k := allocKey (leAt b 0 2) (leAt b 2 2)
      (e.alloc? k).map (fun v => (v.onu, v.type, v.prio, v.fixed, v.assured)) =
        some (leAt b 4 2, leAt b 6 1, leAt b 7 1, leAt b 8 4, leAt b 12 4)
      ∧ (e.alloc? k).map (fun v => (v.max, v.weight, v.maxWait)) = some (leAt b 16 4, leAt b 20 2, leAt b 22 1)
      ∧ (∀ y, d.alloc? k = some y → (e.alloc? k).map (fun v => (v.d, v.out, v.last)) = some (y.d, y.out, y.last))
      ∧ (d.alloc? k = none → (e.alloc? k).map (fun v => (v.d, v.out, v.fc, v.ac)) = some (0, 0, 0, 0))
      ∧ (∀ j, j ≠ k → e.alloc? j = d.alloc? j) ∧ e.pon = { d.pon with allocs := e.pon.allocs })
  ∧ Commits cmdAllocDelete [.pon] (fun _ _ => [])
    (fun d b e =>
      let k := allocKey (leAt b 0 2) (leAt b 2 2)
      e.alloc? k = none ∧ (∀ j, j ≠ k → e.alloc? j = d.alloc? j) ∧ e.pon = { d.pon with allocs := e.pon.allocs })
  ∧ Answers .allocGet cmdAllocGet []
    (fun d m => ((d.alloc? (allocKey (leAt m.payload 0 2) (leAt m.payload 2 2))).map fun y =>
      le 2 y.onu ++ le 1 y.type ++ le 1 y.prio ++ le 4 y.fixed ++ le 4 y.assured ++ le 4 y.max ++ le 2 y.weight ++ le 1 y.maxWait ++ le 1 0
        ++ le 4 (meanTick y.reported d.time.edges) ++ le 4 (meanTick y.grantLog d.time.edges)).getD [])
    (fun _ _ _ => True)
  ∧ Answers .dbaHint cmdDbaHint [.pon] (fun _ _ => [])
    (fun d m e =>
      let b := m.payload
      let k := allocKey (leAt b 0 2) (leAt b 2 2)
      let h : Hint := {
        tick := leAt b 4 8, bytes := leAt b 12 4, period := leAt b 16 2
        left := if leAt b 16 2 = 0 then some 1 else if leAt b 18 2 = 0 then none else some (leAt b 18 2) }
      ∀ y, d.alloc? k = some y →
        (h.bytes ≠ 0 ∨ y.hint.isSome = true → e.alloc? k = some { y with hintNext := some h })
        ∧ (h.bytes = 0 → y.hint = none → e.alloc? k = some { y with hintNext := none }) ∧ ∀ j, j ≠ k → e.alloc? j = d.alloc? j)
  ∧ Answers .dbaPolicy cmdDbaPolicy [.due] (fun _ _ => [])
    (fun d m e => ∀ c ∈ d.treeChans (leAt m.payload 0 2), c < 512 →
      bit (e.reg (A.dbaCfg c)) 17 = (leAt m.payload 2 1 == 1)
      ∧ ∃ v : BitVec 32, (d.nextCommit, A.dbaCfg c, v) ∈ e.due ∧ bit v.toNat 17 = (leAt m.payload 2 1 == 1))

/-- R147, R197 to R201, R310, R312, Tables 6-14, 8-9: the key commands, and the steps of a roll: its request and its repeats, its failure
and retry, and the end of the old key. Line keys are drawn and never read; a page key is what its wrapping holds. -/
def Obligations.KeysRollAndAreExchanged : Prop :=
  let asked := fun (d e : Dev) (o : Nat) =>
    .ploam (d.onu o).channel (some (d.onu o).lineId) "Key_Control"
      (le 1 (Keys.other (d.ring (.onu o))) ++ le 1 (d.chan (d.onu o).channel).alg) ∈ e.out
  Answers .keyRoll cmdKeyRoll [.pon] (fun _ _ => [])
    (fun d m e =>
      let r := ringOf (leAt m.payload 0 2) (leAt m.payload 2 2)
      (e.ring r).rolling = true ∧ (e.ring r).active = (d.ring r).active ∧ (∀ q, q ≠ r → e.ring q = d.ring q)
      ∧ ((d.ring r).rolling = true → e.pon = d.pon)
      ∧ ((d.ring r).rolling = false → (e.ring r).sent = 1 ∧ (e.ring r).sentAt = d.uptimeNs ∧ (e.ring r).switched = false
        ∧ (∀ o, r = .onu o → asked d e o ∧ (e.ring r).switchAt = none)
        ∧ ∀ c, r = .bcast c → (e.ring r).switchAt.isSome = true ∧ (Keys.key (e.ring r) (Keys.other (d.ring r))).isSome = true))
  ∧ Answers .keyGet cmdKeyGet []
    (fun d m =>
      let k := d.ring (ringOf (leAt m.payload 0 2) (leAt m.payload 2 2))
      le 1 k.active ++ le 1 (((Keys.key k k.active).map LineKey.alg).getD 0) ++ le 1 (nb k.rolling) ++ le 1 0 ++ le 4 k.rolls
        ++ le 8 (d.frame - k.fromFrame))
    (fun _ _ _ => True)
  ∧ Answers .keyPolicy cmdKeyPolicy [.pon] (fun _ _ => [])
    (fun d m e =>
      let c := leAt m.payload 0 2
      e.chan c = { d.chan c with alg := leAt m.payload 2 1, maxLife := leAt m.payload 4 4 } ∧ (∀ k, k ≠ c → e.chan k = d.chan k)
      ∧ ∀ o, e.onu o = d.onu o)
  ∧ (∀ (s : State) (m : Msg), Passes cmdKeyExchange m s.dev → s.dev.trngOk = true →
    Does (.keyExchange m) s fun e =>
      ∃ k, 0 < k ∧ k < P384.n ∧ (e.fn m.func).tk = some (exchange m.func k (slice m.payload 0 97)).1
        ∧ Answered m 0x0604 ((exchange m.func k (slice m.payload 0 97)).2 ++ le 3 0) e
        ∧ (∀ f, f ≠ m.func → (e.fn f).tk = (s.dev.fn f).tk) ∧ Only (served []) s.dev e)
  ∧ (∀ (s : State) (m : Msg), Passes cmdPageKeyUnwrap m s.dev → s.dev.trngOk = true → (s.dev.page m.func).job = none →
    (s.dev.page m.func).slots.length = 8 →
    Does (.pageKeyUnwrap m) s fun e =>
      let n := leAt m.payload 0 1
      (∃ tk key ep, (s.dev.fn m.func).tk = some tk ∧ keyUnwrap tk (m.payload.drop 4) = some key
        ∧ (e.page m.func).slot n = { alg := leAt m.payload 1 1 + 1, epoch := ep, key := key })
      ∧ (∀ k, k ≠ n → (e.page m.func).slot k = (s.dev.page m.func).slot k) ∧ Answered m 0x0605 [] e ∧ Only (served []) s.dev e)
  ∧ (∀ (s : State) (o c : Nat), o < 65535 → c < 512 → s.dev.fwServes = true → s.dev.rollable (.onu o) = true →
    let k := (s.dev.onu o).keys
    let life := (s.dev.chan (s.dev.onu o).channel).maxLife
    k.active ≠ 0 → k.rolling = false → k.retryAt = none → life ≠ 0 → k.fromNs + life * 1000000000 ≤ s.dev.uptimeNs →
    Does (.keyRollStart o c) s fun e =>
      (e.onu o).keys = {
        k with rolling := true, sent := 1, sentAt := s.dev.uptimeNs, switchAt := none, switched := false, frag := none, await := none }
      ∧ asked s.dev e o ∧ (∀ j, j ≠ o → e.onu j = s.dev.onu j) ∧ (∀ j, e.chan j = s.dev.chan j) ∧ Only [.pon, .out] s.dev e)
  ∧ (∀ (s : State) (o c : Nat), o < 65535 → c < 512 → s.dev.fwServes = true →
    let k := (s.dev.onu o).keys
    k.rolling = true → Keys.key k (Keys.other k) = none → k.sentAt + 100000000 ≤ s.dev.uptimeNs →
    Does (.keyRequestRepeat o c) s fun e =>
      (k.sent < 4 → (e.onu o).keys = { k with sent := k.sent + 1, sentAt := s.dev.uptimeNs } ∧ asked s.dev e o ∧ Only [.pon, .out] s.dev e)
      ∧ (4 ≤ k.sent → (e.onu o).keys.rolling = false ∧ (e.onu o).keys.retryAt = some (s.dev.uptimeNs + 10000000000)
        ∧ (e.onu o).keys.active = k.active ∧ Keys.key (e.onu o).keys k.active = Keys.key k k.active
        ∧ Only [.pon, .pav, .ctrs, .data, .regs, .funcs, .out] s.dev e)
      ∧ (∀ j, j ≠ o → e.onu j = s.dev.onu j) ∧ ∀ j, e.chan j = s.dev.chan j)
  ∧ (∀ (s : State) (o c t : Nat), o < 65535 → c < 512 → s.dev.fwServes = true → s.dev.rollable (.onu o) = true →
    (s.dev.onu o).keys.retryAt = some t → t ≤ s.dev.uptimeNs → (s.dev.onu o).keys.rolling = false →
    Does (.keyRollRetry o c) s fun e =>
      (e.onu o).keys.rolling = true ∧ (e.onu o).keys.retryAt = none ∧ (e.onu o).keys.sent = 1 ∧ asked s.dev e o
      ∧ (∀ j, j ≠ o → e.onu j = s.dev.onu j) ∧ Only [.pon, .out] s.dev e)
  ∧ ∀ (s : State) (o c fs : Nat), o < 65535 → c < 512 → s.dev.fwServes = true →
    let k := (s.dev.onu o).keys
    k.rolling = true → k.switched = true → k.switchAt = some fs → fs + 64 < s.dev.frame → (k.active = 1 ∨ k.active = 2) →
    Does (.oldKeyExpiry o c) s fun e =>
      (e.onu o).keys.rolling = false ∧ (e.onu o).keys.rolls = k.rolls + 1 ∧ (e.onu o).keys.active = k.active
      ∧ Keys.key (e.onu o).keys (Keys.other k) = none ∧ Keys.key (e.onu o).keys k.active = Keys.key k k.active
      ∧ (∀ j, j ≠ o → e.onu j = s.dev.onu j) ∧ (∀ j, e.chan j = s.dev.chan j) ∧ Only [.pon, .funcs, .out] s.dev e
/-! ## Shaping, gates and transmission -/

/-- R379, R380, R390 to R401, Tables 6-17, 16-2: shapers, policers, scheduling and buffer quotas change at a tick edge, with the tokens that
the old rate has earned and the new burst allows; they are read at once. -/
def Obligations.ShapingAndQuotasAnswer : Prop :=
  Orders .shaperSet cmdShaperSet ∧ Orders .policerSet cmdPolicerSet ∧ Orders .schedSet cmdSchedSet ∧ Orders .bufQuotaSet cmdBufQuotaSet
  ∧ Commits cmdShaperSet [.data] (fun _ _ => [])
    (fun d b e =>
      let k := nodeOf (leAt b 0 4)
      let n := Node.filled (d.node k) (d.time.edges - 1)
      (d.superseded 0x0901 (leAt b 0 4) = false → e.node k = {
        n with rate := leAt b 4 4, burst := leAt b 8 4, tokens := if leAt b 12 1 = 1 then 0 else min n.tokens ((leAt b 8 4 * 1024 : Nat) : Int) })
      ∧ (d.superseded 0x0901 (leAt b 0 4) = true → e.data = d.data)
      ∧ (∀ j, j ≠ k → e.node j = d.node j) ∧ e.data = { d.data with nodes := e.data.nodes })
  ∧ Commits cmdPolicerSet [.data] (fun _ _ => [])
    (fun d b e =>
      let f := leAt b 0 4
      let p := Policer.filled (d.pol f) (d.time.edges - 1)
      (d.superseded 0x0903 f = false → e.pol f = {
        p with rate := leAt b 4 4, burst := leAt b 8 4, tokens := min p.tokens (1024 * leAt b 8 4) })
      ∧ (d.superseded 0x0903 f = true → e.data = d.data)
      ∧ (∀ j, j ≠ f → e.pol j = d.pol j) ∧ e.data = { d.data with policers := e.data.policers })
  ∧ Commits cmdSchedSet [.data] (fun _ _ => [])
    (fun d b e =>
      let k := nodeOf (leAt b 0 4)
      e.node k = { d.node k with prio := leAt b 4 1, weight := leAt b 6 2 } ∧ (∀ j, j ≠ k → e.node j = d.node j)
      ∧ e.data = { d.data with nodes := e.data.nodes })
  ∧ Commits cmdBufQuotaSet [.data, .regs] (fun _ _ => [])
    (fun d b e =>
      let t := leAt b 0 4
      let p := leAt b 4 1
      e.owner t = { d.owner t with reserved := (d.owner t).reserved.set p (leAt b 8 4), quota := (d.owner t).quota.set p (leAt b 12 4) }
      ∧ (∀ u, u ≠ t → e.owner u = d.owner u) ∧ e.data.buf.alloc = d.data.buf.alloc)
  ∧ Answers .shaperGet cmdShaperGet [.data]
    (fun d m =>
      let n := d.nodeNow (nodeOf (leAt m.payload 0 4))
      le 4 n.rate ++ le 4 n.burst ++ le 8 (field 64 (n.tokens / 1024)))
    (fun d m e => (∀ j, j ≠ nodeOf (leAt m.payload 0 4) → e.node j = d.node j) ∧ e.data = { d.data with nodes := e.data.nodes })
  ∧ Answers .bufQuotaGet cmdBufQuotaGet [.data]
    (fun d m =>
      let o := d.owner (leAt m.payload 0 4)
      let p := leAt m.payload 4 1
      le 4 (nth 0 o.reserved p) ++ le 4 (nth 0 o.quota p) ++ le 4 (nth 0 o.inUse p) ++ le 4 (nth 0 o.peak p))
    (fun d m e =>
      let t := leAt m.payload 0 4
      let o := d.owner t
      e.owner t = { o with peak := o.peak.set (leAt m.payload 4 1) (nth 0 o.inUse (leAt m.payload 4 1)) }
      ∧ ∀ u, u ≠ t → e.owner u = d.owner u)

/-- R391 to R394, R402 to R407, Table 6-17: gate entries are written to the pending list, a commit schedules them for the first cycle start
no sooner than 10 µs ahead, and its time puts them in force; the MAC starts the head of the highest class that has one; the framer sends
the frame of the child whose turn it is, or an idle frame. -/
def Obligations.GatesAndTransmission : Prop :=
  Answers .gateWrite cmdGateWrite [.data] (fun _ _ => [])
    (fun d m e =>
      let b := m.payload
      let sp := 8 * leAt b 0 1 + leAt b 1 1
      let first := leAt b 2 2
      let n := leAt b 4 2
      (∀ i < n, Tbl.get? (e.sub sp).pend (first + i) = some (leAt b (8 + 8 * i) 1, leAt b (12 + 8 * i) 4))
      ∧ (∀ j, j < first ∨ first + n ≤ j → Tbl.get? (e.sub sp).pend j = Tbl.get? (d.sub sp).pend j)
      ∧ e.sub sp = { d.sub sp with pend := (e.sub sp).pend } ∧ (∀ q, q ≠ sp → e.sub q = d.sub q))
  ∧ Answers .gateCommit cmdGateCommit [.data] (fun _ _ => [])
    (fun d m e =>
      let b := m.payload
      let sp := 8 * leAt b 0 1 + leAt b 1 1
      let cycle := leAt b 4 4
      let base := leAt b 8 8
      ∃ k, e.sub sp = {
          d.sub sp with sched := some { entries := (d.sub sp).first (leAt b 2 2), cycle := cycle, base := base }, change := base + k * cycle }
        ∧ d.selNs + 10000 ≤ base + k * cycle ∧ (k ≠ 0 → base + (k - 1) * cycle < d.selNs + 10000) ∧ ∀ q, q ≠ sp → e.sub q = d.sub q)
  ∧ Orders .preemptSet cmdPreemptSet
  ∧ Commits cmdPreemptSet [.data] (fun _ _ => [])
    (fun d b e =>
      let sp := 8 * leAt b 0 1 + leAt b 1 1
      e.sub sp = { d.sub sp with preempt := leAt b 2 1 } ∧ ∀ q, q ≠ sp → e.sub q = d.sub q)
  ∧ (∀ (s : State) (sp : Nat) (g : GateList), sp < 512 → s.dev.subUp sp = true → (s.dev.sub sp).force = some g →
    (s.dev.sub sp).air = none →
    let t := s.dev.selDeadline (s.dev.selNs + (g.place s.dev.selNs).2)
    t ≤ s.dev.time.nextAt →
    Does (.gateEntryChange sp) s fun e => e.time.now = t ∧ Only [.time, .draws, .regs, .meas, .funcs, .out] s.dev e)
  ∧ (∀ (s : State) (sp : Nat) (g : GateList), sp < 512 → s.dev.subUp sp = true → (s.dev.sub sp).sched = some g →
    (s.dev.sub sp).air = none →
    let t := s.dev.selDeadline (s.dev.sub sp).change
    t ≤ s.dev.time.nextAt →
    Does (.gateListChange sp) s fun e =>
      e.sub sp = { s.dev.sub sp with force := if g.entries = [] then none else some g, sched := none } ∧ e.time.now = t
      ∧ (∀ q, q ≠ sp → e.sub q = s.dev.sub q) ∧ Only [.data, .time, .draws, .regs, .meas, .funcs, .out] s.dev e)
  ∧ (∀ (s : State) (sp : Nat) (answered : Bool), sp < 512 → s.dev.subUp sp = true →
    let x := s.dev.sub sp
    x.up = true → x.verified = false → x.preempt ≠ 0 → x.verifyAt ≤ s.dev.time.nextAt →
    Does (.preemptVerify sp answered) s fun e =>
      e.sub sp = (if answered then { x with verified := true }
        else { x with verifyAt := max s.dev.time.now x.verifyAt + 10000000 })
      ∧ (∀ q, q ≠ sp → e.sub q = s.dev.sub q) ∧ Only [.data, .time, .draws, .regs, .meas, .funcs, .out] s.dev e)
  ∧ (∀ (s : State) (sp k : Nat) (p : Pkt) (l : List Pkt), sp < 512 → k < 8 → s.dev.subUp sp = true → s.dev.portEn (sp / 8) = true →
    s.dev.linkCarries (4 + sp / 256) = true →
    let x := s.dev.sub sp
    x.up = true → x.force = none → x.cut = none → x.air = none → x.verified = false → x.busyTo ≤ s.dev.time.nextAt →
    Tbl.look [] x.queues k = p :: l → (∀ j, k < j → j < 8 → Tbl.look [] x.queues j = []) →
    p.seg = 0 → p.whole = true → p.poisoned = false → p.tsTag = none → p.pages = [] →
    Does (.uplinkFrameStart sp) s fun e =>
      .upFrame sp (upBytes p) ∈ e.out ∧ Tbl.look [] (e.sub sp).queues k = l
      ∧ (∀ j, j ≠ k → Tbl.look [] (e.sub sp).queues j = Tbl.look [] x.queues j)
      ∧ (e.sub sp).busyTo = max s.dev.time.now x.busyTo + lineTime (s.dev.upRate sp) (upLen p)
      ∧ e.ctr (A.subTxFrames sp) = (s.dev.ctr (A.subTxFrames sp) + 1) % 2 ^ 64
      ∧ (∀ b, p.buf = some b → b ∈ e.data.buf.egress) ∧ (∀ q, q ≠ sp → e.sub q = s.dev.sub q) ∧ (∀ o, e.onu o = s.dev.onu o))
  ∧ (∀ (s : State) (c pos space : Nat), c < 512 → pos < 16384 → 8 ≤ space → space % 8 = 0 → s.dev.chanUp c = true →
    (s.dev.chan c).state ≠ .off → s.dev.shadow = false → s.dev.ponRuns (c / 128) = true → (s.dev.chan c).part = none →
    s.dev.pon.queues = [] →
    Does (.downstreamSelect c pos space) s fun e =>
      (∃ b : Bytes, b.length = space ∧ e.out = .dsFrame c 2097152 0 b :: s.dev.out) ∧ Only [.out] s.dev e)
  ∧ ∀ (s : State) (c pos space f o : Nat) (p : Pkt) (x : Flow), c < 512 → pos < 16384 → space % 8 = 0 → s.dev.chanUp c = true →
    s.dev.serves c = true → s.dev.domOn 15 = true → s.dev.linkCarries (c / 128) = true → s.dev.shadow = false →
    s.dev.ponRuns (c / 128) = true → (s.dev.chan c).part = none → s.dev.pon.queues = [(f, [p])] → s.dev.flow? f = some x →
    x.onu = o → bit x.dir 0 = true → x.encrypt = 0 → s.dev.servChan o = c → s.dev.served o = true → f < 2 ^ 21 → o < 65536 →
    (∀ k ∈ [nodeKey 2 f, nodeKey 1 o, nodeKey 0 c], (s.dev.node k).rate = 0xFFFFFFFF) →
    Tbl.look 0 (s.dev.node (nodeKey 1 o)).turns (s.dev.node (nodeKey 2 f)).prio = f + 1 →
    Tbl.look 0 (s.dev.node (nodeKey 0 c)).turns (s.dev.node (nodeKey 1 o)).prio = o + 1 →
    p.len + 8 ≤ (s.dev.node (nodeKey 2 f)).deficit → p.len + 8 ≤ (s.dev.node (nodeKey 1 o)).deficit →
    p.seg = 0 → p.whole = true → p.poisoned = false → p.pages = [] → (dsBytes p).length < 16384 →
    8 + padded (s.dev.chan c).mode (dsBytes p).length ≤ space →
    Does (.downstreamSelect c pos space) s fun e =>
      (∃ w, .dsFrame c f 0 (be 8 w ++ dsBytes p
        ++ List.replicate (padded (s.dev.chan c).mode (dsBytes p).length - (dsBytes p).length) 0) ∈ e.out)
      ∧ e.queue f = []
      ∧ (∀ k ∈ [nodeKey 2 f, nodeKey 1 o, nodeKey 0 c], (e.node k).sent = ((s.dev.node k).sent + p.len + 8) % 2 ^ 64)
      ∧ (∀ b, p.buf = some b → b ∈ e.data.buf.egress) ∧ (∀ j, e.chan j = s.dev.chan j) ∧ ∀ j, e.onu j = s.dev.onu j

/-! ## Buffers and uplinks -/

/-- R366 to R387, Table 15-4: a packet that is due a reserved buffer gets it and joins its queue; a held request is granted so or expires;
a free by the holder frees, any other is latched; a lone buffer is reclaimed at the second sweep; spilled packets return, and stacks place
pages and drain. -/
def Obligations.BuffersAreGrantedAndFreed : Prop :=
  (∀ (d : Dev) (n f k : Nat) (p : Pkt) (x : Flow), n < 6 → d.domOn 15 = true → d.linkCarries n = true → d.isHeld n = false →
    d.shadow = false → d.power.run = none → p.dest = .flow f → p.injected = false → d.flow? f = some x → d.queue f = [] →
    poolOf p.len = some k → bit (d.live' A.bufCtrl) 1 = false →
    let o := ownerTag 1 x.onu
    (d.owner o).inUse.length = 4 → nth 0 (d.owner o).inUse k < nth 0 (d.owner o).reserved k → 0 < d.poolFree k →
    let e := d.toPolder n p
    ∃ i q, e.queue f = [q] ∧ q.data = p.data ∧ q.dest = .flow f ∧ q.buf = some (k, i) ∧ q.owner = o ∧ q.seg = 0
      ∧ Tbl.get? e.data.buf.alloc (bufKey k i) = some o ∧ Tbl.get? d.data.buf.alloc (bufKey k i) = none ∧ i < poolCount k
      ∧ nth 0 (e.owner o).inUse k = nth 0 (d.owner o).inUse k + 1 ∧ (∀ g, g ≠ f → e.queue g = d.queue g)
      ∧ (∀ j, j ≠ bufKey k i → Tbl.get? e.data.buf.alloc j = Tbl.get? d.data.buf.alloc j)
      ∧ Only [.pon, .data, .draws, .regs, .meas, .funcs, .out] d e)
  ∧ (∀ (s : State) (p i tag : Nat), p < 4 → i < poolCount p → tag < 2 ^ 32 → s.dev.domOn 15 = true →
    let held := Tbl.get? s.dev.data.buf.alloc (bufKey p i)
    Does (.bufferFree p i tag) s fun e =>
      (held = some tag → Tbl.get? e.data.buf.alloc (bufKey p i) = none
        ∧ (∀ j, j ≠ bufKey p i → Tbl.get? e.data.buf.alloc j = Tbl.get? s.dev.data.buf.alloc j)
        ∧ ((s.dev.owner tag).leaving = false → nth 0 (e.owner tag).inUse p = nth 0 (s.dev.owner tag).inUse p - 1)
        ∧ e.ctrs = s.dev.ctrs ∧ Only [.data, .regs, .funcs, .out] s.dev e)
      ∧ (held ≠ some tag → e.data.buf = s.dev.data.buf
        ∧ bit (e.reg A.bufCause) (if held = none then 4 else 5) = true
        ∧ (held = none → e.ctr A.bufDfree = (s.dev.ctr A.bufDfree + 1) % 2 ^ 64)
        ∧ (held ≠ none → e.ctr A.bufFfree = (s.dev.ctr A.bufFfree + 1) % 2 ^ 64)
        ∧ (bit (s.dev.reg A.bufErrInfo) 0 = false → e.reg A.bufErrAddr = i ∧ e.reg A.bufErrReq = tag
          ∧ e.reg A.bufErrInfo = 1 + 2 * nb held.isSome + 4 * p)
        ∧ Only [.regs, .ctrs, .pav, .data, .funcs, .out] s.dev e))
  ∧ (∀ s : State, s.dev.domOn 15 = true → s.dev.data.buf.orphans = [] →
    Does .bufferReclaimSweep s fun e =>
      e.data.buf.alloc = s.dev.data.buf.alloc
      ∧ (∀ k, k ∈ e.data.buf.orphans ↔ k ∈ Tbl.keys s.dev.data.buf.alloc ∧ k ∉ s.dev.bufRefs.map fun b => bufKey b.1 b.2)
      ∧ Only [.data] s.dev e)
  ∧ (∀ (s : State) (p i tag : Nat), s.dev.domOn 15 = true → p < 4 → i < 2 ^ 20 → s.dev.data.buf.alloc = [(bufKey p i, tag)] →
    s.dev.data.buf.orphans = [bufKey p i] → s.dev.bufRefs = [] →
    Does .bufferReclaimSweep s fun e =>
      e.data.buf.alloc = [] ∧ e.data.buf.orphans = [] ∧ e.ctr A.bufReclaim = (s.dev.ctr A.bufReclaim + 1) % 2 ^ 64
      ∧ bit (e.reg A.bufCause) 6 = true)
  ∧ (∀ (s : State) (p sp : Nat) (h : HeldBuf), p < 4 → s.dev.data.buf.held = [h] → s.dev.data.buf.recvQ = [] → h.pool = p → h.who < 6 →
    h.pkt.dest = .uplink sp → h.pkt.pages = [] → s.dev.getQ (.up sp h.pkt.cls) = [] →
    let o := s.dev.ownerOf h.pkt
    nth 0 (s.dev.owner o).inUse p < nth 0 (s.dev.owner o).reserved p → 0 < s.dev.poolFree p →
    Does (.heldBufferGrant p) s fun e =>
      e.data.buf.held = []
      ∧ (∃ i q, e.getQ (.up sp h.pkt.cls) = [q] ∧ q.data = h.pkt.data ∧ q.buf = some (p, i)
        ∧ Tbl.get? e.data.buf.alloc (bufKey p i) = some o)
      ∧ (∀ f, e.queue f = s.dev.queue f) ∧ Only [.data, .draws, .regs, .meas, .funcs, .out] s.dev e)
  ∧ (∀ (s : State) (n : Nat) (h : HeldBuf), n < 6 → s.dev.data.buf.held = [h] → h.who = n → s.dev.data.buf.recvQ = [] →
    h.at' + 100 * max 1 (fld (s.dev.live' A.bufCtrl) 8 8) ≤ s.dev.time.nextAt →
    Does (.bufferHoldExpiry n) s fun e =>
      e.data.buf.held = [] ∧ e.ctr A.bufHoldDrop = (s.dev.ctr A.bufHoldDrop + 1) % 2 ^ 64
      ∧ (∀ f, h.pkt.dest = .flow f → (e.flow? f).map Flow.dropped = (s.dev.flow? f).map fun x => x.dropped + 1)
      ∧ (∀ f, e.queue f = s.dev.queue f) ∧ Only [.data, .pon, .ctrs, .draws, .regs, .meas, .funcs, .out, .time] s.dev e)
  ∧ (∀ (s : State) (f : Nat) (p : Pkt), f < 2097152 → s.dev.domOn 15 = true → s.dev.queue f = [p] → p.seg = 2 → p.len ≤ 65536 →
    s.dev.data.buf.staged + p.len ≤ 16777216 →
    Does (.basinStageRead 0 f 0 none) s fun e =>
      e.queue f = [{ p with seg := 1, pages := [] }] ∧ e.data.buf.staged = s.dev.data.buf.staged + p.len
      ∧ (∀ g, g ≠ f → e.queue g = s.dev.queue g) ∧ e.data.buf.alloc = s.dev.data.buf.alloc ∧ Only [.pon, .data] s.dev e)
  ∧ (∀ (s : State) (k t : Nat), k < 4 → Tbl.get? s.dev.data.buf.draining k = some t →
    (nth 0 s.dev.data.buf.used k = 0 ∨ t + 1000000000 ≤ s.dev.time.now) → s.dev.pon.queues = [] → s.dev.data.subs = [] →
    s.dev.data.excWait = [] →
    Does (.basinStackDrainEnd k) s fun e =>
      Tbl.get? e.data.buf.draining k = none ∧ (∀ j, j ≠ k → Tbl.get? e.data.buf.draining j = Tbl.get? s.dev.data.buf.draining j)
      ∧ e.data = { s.dev.data with buf := { s.dev.data.buf with draining := e.data.buf.draining } } ∧ Only [.data] s.dev e)
  ∧ ∀ (s : State) (k : Nat), k < 4 → s.dev.domOn (16 + k) = true → Tbl.get? s.dev.data.buf.draining k = none →
    bit s.dev.pav.hbmHot k = false → Tbl.look 0 s.dev.power.upAt (16 + k) + 2000000 ≤ s.dev.time.nextAt →
    Does (.stackPlacesPages k) s fun e =>
      e.data = { s.dev.data with buf := { s.dev.data.buf with placing := s.dev.data.buf.placing.set k true } }
      ∧ Only [.data, .draws, .regs, .meas, .funcs, .out, .time] s.dev e

/-- R413 to R421, R429, R431, Tables 17-1 to 17-4: subports come up and go down with their lanes; a fault disables a lane until two clean
checks; EN and MODE of a port; received frames are checked in order; timestamps are read in order; SyncE and PTP ports are set. -/
def Obligations.UplinksRun : Prop :=
  (∀ (s : State) (sp dsk inv : Nat), sp < 512 → s.dev.subUp sp = true → s.dev.portEn (sp / 8) = true → (s.dev.sub sp).up = false →
    (∀ l ∈ s.dev.lanesOf sp, (s.dev.lane l).fault = 0) → bit (s.dev.reg A.refclk) (4 + sp / 256) = true →
    Does (.uplinkLinkUp sp dsk inv false) s fun e =>
      e.sub sp = {
        s.dev.sub sp with up := true, miswire := false, verified := false, verifyAt := s.dev.time.now, upAt := s.dev.time.now, busyTo := s.dev.time.now }
      ∧ (∀ l ∈ s.dev.lanesOf sp, (e.lane l).signal = true ∧ (e.lane l).locked = true) ∧ bit (e.reg (A.uplCause (sp / 8))) 0 = true
      ∧ e.reg (A.uplDeskew (sp / 8)) = dsk % 2 ^ 32 ∧ (∀ q, q ≠ sp → e.sub q = s.dev.sub q) ∧ Only [.data, .regs, .funcs, .out] s.dev e)
  ∧ (∀ (s : State) (sp sig lk : Nat), sp < 512 → s.dev.subUp sp = true → (s.dev.sub sp).up = true →
    Does (.uplinkLinkDown sp sig lk) s fun e =>
      e.sub sp = { s.dev.sub sp with up := false, verified := false, cut := none, air := none } ∧ bit (e.reg (A.uplCause (sp / 8))) 0 = true
      ∧ (∀ q, q / 8 ≠ sp / 8 → e.sub q = s.dev.sub q) ∧ Only [.data, .regs, .funcs, .out] s.dev e)
  ∧ (∀ (s : State) (l k : Nat), l < 256 → 0 < k → k < 6 → s.dev.portUp (l / 4) = true →
    Does (.laneFaultCheck l k) s fun e =>
      (e.lane l).fault = k ∧ (e.lane l).clean = 0 ∧ bit (e.reg (A.uplCause (l / 4))) 1 = true
      ∧ ((s.dev.lane l).fault = 0 → .lane l false ∈ e.out) ∧ (∀ j, j ≠ l → e.lane j = s.dev.lane j)
      ∧ (∀ q ∈ s.dev.subsOf (l / 4), l ∈ s.dev.lanesOf q → (e.sub q).up = false) ∧ Only [.data, .regs, .funcs, .out, .pav, .ctrs] s.dev e)
  ∧ (∀ (s : State) (l : Nat), l < 256 → s.dev.portUp (l / 4) = true → (s.dev.lane l).fault ≠ 0 →
    Does (.laneFaultCheck l 0) s fun e =>
      ((s.dev.lane l).clean = 0 → e.lane l = { s.dev.lane l with clean := 1 } ∧ e.out = s.dev.out)
      ∧ ((s.dev.lane l).clean ≠ 0 → e.lane l = { s.dev.lane l with fault := 0, clean := 0 } ∧ e.out = .lane l true :: s.dev.out)
      ∧ (∀ j, j ≠ l → e.lane j = s.dev.lane j) ∧ Only [.data, .out] s.dev e)
  ∧ (∀ (s : State) (p : Nat), p < 64 → Reaches s.dev 0 (A.uplCfg p) → s.dev.portEn p = true →
    Does (.uplCfgEnClear p) s fun e =>
      e.portEn p = false ∧ (∀ q ∈ s.dev.subsOf p, (e.sub q).up = false ∧ ∀ k < 8, e.getQ (.up q k) = [])
      ∧ (∀ q, q / 8 ≠ p → e.sub q = s.dev.sub q) ∧ (∀ f, e.queue f = s.dev.queue f))
  ∧ (∀ (s : State) (p m : Nat), p < 64 → m < 4 → Reaches s.dev 0 (A.uplCfg p) →
    Does (.uplCfgModeWrite p m) s fun e =>
      (s.dev.portEn p = false → m < 3 → fld (e.reg (A.uplCfg p)) 1 2 = m ∧ e.portEn p = false
        ∧ e.reg (A.uplRxCorr p) = nth 2413 [1907, 2097] m ∧ e.reg (A.uplTxCorr p) = nth 972 [774, 834] m)
      ∧ (s.dev.portEn p = true → m ≠ fld (s.dev.reg (A.uplCfg p)) 1 2 →
        bit (e.reg (A.uplCause p)) 4 = true ∧ e.reg (A.uplCfg p) = s.dev.reg (A.uplCfg p) ∧ e.data = s.dev.data)
      ∧ (∀ q, q / 8 ≠ p → e.sub q = s.dev.sub q) ∧ Only [.data, .regs, .funcs, .out] s.dev e)
  ∧ (∀ (s : State) (p : Nat), p < 64 → Reaches s.dev 0 (A.uplCfg p) → s.dev.portEn p = false → fld (s.dev.reg (A.uplCfg p)) 1 2 < 3 →
    Does (.uplCfgEnSet p) s fun e =>
      e.portEn p = true ∧ fld (e.reg (A.uplCfg p)) 1 31 = fld (s.dev.reg (A.uplCfg p)) 1 31)
  ∧ (∀ (s : State) (sp tag sec ns fr : Nat) (l : List (Nat × Nat × Nat × Nat)), sp < 512 → Reaches s.dev 0 (A.tsfHead sp) →
    (s.dev.sub sp).fifo = (tag, sec, ns, fr) :: l →
    Does (.tsfHeadRead sp) s fun e =>
      e.out = .completion 0 (le 4 ((1 + 2 * l.length + 65536 * tag) % 2 ^ 32)) :: s.dev.out
      ∧ e.sub sp = { s.dev.sub sp with fifo := l, readout := (sec, ns, fr) } ∧ (∀ q, q ≠ sp → e.sub q = s.dev.sub q)
      ∧ Only [.data, .out] s.dev e)
  ∧ (∀ (s : State) (sp cc cu : Nat) (fr : Bytes) (ov : Bool), sp < 512 → s.dev.subUp sp = true → (s.dev.sub sp).up = true →
    s.dev.portEn (sp / 8) = true →
    let n := fr.length
    let good := beAt fr (n - 4) 4 = ofBe (le 4 (crc32 (fr.take (n - 4))))
    let top := min 16384 (s.dev.regFld (A.uplCfg (sp / 8)) 16 16)
    let count := fun (e : Dev) (a : Nat) => e.ctr a = (s.dev.ctr a + 1) % 2 ^ 64
    let rx := fun (e : Dev) =>
      count e (A.subRxFrames sp) ∧ e.ctr (A.subFecCorr sp) = (s.dev.ctr (A.subFecCorr sp) + cc) % 2 ^ 64
      ∧ e.ctr (A.subFecUncorr sp) = (s.dev.ctr (A.subFecUncorr sp) + cu) % 2 ^ 64
    let gone := fun (e : Dev) => rx e ∧ e.data = s.dev.data ∧ Only [.ctrs, .meas, .regs, .funcs, .out] s.dev e
    Does (.uplinkFrameRx sp fr ov cc cu) s fun e =>
      (n < 64 → gone e)
      ∧ (64 ≤ n → ¬ good → count e (A.subFcsErr sp) ∧ gone e)
      ∧ (64 ≤ n → good → top < n → count e (A.subOversize sp) ∧ gone e)
      ∧ (64 ≤ n → good → n ≤ top → beAt fr 12 2 = 0x8808 → count e (A.subCtrlDrop sp) ∧ gone e)
      ∧ (64 ≤ n → good → n ≤ top → beAt fr 12 2 ≠ 0x8808 → ov = true → count e (A.subInOverrun sp) ∧ gone e)
      ∧ (64 ≤ n → good → n ≤ top → beAt fr 12 2 ≠ 0x8808 → ov = false →
        ∃ d, e = d.spread (4 + sp / 256) {
            data := fr, len := n, src := sp
            ts := some (stampOf (s.dev.subTime sp - corr (s.dev.reg (A.uplRxCorr (sp / 8))) - corr (s.dev.reg (A.uplDeskew (sp / 8))))) }
          ∧ rx d ∧ Only [.ctrs, .meas] s.dev d))
  ∧ (∀ (s : State) (n : Nat), n < 2 → s.dev.dieUp (4 + n) = true → (s.dev.synce n).enable = true → (s.dev.synce n).active = false →
    (s.dev.sub (256 * n + (s.dev.synce n).sub)).up = true →
    (s.dev.sub (256 * n + (s.dev.synce n).sub)).upAt + 10000000 ≤ s.dev.time.nextAt →
    Does (.synceOutputReturn n) s fun e =>
      e.synce n = { s.dev.synce n with active := true } ∧ e.out.head? = some (.synce n true) ∧ (∀ k, k ≠ n → e.synce k = s.dev.synce k)
      ∧ Only [.data, .draws, .regs, .meas, .funcs, .out, .time] s.dev e)
  ∧ Answers .synceSet cmdSynceSet [.data] (fun _ _ => [])
    (fun d m e =>
      let b := m.payload
      let n := leAt b 0 1
      let sp := 8 * leAt b 1 1 + leAt b 2 1
      e.synce n = {
        enable := leAt b 3 1 == 1, sub := sp % 256
        active := leAt b 3 1 == 1 && (d.sub sp).up && decide ((d.sub sp).upAt + 10000000 ≤ d.time.now) }
      ∧ (∀ k, k ≠ n → e.synce k = d.synce k) ∧ (∀ q, e.sub q = d.sub q))
  ∧ Answers .ptpPortSet cmdPtpPortSet [] (fun _ _ => [])
    (fun _ m e =>
      let b := m.payload
      e.reg (A.subPtpCfg (8 * leAt b 0 1 + leAt b 1 1)) = leAt b 2 1 + 2 * nb (leAt b 3 1 == 1))
/-! ## Time -/

/-- R157, R161, R164, R167, R205, R422 to R430, R541, Tables 6-19, 17-5: the time group; a load, a step and a new rate of a domain; a
compare unit is armed and fires; an alignment step lengthens its tick so that the next T0 falls on a tick of the selected domain; a tick
edge advances TICK_NUM and puts delayed writes in force. -/
def Obligations.TimeRuns : Prop :=
  Orders .timeSelect cmdTimeSelect
  ∧ Commits cmdTimeSelect [.time, .data, .ctrs] (fun _ _ => [])
    (fun d b e => e.time = { d.time with selected := leAt b 0 1 } ∧ (d.time.selected = leAt b 0 1 → e.data = d.data ∧ e.ctrs = d.ctrs))
  ∧ Answers .timeGet cmdTimeGet []
    (fun d _ => [BitVec.ofNat 8 d.time.selected, BitVec.ofNat 8 (nb (d.ptpLocked 0)), BitVec.ofNat 8 (nb (d.ptpLocked 1)), 0]
      ++ le 8 d.time.tick ++ le 8 d.uptimeNs)
    (fun _ _ _ => True)
  ∧ Answers .todSet cmdTodSet [.pon] (fun _ _ => [])
    (fun d m e =>
      let c := leAt m.payload 0 2
      (∀ k < 512, e.chan k = (if c = k ∨ c = 0xFFFF ∧ d.chanUp k = true then { d.chan k with tod := leAt m.payload 2 1 == 1 } else d.chan k))
      ∧ ∀ o, e.onu o = d.onu o)
  ∧ (∀ (s : State) (x : Nat), x < 2 → Reaches s.dev 0 (A.ptpNowFrac x) →
    Does (.ptpNowFracRead x) s fun e =>
      let ns := Ptp.ns (s.dev.ptp x)
      e.out = .completion 0 (le 4 ((s.dev.ptp x).count % 2 ^ 32)) :: s.dev.out
      ∧ Tbl.get? (e.fn 0).latch (A.ptpNowNs x) = some (BitVec.ofNat 32 (ns % 1000000000))
      ∧ Tbl.get? (e.fn 0).latch (A.ptpNowSec x) = some (BitVec.ofNat 32 (ns / 1000000000))
      ∧ Tbl.get? (e.fn 0).latch (A.ptpNowSec x + 4) = some (BitVec.ofNat 32 (ns / 1000000000 / 2 ^ 32))
      ∧ Only [.funcs, .out] s.dev e)
  ∧ (∀ (s : State) (x : Nat), x < 2 → Reaches s.dev 0 (A.ptpCtrl x) →
    Does (.ptpLoad x) s fun e =>
      let ns := s.dev.reg (A.ptpSetNs x)
      (ns < 1000000000 →
        e.ptp x = { s.dev.ptp x with count := (s.dev.ctr (A.ptpSetSec x) % 2 ^ 48 * 1000000000 + ns) * 2 ^ 32 }
        ∧ e.ptp (1 - x) = s.dev.ptp (1 - x) ∧ e.reg (A.ptpSteps x) = (s.dev.reg (A.ptpSteps x) + 1) % 2 ^ 32)
      ∧ (1000000000 ≤ ns → bit (e.reg (A.ptpCtrl x)) 2 = true ∧ e.time = s.dev.time) ∧ Only [.regs, .time, .ctrs, .data] s.dev e)
  ∧ (∀ (s : State) (x : Nat) (hi : BitVec 32), x < 2 → Reaches s.dev 0 (A.ptpStep x + 4) →
    let v := s.dev.lowOf 0 (A.ptpStep x) (s.dev.ctr (A.ptpStep x)) + 2 ^ 32 * hi.toNat
    let t := ((s.dev.ptp x).count : Int) + signed 64 v * 2 ^ 32
    Does (.ptpStep x hi) s fun e =>
      (0 ≤ t → e.ptp x = { s.dev.ptp x with count := t.toNat % (2 ^ 80 * 1000000000) } ∧ e.ptp (1 - x) = s.dev.ptp (1 - x)
        ∧ e.reg (A.ptpSteps x) = (s.dev.reg (A.ptpSteps x) + 1) % 2 ^ 32)
      ∧ (t < 0 → bit (e.reg (A.ptpCtrl x)) 2 = true ∧ e.time = s.dev.time)
      ∧ (∀ g, g ≠ 0 → e.fn g = s.dev.fn g) ∧ Only [.regs, .time, .ctrs, .data, .funcs] s.dev e)
  ∧ (∀ (s : State) (x : Nat) (hi : BitVec 32), x < 2 → Reaches s.dev 0 (A.ptpIncr x + 4) →
    let v := s.dev.lowOf 0 (A.ptpIncr x) (s.dev.ptp x).incr + 2 ^ 32 * hi.toNat
    let w := max 0xFFBE76C9 (min 0x100418937 v)
    Does (.ptpIncrWrite x hi) s fun e =>
      e.ptp x = { s.dev.ptp x with incr := w } ∧ e.ptp (1 - x) = s.dev.ptp (1 - x)
      ∧ (w ≠ v → bit (e.reg (A.ptpCtrl x)) 3 = true) ∧ (w = v → e.regs = s.dev.regs)
      ∧ (∀ g, g ≠ 0 → e.fn g = s.dev.fn g) ∧ Only [.regs, .time, .funcs] s.dev e)
  ∧ (∀ (s : State) (m : Nat) (w : BitVec 32), m < 4 → Reaches s.dev 0 (A.cmpCtrl m) → s.dev.time.cmp.length = 4 →
    Does (.cmpArm m w) s fun e =>
      let target := (s.dev.ctr (A.cmpTgtSec m) % 2 ^ 48 * 1000000000 + s.dev.reg (A.cmpTgtNs m)) % 2 ^ 64
      (bit w.toNat 0 = true → e.cmp m = { armed := true, target := target, late := decide (0 < s.dev.cmpDiff (fld w.toNat 2 1) target) })
      ∧ (bit w.toNat 0 = false → e.cmp m = { s.dev.cmp m with armed := false })
      ∧ (∀ k, k ≠ m → e.cmp k = s.dev.cmp k) ∧ e.reg (A.cmpCtrl m) = Nat.land w.toNat 0x1E ∧ Only [.regs, .time] s.dev e)
  ∧ (∀ (s : State) (m : Nat), m < 4 → s.dev.time.cmp.length = 4 → (s.dev.cmp m).armed = true →
    let ctrl := s.dev.reg (A.cmpCtrl m)
    let x := fld ctrl 2 1
    let away := -(s.dev.cmpDiff x (s.dev.cmp m).target)
    let need := if away ≤ 0 then 0 else ((Ptp.ns (s.dev.ptp x) : Int) + away).toNat * 2 ^ 32 - (s.dev.ptp x).count
    let at' := s.dev.time.now + s.dev.clocksFor x need
    let period := max 100 (s.dev.reg (A.cmpPeriod m))
    let width := max 8 (s.dev.reg (A.cmpWidth m))
    at' ≤ s.dev.time.nextAt →
    Does (.compareFire m) s fun e =>
      e.time.now = at' ∧ e.ctr (A.cmpFired m) = (s.dev.ctr (A.cmpFired m) + 1) % 2 ^ 64
      ∧ e.reg (A.cmpStatus m) = Nat.lor (s.dev.reg (A.cmpStatus m)) (2 + 4 * nb (s.dev.cmp m).late)
      ∧ (bit ctrl 1 = false → e.cmp m = { s.dev.cmp m with armed := false })
      ∧ (bit ctrl 1 = true → (e.cmp m).armed = true ∧ (e.cmp m).target = ((s.dev.cmp m).target + period) % 2 ^ 64)
      ∧ (bit ctrl 3 = true →
        .pulse m (bit ctrl 4) (if bit ctrl 1 = true ∧ period ≤ width then period / 2 else width) ∈ e.out)
      ∧ (∀ k, k ≠ m → e.cmp k = s.dev.cmp k) ∧ Only [.regs, .time, .ctrs, .draws, .meas, .funcs, .out] s.dev e)
  ∧ (∀ (s : State) (diff : BitVec 32), s.dev.boot.pd00 = true → bit (s.dev.reg A.refclk) 7 = true → bit (s.dev.reg A.refclk) 8 = true →
    s.dev.time.diffFrom + 1000000000 ≤ s.dev.time.nextAt →
    Does (.ptpRefDiffMeasure diff) s fun e =>
      e.reg A.ptpRefDiff = diff.toNat ∧ e.time.diffFrom = max s.dev.time.now (s.dev.time.diffFrom + 1000000000)
      ∧ Only [.regs, .time, .draws, .meas, .funcs, .out] s.dev e)
  ∧ (∀ (s : State) (n drift : Nat), n < 4 → s.dev.domOn (1 + n) = true → s.dev.dieFailed n = false →
    Does (.frameDriftCheck n drift) s fun e =>
      (drift ≤ 4000 → e = s.dev)
      ∧ (4000 < drift → bit (e.reg A.tickStatus) 6 = true
        ∧ ((∀ x ∈ s.dev.pav.merges, x.1 ≠ 0x0204) →
          ∃ x, e.pav.log.head? = some x ∧ x.code = 0x0204 ∧ x.source = n ∧ x.data = [BitVec.ofNat 8 n])
        ∧ Only [.regs, .pav, .data, .ctrs, .funcs, .out] s.dev e))
  ∧ (∀ s : State, Reaches s.dev 0 A.tickCtrl →
    Does .alignReq s fun e =>
      e.time = { s.dev.time with alignReq := true } ∧ e.reg A.tickCtrl = s.dev.reg A.tickCtrl % 2
      ∧ (∀ a, a ≠ A.tickCtrl → e.reg a = s.dev.reg a) ∧ Only [.regs, .time] s.dev e)
  ∧ (∀ s : State, s.dev.boot.pd00 = true → 0 < s.dev.time.edges → s.dev.time.now = s.dev.time.edgeAt → s.dev.time.stepping = false →
    s.dev.alignDue = true → s.dev.allChanOff = true → s.dev.holdover = false →
    let p := s.dev.ptp s.dev.time.selected
    0 < p.incr →
    Does .alignmentStep s fun e =>
      ∃ k n, e.time = {
          s.dev.time with stepping := true, alignReq := false, alignPending := false, nextAt := s.dev.time.now + n, nextTick := k }
        ∧ p.count + 7812 * p.incr ≤ k * (15625 * 2 ^ 31) ∧ k * (15625 * 2 ^ 31) < p.count + 7812 * p.incr + 15625 * 2 ^ 31
        ∧ p.count + n * p.incr ≤ k * (15625 * 2 ^ 31) ∧ k * (15625 * 2 ^ 31) < p.count + (n + 1) * p.incr ∧ Only [.time] s.dev e)
  ∧ ∀ (s : State) (late : List Nat), s.dev.boot.pd00 = true → (∀ c ∈ late, c < 512) →
    Does (.tickEdge late) s fun e =>
      let t := s.dev.time
      e.time.tick = t.nextTick ∧ e.time.nextTick = t.nextTick + 1 ∧ e.time.edges = t.edges + 1
      ∧ e.time.now = max t.now t.nextAt ∧ e.time.edgeAt = max t.now t.nextAt
      ∧ e.time.nextAt = max t.now t.nextAt + tickClock (t.nextTick + 1) - tickClock t.nextTick ∧ e.time.stepping = false
      ∧ e.time.aligned = (t.aligned || t.stepping)
      ∧ (∀ k a v, s.dev.due = [(k, a, v)] → k ≤ t.edges + 1 → a < 2 ^ 32 → (∀ n < 6, a ≠ A.clsCfg n) → e.live' a = v.toNat)
      ∧ e.pins = s.dev.pins ∧ e.pcie = s.dev.pcie ∧ e.fuses = s.dev.fuses ∧ e.image = s.dev.image

/-! ## Crypto pages, the DMA engine and measurement -/

/-- R314 to R321, Tables 12-5, 12-9, 12-10: START is refused while an operation runs, ends at once with the check that fails, or takes its
copy and uses a nonce of its slot; an operation ends with its result, its output and its tag; CLEAR and zeroise empty slots. -/
def Obligations.CryptoPagesRun : Prop :=
  (∀ (s : State) (f : Nat), f < 64 → Reaches s.dev f (pageOff f 8) → (s.dev.fn f).disabling = false →
    Does (.cryptoStart f) s fun e =>
      let p := s.dev.page f
      let q := e.page f
      let n := fld p.op.toNat 4 3
      (p.job.isSome = true → q = { p with startErr := true })
      ∧ (∀ r, p.job = none → Page.check p = some r →
        q.job = none ∧ q.done = true ∧ q.result = r ∧ q.outLen = 0 ∧ q.ops = (p.ops + 1) % 2 ^ 64 ∧ (p.waiting = [] → q.slots = p.slots))
      ∧ (p.job = none → Page.check p = none →
        (∃ j, q.job = some j ∧ j.op = p.op.toNat % 8 ∧ j.slot = n ∧ j.key = (Page.slot p n).key
          ∧ j.data = Mem.read p.inp 0 (fld p.len.toNat 0 13) ∧ j.aad = Mem.read p.aad 0 (fld p.len.toNat 16 11)
          ∧ j.nonce = (if p.op.toNat % 2 = 0 then be 4 (Page.slot p n).epoch ++ be 8 (Page.slot p n).ctr else wordsLe p.nonce))
        ∧ q.ops = p.ops ∧ (p.op.toNat % 2 = 1 → q.slots = p.slots)
        ∧ (p.op.toNat % 2 = 0 → p.slots.length = 8 → (Page.slot q n).ctr = (Page.slot p n).ctr + 1
          ∧ (Page.slot q n).retired = ((Page.slot p n).retired || (Page.slot p n).ctr + 2 == 2 ^ 64)
          ∧ ∀ k, k ≠ n → Page.slot q k = Page.slot p k))
      ∧ (∀ g, g ≠ f → e.page g = s.dev.page g) ∧ Only [.funcs, .regs, .meas, .out] s.dev e)
  ∧ (∀ (s : State) (f slots : Nat), f < 64 → slots < 256 → Reaches s.dev f (pageOff f 8) → (s.dev.fn f).disabling = false →
    (s.dev.page f).slots.length = 8 →
    Does (.cryptoClear f slots) s fun e =>
      let p := s.dev.page f
      (p.job = none → (∀ n < 8, Page.slot (e.page f) n = if bit slots n then {} else Page.slot p n)
        ∧ e.page f = { p with slots := (e.page f).slots })
      ∧ (p.job.isSome = true →
        e.page f = { p with waiting := p.waiting ++ (((List.range 8).filter fun n => bit slots n).map fun n => (n, {})) })
      ∧ (∀ g, g ≠ f → e.fn g = s.dev.fn g) ∧ Only [.funcs] s.dev e)
  ∧ (∀ (s : State) (f : Nat) (j : CryptoJob), f < 64 → s.dev.pageUp f = true → (s.dev.page f).job = some j →
    Does (.cryptoOperationDone f) s fun e =>
      let p := s.dev.page f
      let q := e.page f
      let good := j.op ≠ 1 ∨ gcmTag j.key j.nonce j.aad j.data = j.tag
      let out := if j.op = 0 then (gcmEnc j.key j.nonce j.aad j.data).1 else aesCtr j.key j.nonce (if j.op = 1 then 2 else 1) j.data
      q.job = none ∧ q.done = true ∧ q.ops = (p.ops + 1) % 2 ^ 64
      ∧ (good → q.result = 0 ∧ q.outLen = out.length ∧ Mem.read q.outp 0 out.length = out ∧ q.tagFail = p.tagFail)
      ∧ (¬ good → q.result = 1 ∧ q.outLen = 0 ∧ q.tagFail = (p.tagFail + 1) % 2 ^ 64)
      ∧ (j.op = 0 → q.tag = leWords 4 (gcmEnc j.key j.nonce j.aad j.data).2) ∧ (j.op ≠ 0 → q.tag = p.tag)
      ∧ (j.op = 0 ∨ j.op = 2 → q.nonce = leWords 3 j.nonce) ∧ (p.waiting = [] → q.slots = p.slots)
      ∧ (∀ g, g ≠ f → e.page g = s.dev.page g) ∧ Only [.funcs, .regs, .meas, .out] s.dev e)
  ∧ (∀ (s : State) (f : Nat), f < 64 → Reaches s.dev 0 A.cryptoEngZeroise →
    Does (.cryptoZeroisePage f) s fun e =>
      let p := s.dev.page f
      let q := e.page f
      q.slots = List.replicate 8 {} ∧ q.waiting = [] ∧ q.job = none
      ∧ (p.job.isSome = true → q.done = true ∧ q.result = 6 ∧ q.outLen = 0 ∧ q.ops = (p.ops + 1) % 2 ^ 64)
      ∧ (p.job = none → q = { p with slots := List.replicate 8 {}, waiting := [] })
      ∧ (∀ g, g ≠ f → e.page g = s.dev.page g) ∧ Only [.funcs, .regs, .meas, .out] s.dev e)
  ∧ (∀ s : State, Reaches s.dev 0 A.cryptoEngZeroise →
    Does .cryptoZeroiseAll s fun e =>
      (∀ f, (e.page f).slots = List.replicate 8 {} ∧ (e.page f).waiting = [] ∧ (e.page f).job = none)
      ∧ Only [.funcs, .regs, .meas, .out] s.dev e)
  ∧ ∀ s : State, s.dev.domOn 20 = true →
    Does .trngHealthFail s fun e =>
      bit (e.reg A.cryptoEngStatus) 1 = true ∧ e.reg A.cryptoTrngFail = min 0xFFFFFFFF (s.dev.reg A.cryptoTrngFail + 1)
      ∧ (∀ a, a ≠ A.cryptoEngStatus → a ≠ A.cryptoTrngFail → e.reg a = s.dev.reg a) ∧ Only [.regs] s.dev e

/-- R463 to R475, Tables 19-1 to 19-4: EN, RESUME and KICK move a channel; a descriptor is fetched from host memory and rejected, waited
for or taken; a finished descriptor is written back and its list followed; a bus error halts the channel with its record; a withdrawn unit
ends with code 5. -/
def Obligations.DmaChannelsRun : Prop :=
  (∀ (s : State) (n : Nat), n < 32 → Reaches s.dev 0 (A.dma n 0) → (s.dev.dmaCh n).en = false →
    Does (.dmaEnable n) s fun e =>
      (s.dev.dmaReq n < 0x14 → e.dmaCh n = { s.dev.dmaCh n with en := true, state := .run } ∧ e.regs = s.dev.regs)
      ∧ (0x14 ≤ s.dev.dmaReq n → e.data = s.dev.data ∧ bit (e.reg (A.dmaCause n)) 3 = true)
      ∧ (∀ k, k ≠ n → e.dmaCh k = s.dev.dmaCh k) ∧ Only [.data, .regs, .funcs, .out] s.dev e)
  ∧ (∀ (s : State) (n : Nat), n < 32 → Reaches s.dev 0 (A.dma n 0) → (s.dev.dmaCh n).en = true →
    Does (.dmaDisable n) s fun e =>
      let c := e.dmaCh n
      c.en = false ∧ c.state = .disabled ∧ c.cur = none ∧ c.unit = none ∧ c.pkt = none ∧ c.part = []
      ∧ (∀ k, k ≠ n → (e.dmaCh k).en = (s.dev.dmaCh k).en ∧ (e.dmaCh k).state = (s.dev.dmaCh k).state
        ∧ (e.dmaCh k).desc = (s.dev.dmaCh k).desc))
  ∧ (∀ (s : State) (n : Nat), n < 32 → Reaches s.dev 0 (A.dma n 0) → (s.dev.dmaCh n).en = true → (s.dev.dmaCh n).state = .halt →
    Does (.dmaResume n) s fun e =>
      e.dmaCh n = { s.dev.dmaCh n with state := .run, cur := none } ∧ (∀ k, k ≠ n → e.dmaCh k = s.dev.dmaCh k) ∧ Only [.data] s.dev e)
  ∧ (∀ (s : State) (n : Nat), n < 32 → Reaches s.dev 0 (A.dma n 0) → (s.dev.dmaCh n).en = true →
    ((s.dev.dmaCh n).state = .wait ∨ (s.dev.dmaCh n).state = .fin ∧ (s.dev.dmaCh n).descNew = true) →
    Does (.dmaKick n) s fun e =>
      e.dmaCh n = { s.dev.dmaCh n with state := .run } ∧ (∀ k, k ≠ n → e.dmaCh k = s.dev.dmaCh k) ∧ Only [.data] s.dev e)
  ∧ (∀ (s : State) (n more : Nat) (b : Bytes), n < 32 → s.dev.domOn 21 = true → s.dev.mayIssue (s.dev.dmaOwner n) = true →
    1 ≤ s.dev.dmaReq n → b.length = 32 →
    let c := s.dev.dmaCh n
    c.en = true → c.state = .run → c.cur = none → ramOffset c.desc = none →
    Does (.dmaDescriptorFetch n b more) s fun e =>
      let x := e.dmaCh n
      .dmaRead (s.dev.dmaOwner n) c.desc 32 ∈ e.out ∧ x.en = true ∧ x.desc = c.desc
      ∧ (bit (dCtrl b) 0 = false → x.state = .wait ∧ x.cur = none ∧ bit (e.reg (A.dmaCause n)) 2 = true)
      ∧ (bit (dCtrl b) 0 = true → descBad false c.desc b = true →
        x.state = .halt ∧ x.haltCause = 1 ∧ x.cur = none ∧ e.ctr (A.dmaErrAddr n) = c.desc % 2 ^ 64 ∧ bit (e.reg (A.dmaCause n)) 1 = true)
      ∧ (bit (dCtrl b) 0 = true → descBad false c.desc b = false →
        x.state = .run ∧ x.cur = some b ∧ x.count = dLen b % 32768))
  ∧ (∀ (s : State) (n : Nat) (data b u : Bytes), n < 32 → s.dev.domOn 21 = true → s.dev.mayIssue (s.dev.dmaOwner n) = true →
    1 ≤ s.dev.dmaReq n →
    let c := s.dev.dmaCh n
    c.en = true → c.state = .run → c.cur = some b → c.unit = some u → ramOffset c.desc = none →
    Does (.dmaDescriptorComplete n data) s fun e =>
      let left := u.drop c.done
      let now := left.take (dLen b)
      let ends := decide (left.length ≤ dLen b)
      let x := e.dmaCh n
      .dmaWrite (s.dev.dmaOwner n) (dAddr b) now ∈ e.out
      ∧ (∃ w, .dmaWrite (s.dev.dmaOwner n) c.desc (w ++ le 4 (dmaStatus false (c.done == 0) ends 0 (dLen b - now.length))) ∈ e.out)
      ∧ x.cur = none ∧ x.state = (if bit (dCtrl b) 4 then .fin else .run) ∧ (bit (dCtrl b) 4 = false → x.desc = dNext b)
      ∧ (ends = true → x.unit = none) ∧ (ends = false → x.unit = some u ∧ x.done = c.done + now.length)
      ∧ e.ctr (A.dmaDescs n) = (s.dev.ctr (A.dmaDescs n) + 1) % 2 ^ 64 ∧ (bit (dCtrl b) 1 = true → bit (e.reg (A.dmaCause n)) 0 = true))
  ∧ (∀ (s : State) (n : Nat) (data b : Bytes), n < 32 → s.dev.domOn 21 = true → s.dev.mayIssue (s.dev.dmaOwner n) = true →
    s.dev.dmaReq n = 0 →
    let c := s.dev.dmaCh n
    c.en = true → c.state = .run → c.cur = some b → c.code = 0 → bit (dCtrl b) 2 = false → ramOffset c.desc = none →
    data.length = dLen b →
    Does (.dmaDescriptorComplete n data) s fun e =>
      let x := e.dmaCh n
      .dmaRead (s.dev.dmaOwner n) (dAddr b) (dLen b) ∈ e.out
      ∧ (∃ w, .dmaWrite (s.dev.dmaOwner n) c.desc (w ++ le 4 (dmaStatus false (c.sopAt == some c.desc) false 0 0)) ∈ e.out)
      ∧ x.part = c.part ++ data ∧ x.cur = none ∧ x.pkt = c.pkt ∧ (bit (dCtrl b) 4 = false → x.desc = dNext b)
      ∧ (∀ k, k ≠ n → e.dmaCh k = s.dev.dmaCh k) ∧ Only [.data, .regs, .ctrs, .funcs, .out, .meas] s.dev e)
  ∧ (∀ (s : State) (n addr count : Nat) (write last ecc : Bool) (b : Bytes), n < 32 → s.dev.domOn 21 = true →
    let c := s.dev.dmaCh n
    c.en = true → c.state = .run → c.cur = some b → (1 ≤ s.dev.dmaReq n → c.unit.isSome = true) →
    Does (.dmaBusError n addr write last ecc count) s fun e =>
      let x := e.dmaCh n
      x.state = .halt ∧ x.haltCause = 1 ∧ x.errDir = nb write ∧ x.lastBeat = last ∧ x.count = count ∧ x.unit = none ∧ x.pkt = none
      ∧ e.ctr (A.dmaErrAddr n) = addr % 2 ^ 64 ∧ e.ctr (A.dmaErrs n) = (s.dev.ctr (A.dmaErrs n) + 1) % 2 ^ 64
      ∧ bit (e.reg (A.dmaCause n)) 1 = true ∧ (∀ k, k ≠ n → (e.dmaCh k).state = (s.dev.dmaCh k).state))
  ∧ ∀ (s : State) (n written : Nat) (b u : Bytes), n < 32 → s.dev.domOn 21 = true → 1 ≤ s.dev.dmaReq n →
    let c := s.dev.dmaCh n
    c.en = true → c.state = .run → c.cur = some b → c.unit = some u → c.pkt = none → ramOffset c.desc = none →
    Does (.dmaUnitWithdrawn n written) s fun e =>
      let x := e.dmaCh n
      x.unit = none ∧ x.cur = none ∧ x.state = (if bit (dCtrl b) 4 then .fin else .run)
      ∧ (∃ w, .dmaWrite (s.dev.dmaOwner n) c.desc (w ++ le 4 (dmaStatus false (c.done == 0) true 5 (dLen b - written))) ∈ e.out)
      ∧ e.ctr (A.dmaDescs n) = (s.dev.ctr (A.dmaDescs n) + 1) % 2 ^ 64

/-- R477 to R482, Tables 19-5 to 19-12: freeze, snapshot and clear of the counters; the end of a monitor's window; a closed trace slot
leaves its record with the DMA engine; a counter window is filled and shows it. -/
def Obligations.MeasurementRuns : Prop :=
  (∀ s : State, Reaches s.dev 0 A.perfCtrl → Nat.land (s.dev.reg A.perfCtrl) 0xFFFF0131 = s.dev.reg A.perfCtrl →
    Does .perfFreezeSet s fun e =>
      bit (e.reg A.perfCtrl) 0 = true ∧ e.frozen = true ∧ (∀ a, a ≠ A.perfCtrl → e.reg a = s.dev.reg a) ∧ Only [.regs] s.dev e)
  ∧ (∀ s : State, Reaches s.dev 0 A.perfCtrl → Nat.land (s.dev.reg A.perfCtrl) 0xFFFF0131 = s.dev.reg A.perfCtrl →
    Does .perfSnap s fun e =>
      (s.dev.meas.busy = false → e.meas.busy = true ∧ e.ctr A.perfSnapTick = s.dev.time.tick % 2 ^ 64
        ∧ ∀ k p, Tbl.look {} s.dev.meas.perf k = p → p.val ≠ 0 → Tbl.look {} e.meas.perf k = { p with shadow := p.val })
      ∧ (s.dev.meas.busy = true → e.meas = s.dev.meas ∧ e.reg A.perfSnapMissed = min 0xFFFFFFFF (s.dev.reg A.perfSnapMissed + 1))
      ∧ Only [.regs, .ctrs, .meas] s.dev e)
  ∧ (∀ s : State, Reaches s.dev 0 A.perfCtrl → Nat.land (s.dev.reg A.perfCtrl) 0xFFFF0131 = s.dev.reg A.perfCtrl →
    Does .perfClear s fun e =>
      (∀ k, (Tbl.look {} e.meas.perf k).val = 0)
      ∧ (∀ k p, Tbl.look {} s.dev.meas.perf k = p → p.snap ≠ 0 → Tbl.look {} e.meas.perf k = { p with val := 0 })
      ∧ (∀ a, e.reg a = s.dev.reg a) ∧ Only [.regs, .meas] s.dev e)
  ∧ (∀ (s : State) (high : Bool),
    Does (.perfFreezePin high) s fun e =>
      let rise := high && !s.dev.pins.perfFreeze && s.dev.regFld A.perfCtrl 4 2 == 2 && s.dev.domOn 23
      e.pins = { s.dev.pins with perfFreeze := high } ∧ (rise = false → Only [.pins] s.dev e)
      ∧ (rise = true → s.dev.meas.busy = false → e.meas.busy = true ∧ e.ctr A.perfSnapTick = s.dev.time.tick % 2 ^ 64)
      ∧ Only [.pins, .regs, .ctrs, .meas] s.dev e)
  ∧ (∀ s : State, s.dev.meas.busy = true →
    Does .perfSnapDone s fun e =>
      e.meas.busy = false ∧ e.reg A.perfSnapSeq = (s.dev.reg A.perfSnapSeq + 1) % 2 ^ 32 ∧ bit (e.reg A.perfCause) 0 = true
      ∧ (∀ k p, Tbl.look {} s.dev.meas.perf k = p → p.val ≠ 0 → Tbl.look {} e.meas.perf k = { p with snap := p.shadow, shadow := 0 })
      ∧ Only [.meas, .regs, .funcs, .out, .data, .ctrs] s.dev e)
  ∧ (∀ (s : State) (m t : Nat), m < 32 → s.dev.domOn 23 = true → bit (s.dev.reg (A.bwCfg m)) 12 = true →
    let w := Tbl.look {} s.dev.meas.bw m
    let ends := t + 1000 * min 1000000 (max 1 (s.dev.reg (A.bwWin m)))
    w.winFrom = some t → ends ≤ s.dev.time.nextAt →
    Does (.bwWindowEnd m) s fun e =>
      e.ctr (A.bwBytes m) = w.curBytes % 2 ^ 64 ∧ e.reg (A.bwFrames m) = w.curFrames % 2 ^ 32
      ∧ e.ctr (A.bwPeak m) = max w.curBytes (s.dev.ctr (A.bwPeak m)) % 2 ^ 64
      ∧ Tbl.look {} e.meas.bw m = { winFrom := some ends } ∧ (∀ k, k ≠ m → Tbl.look {} e.meas.bw k = Tbl.look {} s.dev.meas.bw k)
      ∧ Only [.time, .draws, .regs, .ctrs, .meas, .funcs, .out] s.dev e)
  ∧ (∀ (s : State) (k outcome : Nat) (t : Trace), k < 16 → Tbl.get? s.dev.meas.slots k = some t →
    (t.ended = some outcome ∨ t.ended = none ∧ outcome = 3 ∧ t.at' + 1000000000 ≤ s.dev.uptimeNs) →
    Does (.traceSlotClose k) s fun e =>
      Tbl.get? e.meas.slots k = none ∧ (∀ j, j ≠ k → Tbl.get? e.meas.slots j = Tbl.get? s.dev.meas.slots j)
      ∧ (s.dev.dmaRunning 0x12 ≠ [] → (Tbl.look [] e.data.units 0x12).getLast? = some (Trace.record t outcome))
      ∧ (s.dev.dmaRunning 0x12 = [] → e.ctr A.traceLost = (s.dev.ctr A.traceLost + 1) % 2 ^ 64)
      ∧ Only [.meas, .pon, .data, .ctrs, .redch] s.dev e)
  ∧ (∀ (s : State) (f : Nat), f < 64 → Reaches s.dev f (cwOff f 0) →
    Does (.cwSnap f) s fun e =>
      (s.dev.cwGranted f = true → (s.dev.fn f).cw.busy = false →
        e.fn f = { s.dev.fn f with cw := { (s.dev.fn f).cw with busy := true, captured := false } })
      ∧ (s.dev.cwGranted f = false ∨ (s.dev.fn f).cw.busy = true → e = s.dev)
      ∧ (∀ g, g ≠ f → e.fn g = s.dev.fn g) ∧ Only [.funcs] s.dev e)
  ∧ ∀ (s : State) (f : Nat), f < 64 → (s.dev.fn f).cw.busy = true → (s.dev.fn f).cw.captured = true → s.dev.cwOpen f = true →
    Does (.cwReady f) s fun e =>
      (e.fn f).cw = { (s.dev.fn f).cw with busy := false, captured := false, ready := true }
      ∧ (∀ g, g ≠ f → e.fn g = s.dev.fn g) ∧ Only [.funcs, .out] s.dev e

/-! ## Protection -/

/-- R151, R446, R453, R454, Table 6-18: the redundancy group; RED_SWITCH chooses the first tick at least 50 µs ahead, sends its SWITCH
record and answers when the switch has ended. -/
def Obligations.RedundancyCommandsAnswer : Prop :=
  Answers .redConfig cmdRedConfig [.red] (fun _ _ => [])
    (fun d m e => e.red = { d.red with pairId := leAt m.payload 0 4, enable := leAt m.payload 4 1 == 1 })
  ∧ Answers .redGet cmdRedGet []
    (fun d _ => [BitVec.ofNat 8 (Role.code d.red.role)] ++ le 1 d.peerCode ++ [0, 0, 2, 1] ++ le 2 d.mir.peerVer ++ le 4 (d.reg A.redSwitches))
    (fun _ _ _ => True)
  ∧ Answers .redPairKey cmdRedPairKey [.red] (fun _ _ => [])
    (fun d m e => ∃ tk key, (d.fn m.func).tk = some tk ∧ keyUnwrap tk (slice m.payload 4 40) = some key
      ∧ e.red = { d.red with pairKey := some key })
  ∧ Answers .redResync cmdRedResync [.pon, .data, .red, .mir, .redch, .ctrs, .pav] (fun _ _ => [])
    (fun d _ e =>
      e.pon.chans = [] ∧ e.pon.trees = [] ∧ e.pon.onus = [] ∧ e.pon.allocs = [] ∧ e.pon.flows = [] ∧ e.red.role = .syncing
      ∧ (d.mir.up = true → d.mir.version ≠ 0 → d.red.flag = false → ∃ n, .record n .request ∈ e.out))
  ∧ ∀ (s : State) (m : Msg), Passes cmdRedSwitch m s.dev → s.dev.time.now ≤ s.dev.time.nextAt →
    Does (.redSwitch m) s fun e =>
      ∃ (k : Nat) (r : Req), r.func = m.func ∧ r.op = 0x0A03 ∧ r.seq = m.seq ∧ e.red = { s.dev.red with planned := some (some r, k, false, false) }
        ∧ s.dev.time.now + 50000 ≤ s.dev.t0Of k ∧ (k ≠ s.dev.time.nextTick → s.dev.t0Of (k - 1) < s.dev.time.now + 50000)
        ∧ .record s.dev.mir.nextTx (.switch k) ∈ e.out
        ∧ (e.kiosk m.func).executing.map (fun r => (r.op, r.seq)) = some (0x0A03, m.seq)
        ∧ (∀ f, (e.kiosk f).rspTail = (s.dev.kiosk f).rspTail) ∧ Only [.funcs, .out, .round, .red, .mir, .ctrs] s.dev e

/-- R435 to R450, R455, R460, Tables 18-3 to 18-8: heartbeats are sent and judged; the loss of the partner, its flag, ARB_GRANT, a claim,
the watch and a planned switch move the role; a standby measures its skew, holds frames for their census and receives in listen mode. -/
def Obligations.ProtectionRuns : Prop :=
  (∀ s : State, s.dev.red.role ≠ .alone → s.dev.red.sentAt + 1000 ≤ s.dev.time.nextAt →
    let t := max s.dev.time.now (s.dev.red.sentAt + 1000)
    Does .heartbeatSend s fun e =>
      e.red = { s.dev.red with sentAt := t } ∧ e.time.now = t
      ∧ (s.dev.red.flag = false → .heartbeat (if s.dev.red.role = .active then 200 else 100) ∈ e.out)
      ∧ (s.dev.red.flag = true → t ≤ s.dev.red.flagAt + 10000 → .heartbeat 400 ∈ e.out)
      ∧ Only [.red, .time, .draws, .regs, .meas, .funcs, .out] s.dev e)
  ∧ (∀ (s : State) (width flags : Nat) (phase : Int), flags < 16 → s.dev.red.role ≠ .alone →
    Does (.heartbeatRx 0 width flags phase) s fun e =>
      (75 ≤ width ∧ width ≤ 125 → e.red = {
          s.dev.red with lvdsAt := some (s.dev.time.now - width), peer := if s.dev.red.peer = 3 then 3 else 2, failedPeer := false, tookOver := false }
        ∧ Only [.red, .ctrs] s.dev e)
      ∧ (175 ≤ width ∧ width ≤ 225 → s.dev.red.role = .active → s.dev.red.tookOver = false →
        e.red.role = .syncing ∧ e.red.lastCause = 4 ∧ (∀ c ∈ e.pon.chans, c.2.state ≠ .off → (e.chan c.1).muted = true))
      ∧ (375 ≤ width ∧ width ≤ 425 → s.dev.red.failedPeer = false → bit (e.reg A.redCause) 3 = true ∧ e.red.failedPeer = true
        ∧ (s.dev.red.role = .ready → e.red.role = .active ∧ e.red.lastCause = 2 ∧ e.red.tookOver = true)
        ∧ (s.dev.red.role = .active → e.red.role = .active ∧ e.red.watch = s.dev.red.watch))
      ∧ (width < 75 ∨ 125 < width ∧ width < 175 ∨ 225 < width ∧ width < 375 ∨ 425 < width → e = s.dev))
  ∧ (∀ (s : State) (flags : Nat) (phase : Int), flags < 16 → flags % 8 = 2 ∨ flags % 8 = 3 → s.dev.red.role ≠ .alone → s.dev.domOn 22 = true →
    Does (.heartbeatRx 1 0 flags phase) s fun e =>
      e.red.mirAt = some s.dev.time.now ∧ e.red.peer = flags % 4 ∧ e.red.failedPeer = false
      ∧ (bit flags 3 = true → e.reg A.redPhase = field 32 phase ∧ (400 < phase.natAbs → bit (e.reg A.redCause) 4 = true))
      ∧ (bit flags 3 = true → 400 < phase.natAbs → s.dev.red.role = .ready → e.red.role = .syncing ∧ e.red.lastCause = 9)
      ∧ (bit flags 3 = false ∨ phase.natAbs ≤ 400 → e.red.role = s.dev.red.role ∧ Only [.red, .ctrs, .regs] s.dev e))
  ∧ (∀ (s : State) (path t : Nat), path < 2 → (if path = 0 then s.dev.red.lvdsAt else s.dev.red.mirAt) = some t → t + 3250 ≤ s.dev.time.nextAt →
    let other := if path = 0 then s.dev.red.mirAt else s.dev.red.lvdsAt
    let miss := if path = 0 then A.redLvdsMiss else A.redMirMiss
    Does (.heartbeatPathLoss path) s fun e =>
      (if path = 0 then e.red.lvdsAt else e.red.mirAt) = none ∧ e.ctr miss = (s.dev.ctr miss + 3) % 2 ^ 64
      ∧ bit (e.reg A.redCause) (if path = 0 then 1 else 2) = true
      ∧ (other.isSome = true → e.red.role = s.dev.red.role ∧ Only [.red, .ctrs, .regs, .time, .draws, .meas, .funcs, .out] s.dev e)
      ∧ (other = none → s.dev.red.failedPeer = false →
        e.red.failedPeer = true ∧ e.red.peer = 4
        ∧ (s.dev.red.role = .ready → e.red.role = .active ∧ e.red.lastCause = 1 ∧ e.red.tookOver = true)
        ∧ (s.dev.red.role = .active → e.red.role = .active ∧ e.red.lastCause = 6 ∧ e.red.watch.isSome = true)))
  ∧ (∀ s : State, s.dev.red.flag = true → s.dev.red.flagStops = false → s.dev.red.flagWait = 0 →
    s.dev.red.flagAt + 10000 ≤ s.dev.time.nextAt →
    Does .failureFlagEnd s fun e =>
      e.red = { s.dev.red with flag := false, since := max s.dev.time.now (s.dev.red.flagAt + 10000) }
      ∧ Only [.red, .mir, .ctrs, .time, .draws, .regs, .meas, .funcs, .out] s.dev e)
  ∧ (∀ (s : State) (high : Bool),
    let takes := high = true ∧ s.dev.red.role = .syncing ∧ s.dev.red.failedPeer = true ∧ s.dev.red.flag = false
    Does (.arbGrantChange high) s fun e =>
      e.pins = { s.dev.pins with arbGrant := high } ∧ (¬ takes → Only [.pins] s.dev e)
      ∧ (takes → e.red.role = .active ∧ e.red.lastCause = 0xA ∧ e.red.tookOver = true))
  ∧ (∀ s : State, s.dev.red.role = .syncing → s.dev.pins.arbGrant = true → s.dev.red.flag = false → s.dev.boot.devReady = true →
    max s.dev.red.since (s.dev.red.claimAt.getD 0) + 10000 ≤ s.dev.time.nextAt →
    Does .formation s fun e =>
      e.red.role = .active ∧ e.red.lastCause = 0 ∧ e.red.tookOver = s.dev.red.tookOver
      ∧ (∀ c ∈ e.pon.chans, c.2.state ≠ .off → (e.chan c.1).muted = false))
  ∧ (∀ (s : State) (energy : Bool) (t : Nat), s.dev.red.watch = some t → t ≤ s.dev.time.nextAt →
    let stays := if s.dev.boot.strapRole = 1 then !energy else s.dev.pins.arbGrant
    Does (.watchEnd energy) s fun e =>
      e.red.watch = none ∧ (stays = true → e.red.role = .active ∧ e.red.lastCause = 7 ∧ e.time.now = max s.dev.time.now s.dev.time.nextAt)
      ∧ (stays = false → e.red.role = .syncing ∧ e.red.lastCause = 6))
  ∧ (∀ (s : State) (a b c t : Bool), s.dev.red.role = .syncing → s.dev.red.flag = false → s.dev.readyNow a b c t = true →
    Does (.standbyReadyEntry a b c t) s fun e =>
      e.red = { s.dev.red with role := .ready, lastCause := 8, since := s.dev.time.now } ∧ e.pon = s.dev.pon
      ∧ Only [.red, .regs, .funcs, .out, .pav, .ctrs, .data] s.dev e)
  ∧ (∀ (s : State) (c : Nat), c < 512 → s.dev.red.role = .ready → (s.dev.redCh c).diverged = true →
    (s.dev.redCh c).divergedAt + 1000000 ≤ s.dev.time.nextAt →
    Does (.divergedTimeout c) s fun e => e.red.role = .syncing ∧ e.red.lastCause = 9 ∧ e.redch = s.dev.redch)
  ∧ (∀ (s : State) (req : Option Req) (k : Nat), s.dev.red.planned = some (req, k, true, false) → s.dev.t0Of k - 300 ≤ s.dev.time.nextAt →
    Does .plannedSwitchEdge s fun e =>
      e.red = { s.dev.red with planned := some (req, k, true, true) }
      ∧ ∀ c ∈ e.pon.chans, c.2.state ≠ .off → (e.chan c.1).muted = (s.dev.red.role == .active))
  ∧ (∀ (s : State) (req : Option Req) (k : Nat) (acked : Bool), s.dev.red.planned = some (req, k, acked, true) →
    s.dev.t0Of k ≤ s.dev.time.nextAt →
    Does .plannedSwitchEdge s fun e =>
      e.red.planned = none ∧ e.red.lastCause = 3
      ∧ e.red.role = (if s.dev.red.role = .active then .syncing else .active)
      ∧ (∀ r, s.dev.red.role = .active → req = some r → s.dev.awaits r → .response r.func r.op r.seq 0 0 [] ∈ e.out))
  ∧ (∀ (s : State) (c : Nat) (offset : Int), c < 512 → s.dev.standby = true → (s.dev.chan c).state = .service → s.dev.chanUp c = true →
    Does (.timingSampleRx c offset) s fun e =>
      let l := (offset :: (s.dev.redCh c).samples).take 16
      e.redCh c = { s.dev.redCh c with samples := l } ∧ (∀ k, k ≠ c → e.redCh k = s.dev.redCh k)
      ∧ (l.length < 16 → e.regs = s.dev.regs)
      ∧ (l.length = 16 → ∃ v : Int, e.reg (A.redChSkew c) = field 32 v ∧ (16 * v - l.sum).natAbs ≤ 8)
      ∧ Only [.redch, .regs, .draws] s.dev e)
  ∧ (∀ (s : State) (c mf count crc : Nat), c < 512 → s.dev.red.role = .ready → s.dev.chanUp c = true →
    let own := s.dev.censusOf c mf
    Does (.censusRx c mf count crc) s fun e =>
      (∀ h ∈ (e.redCh c).heldF, h.1 ≠ mf)
      ∧ (own.length = count → censusCrc own = crc →
        (e.redCh c).diverged = false ∧ e.ctr (A.redCensusOk c) = (s.dev.ctr (A.redCensusOk c) + 1) % 2 ^ 64)
      ∧ (own.length ≠ count ∨ censusCrc own ≠ crc →
        (e.redCh c).diverged = true ∧ e.ctr (A.redDiverge c) = (s.dev.ctr (A.redDiverge c) + 1) % 2 ^ 64 ∧ bit (e.reg A.redCause) 5 = true
        ∧ .record s.dev.mir.nextTx (.snapRequest c) ∈ e.out))
  ∧ (∀ (s : State) (c mf : Nat) (l : List Pkt) (rest : List (Nat × List Pkt)), c < 512 → s.dev.red.role = .ready →
    (s.dev.redCh c).heldF = (mf, l) :: rest → (∀ h ∈ rest, h.1 ≠ mf) →
    s.dev.posClock c ((mf + 1) * mfBlocks (s.dev.chan c).usRate) + 23438 ≤ s.dev.time.nextAt →
    Does (.censusTimeout c) s fun e =>
      (e.redCh c).heldF = rest ∧ e.ctr (A.redHoldDrop c) = (s.dev.ctr (A.redHoldDrop c) + l.length) % 2 ^ 64
      ∧ (∀ k, k ≠ c → e.redCh k = s.dev.redCh k) ∧ e.pon = s.dev.pon ∧ e.red = s.dev.red)
  ∧ (∀ (s : State) (c onu mf : Nat), c < 512 → onu < 65536 → s.dev.rxRuns c = true → s.dev.listens c mf = true →
    Does (.listenModeBurst c onu mf false) s fun e =>
      e.ctr (A.redListenFail c) = (s.dev.ctr (A.redListenFail c) + 1) % 2 ^ 64 ∧ Only [.ctrs] s.dev e)
  ∧ (∀ (s : State) (c onu mf : Nat), c < 512 → onu < 65536 → s.dev.rxRuns c = true → s.dev.listens c mf = true →
    (s.dev.onu onu).state ≠ .absent → (s.dev.recv c).openF = none →
    Does (.listenModeBurst c onu mf true) s fun e =>
      e.ctr (A.usBursts c) = (s.dev.ctr (A.usBursts c) + 1) % 2 ^ 64 ∧ (e.recv c).burst = some (onu, mf, 0, none)
      ∧ (e.onu onu).acc.bursts = (s.dev.onu onu).acc.bursts + 1 ∧ (∀ k, k ≠ onu → e.onu k = s.dev.onu k)
      ∧ (∀ k, k ≠ c → e.recv k = s.dev.recv k) ∧ Only [.pon, .ctrs, .regs, .meas, .funcs, .out] s.dev e)
  ∧ ∀ s : State,
    Does .belvedereStateUncorrectable s fun e =>
      (s.dev.red.role ≠ .alone → e.red.flag = true) ∧ (s.dev.red.role ≠ .alone → s.dev.red.flag = false → e.red.role = .syncing ∧ e.red.lastCause = 5)
      ∧ e.red.lvdsAt = none ∧ e.red.mirAt = none ∧ e.red.peer = 4 ∧ e.red.failedPeer = false
      ∧ e.mir = { up := s.dev.mir.up, deskewed := s.dev.mir.deskewed, lock := s.dev.mir.lock, version := s.dev.mir.version,
                  peerVer := s.dev.mir.peerVer, peerPair := s.dev.mir.peerPair }

/-- R446, R450 to R458, Tables 18-10 and 18-11: the mirror link comes up and goes; records arrive in order, are acknowledged and applied;
a mirrored command is answered when its record is acknowledged, and without the partner after 200 µs; unacknowledged records are replayed. -/
def Obligations.MirrorLinkRuns : Prop :=
  (∀ (s : State) (pair low high map : Nat), low < 65536 → high < 65536 → s.dev.red.role ≠ .alone → s.dev.domOn 22 = true → s.dev.mir.up = false →
    Does (.mirrorLinkUp pair low high map) s fun e =>
      e.mir.up = true ∧ e.mir.version = mirrorVersion low high ∧ e.mir.peerVer = high ∧ e.mir.peerPair = pair % 2 ^ 32
      ∧ e.reg A.mirLaneMap = map % 2 ^ 32
      ∧ (s.dev.red.role = .syncing → s.dev.red.flag = false → mirrorVersion low high ≠ 0 →
        e.mir.copying = true ∧ .record s.dev.mir.nextTx .request ∈ e.out)
      ∧ e.red = s.dev.red ∧ Only [.mir, .regs, .ctrs, .out] s.dev e)
  ∧ (∀ (s : State) (lock : Nat), lock < 256 → s.dev.mir.up = true →
    Does (.mirrorLinkDown lock) s fun e =>
      e.mir.up = false ∧ e.mir.lock = lock ∧ e.mir.version = 0
      ∧ (s.dev.red.role = .ready → e.red.role = .syncing ∧ e.red.lastCause = 9)
      ∧ (s.dev.red.role ≠ .ready → Only [.mir] s.dev e))
  ∧ (∀ (s : State) (n : Nat) (ok : Bool) (r : Rec), s.dev.mir.up = true → s.dev.mir.version ≠ 0 → s.dev.domOn 22 = true →
    (ok = false ∨ n ≠ s.dev.mir.nextRx) →
    Does (.mirrorRecordRx n ok r) s fun e =>
      (ok = false → e.ctr A.mirCrc = (s.dev.ctr A.mirCrc + 1) % 2 ^ 64 ∧ Only [.ctrs] s.dev e)
      ∧ (ok = true → .ack ((s.dev.mir.nextRx + 2 ^ 32 - 1) % 2 ^ 32) ∈ e.out ∧ Only [.out] s.dev e))
  ∧ (∀ (s : State) (f c v : Nat) (x : Flow), s.dev.mir.up = true → s.dev.mir.version ≠ 0 → s.dev.domOn 22 = true → s.dev.standby = true →
    s.dev.flow? f = some x →
    Does (.mirrorRecordRx s.dev.mir.nextRx true (.snapshot c [(f, v)])) s fun e =>
      e.flow? f = some { x with rseq := BitVec.ofNat 16 v } ∧ (∀ g, g ≠ f → e.flow? g = s.dev.flow? g)
      ∧ e.mir = { s.dev.mir with nextRx := (s.dev.mir.nextRx + 1) % 2 ^ 32 } ∧ .ack s.dev.mir.nextRx ∈ e.out
      ∧ Only [.mir, .ctrs, .out, .pon] s.dev e)
  ∧ (∀ s : State, s.dev.mir.up = true → s.dev.mir.version ≠ 0 → s.dev.domOn 22 = true → s.dev.red.role = .active →
    Does (.mirrorRecordRx s.dev.mir.nextRx true .request) s fun e =>
      e.mir.bulk = true ∧ e.mir.stopped = false ∧ (∃ n, .record n .bulkDone ∈ e.out)
      ∧ (∀ o ∈ s.dev.pon.onus, ∃ n, .record n (.entry o.1 (Onu.fields o.2)) ∈ e.out) ∧ Only [.mir, .ctrs, .out] s.dev e)
  ∧ (∀ (s : State) (m : Msg), Passes cmdOnuDiscLimit m s.dev → s.dev.mirroring = true →
    Does (.onuDiscLimit m) s fun e =>
      ∃ r : Req, r.func = m.func ∧ r.op = 0x0307 ∧ r.seq = m.seq ∧ r.body = m.payload
        ∧ e.mir.waiting = s.dev.mir.waiting ++ [(s.dev.mir.nextTx, r, 0, 0, [])]
        ∧ .record s.dev.mir.nextTx (.command 0x0307 r.args m.payload) ∈ e.out
        ∧ (e.kiosk m.func).executing.map (fun r => (r.op, r.seq)) = some (0x0307, m.seq))
  ∧ (∀ (s : State) (n t : Nat) (rec : Rec) (rest : List (Nat × Rec × Nat)) (r : Req) (payload : Bytes), s.dev.mir.up = true →
    s.dev.mir.store = (n, rec, t) :: rest → (∀ x, rec ≠ .switch x) → s.dev.mir.waiting = [(n, r, 0, 0, payload)] → s.dev.awaits r →
    s.dev.awaiting [n] = [] →
    Does (.mirrorAckRx n) s fun e =>
      e.out.head? = some (.response r.func r.op r.seq 0 0 payload) ∧ e.mir.store = rest ∧ e.mir.waiting = []
      ∧ Only [.mir, .funcs, .out] s.dev e)
  ∧ (∀ s : State, s.dev.mir.up = true → s.dev.mir.version ≠ 0 → s.dev.mir.store ≠ [] → s.dev.mir.ackAt + 20000 ≤ s.dev.time.nextAt →
    Does .mirrorReplayTimeout s fun e =>
      (∀ x ∈ s.dev.mir.store, .record x.1 x.2.1 ∈ e.out) ∧ e.ctr A.mirReplay = (s.dev.ctr A.mirReplay + 1) % 2 ^ 64
      ∧ e.mir = { s.dev.mir with ackAt := max s.dev.time.now (s.dev.mir.ackAt + 20000) }
      ∧ Only [.mir, .ctrs, .time, .draws, .regs, .meas, .funcs, .out] s.dev e)
  ∧ (∀ (s : State) (n sent : Nat) (rec : Rec), s.dev.red.role = .active → s.dev.mir.stopped = false →
    (s.dev.mir.store.find? fun e => Rec.awaited e.2.1) = some (n, rec, sent) → sent + 200000 ≤ s.dev.time.nextAt →
    Does .mirrorAckTimeout s fun e =>
      e.mir.stopped = true ∧ (∀ w ∈ e.mir.waiting, w.1 ∉ s.dev.mir.store.map Prod.fst) ∧ (∃ k, .record k .demote ∈ e.out)
      ∧ e.red.peer = (if s.dev.red.peer = 3 then 2 else s.dev.red.peer) ∧ e.red.role = .active ∧ e.red.planned = none)
  ∧ (∀ s : State, s.dev.mir.copying = true → s.dev.standby = true → s.dev.mir.later = [] →
    Does .bulkCopyDone s fun e =>
      e.mir = { s.dev.mir with bulk := true, copying := false } ∧ (∀ c, c ∈ Tbl.keys e.redch → (e.redCh c).diverged = false)
      ∧ Only [.mir, .redch] s.dev e)
  ∧ ∀ (s : State) (tick : Nat), s.dev.mir.up = true → s.dev.mir.version ≠ 0 → s.dev.domOn 22 = true → s.dev.red.role = .ready →
    Does (.switchRecordRx s.dev.mir.nextRx tick) s fun e =>
      e.red = { s.dev.red with planned := some (none, tick, true, false) } ∧ .ack s.dev.mir.nextRx ∈ e.out
      ∧ e.mir = { s.dev.mir with nextRx := (s.dev.mir.nextRx + 1) % 2 ^ 32 } ∧ e.ctr A.mirRx = (s.dev.ctr A.mirRx + 1) % 2 ^ 64
      ∧ Only [.red, .mir, .ctrs, .out] s.dev e

/-! ## Management -/

/-- R153, R154, R504 to R516, Tables 6-20 and 6-21: the reflectometry, sensor, log and update commands. -/
def Obligations.ManagementCommandsAnswer : Prop :=
  Answers .otdrStart cmdOtdrStart [.otdr] (fun _ _ => [])
    (fun d m e =>
      let t := leAt m.payload 0 2
      let o := d.otdrOf t
      e.otdrOf t = { ordered := some (leAt m.payload 2 2, leAt m.payload 4 2), channel := (d.treeChans t).headD 0, role := d.red.role,
                     restarts := d.pav.begun, prior := o.prior || o.valid, prev := if o.valid then o.events else o.prev }
      ∧ ∀ u, u ≠ t → e.otdrOf u = d.otdrOf u)
  ∧ Answers .otdrStatus cmdOtdrStatus []
    (fun d m =>
      let t := leAt m.payload 0 2
      le 1 (nb (d.otdrBusy t)) ++ [0, 0, 0] ++ le 2 (min 0xFFFF (d.otdrOf t).done) ++ le 2 (d.otdrOf t).count)
    (fun _ _ _ => True)
  ∧ Answers .otdrRead cmdOtdrRead []
    (fun d m =>
      let l := ((d.otdrOf (leAt m.payload 0 2)).events.drop (leAt m.payload 2 2)).take 253
      le 2 l.length ++ [0, 0] ++ l.flatMap fun e => le 4 e.1 ++ le 2 e.2.1 ++ le 2 e.2.2)
    (fun _ _ _ => True)
  ∧ Answers .sensorRead cmdSensorRead []
    (fun d m => (List.range 16).flatMap fun i => le 2 (Tbl.look 0x8000 d.pav.temps (16 * leAt m.payload 0 1 + i)))
    (fun _ _ _ => True)
  ∧ Answers .logRead cmdLogRead []
    (fun d m =>
      let first := leAt m.payload 0 4
      let l := (d.logHeld.filter fun e => decide (0 ≤ logDiff e.index first)).take (min 31 (leAt m.payload 4 2))
      if 0 ≤ logDiff first d.pav.logNext then [0, 0, 0, 0] ++ le 4 d.pav.logNext
      else le 2 l.length ++ [0, 0] ++ le 4 ((l.getLast?.map fun e => e.index + 1).getD first) ++ l.flatMap LogEntry.bytes)
    (fun _ _ _ => True)
  ∧ Answers .updBegin cmdUpdBegin [.upd, .pav, .ctrs, .data] (fun d _ => le 1 (1 - d.boot.slot) ++ [0, 0, 0])
    (fun d m e => e.upd = { state := .receiving, result := 0, slot := 1 - d.boot.slot, len := leAt m.payload 0 4, received := 0,
                            activate := false, written := false })
  ∧ (∀ (s : State) (m : Msg), Passes cmdUpdWrite m s.dev →
    let n := leAt m.payload 4 2
    Does (.updWrite m) s fun e =>
      (s.dev.upd.received + n ≤ 0x100000 ∨ Answered m 0x0D03 [] e →
        Answered m 0x0D03 [] e ∧ e.upd = { s.dev.upd with received := s.dev.upd.received + n }
        ∧ .flashWrite (if s.dev.upd.slot = 0 then "SLOT A" else "SLOT B") (m.payload.drop 8) ∈ e.out)
      ∧ (Answered m 0x0D03 [] e ∨ e.out.head? = some (.response m.func 0x0D03 m.seq 0x000C 0 []) ∧ e.upd = s.dev.upd)
      ∧ Only (served [.upd]) s.dev e)
  ∧ Answers .updCommit cmdUpdCommit [.upd, .pav, .ctrs, .data] (fun _ _ => [])
    (fun d m e =>
      let go := leAt m.payload 0 1 == 1
      (d.upd.state = .receiving → e.upd = { d.upd with activate := go, state := .verifying })
      ∧ (d.upd.state = .verified → e.upd = if go then { d.upd with state := .activating } else d.upd))
  ∧ Answers .updStatus cmdUpdStatus []
    (fun d _ => le 1 (UpdState.code d.upd.state) ++ le 1 d.upd.result ++ [0, 0] ++ le 4 d.upd.received)
    (fun _ _ _ => True)
  ∧ Answers .updRollback cmdUpdRollback [.upd, .pav, .ctrs, .data] (fun _ _ => [])
    (fun d _ e => e.upd = { d.upd with slot := 1 - d.boot.slot, written := false, state := .activating })

/-- R125, R126, R501 to R521, R537 to R539, Table 5-12: restarts and failure of the firmware, the sample of the sensors with its thermal
limits, the log's flush, verification and activation of an update, the end of a reflectometry run, and the check of a pin. -/
def Obligations.PavilionRuns : Prop :=
  (∀ (s : State) (temps : List Nat) (rails : List (Nat × Nat)), s.dev.boot.pd00 = true → s.dev.pav.sampleAt + 1000000 ≤ s.dev.time.nextAt →
    Does (.sensorSample temps rails) s fun e =>
      (∀ k < 112, Tbl.look 0x8000 e.pav.temps k = nth 0x8000 temps k % 65536)
      ∧ (∀ n < 18, Tbl.look (0, 0) e.pav.rails n = nth (0, 0) rails n)
      ∧ e.pav.sampleAt = max s.dev.time.now (s.dev.pav.sampleAt + 1000000)
      ∧ (∀ n < 7, ∀ i < 16, isStack (16 * n + i) = false → nth 0x8000 temps (16 * n + i) % 65536 ≠ 0x8000 →
        1050 ≤ signed 16 (nth 0x8000 temps (16 * n + i) % 65536) → bit e.pav.throttleNext n = true)
      ∧ (∀ k < 112, (k / 16, k % 16) ∈ s.dev.pav.tripNear → nth 0x8000 temps k % 65536 ≠ 0x8000 →
        (if isStack k then 1050 else 1180) ≤ signed 16 (nth 0x8000 temps k % 65536) → e.pav.tripped = true))
  ∧ (∀ (s : State) (n t : Nat), n < 7 → Tbl.get? s.dev.pav.cool n = some t → bit s.dev.pav.throttleNext n = true →
    s.dev.upClock (t + 1000000000) ≤ s.dev.time.nextAt →
    Does (.throttleExit n) s fun e =>
      e.pav = { s.dev.pav with throttleNext := withBit s.dev.pav.throttleNext n false }
      ∧ Only [.pav, .time, .draws, .regs, .meas, .funcs, .out] s.dev e)
  ∧ (∀ (s : State) (i t : Nat), i < 4 → Tbl.get? s.dev.pav.hbmCool i = some t → bit s.dev.pav.hbmHot i = true →
    s.dev.upClock (t + 1000000000) ≤ s.dev.time.nextAt → s.dev.data.buf.placing.length = 4 →
    Does (.hbmHotExit i) s fun e =>
      e.pav = { s.dev.pav with hbmHot := withBit s.dev.pav.hbmHot i false }
      ∧ nth false e.data.buf.placing i
        = (nth false s.dev.data.buf.placing i || s.dev.domOn (16 + i) && (Tbl.get? s.dev.data.buf.draining i).isNone)
      ∧ Only [.pav, .data, .time, .draws, .regs, .meas, .funcs, .out] s.dev e)
  ∧ (∀ s : State, s.dev.pavRuns = true →
    Does .lockstepMismatch s fun e =>
      e.pav.lockstep = false ∧ e.pav.restarting = true ∧ e.pav.unplanned = true ∧ bit (e.reg A.pavCause) 1 = true
      ∧ (s.dev.red.role ≠ .alone → e.red.flag = true ∧ bit e.red.flagWait 0 = true)
      ∧ ∀ f < 64, (e.kiosk f).ready = false ∧ (e.kiosk f).restarting = true)
  ∧ (∀ s : State, s.dev.pavRuns = true → s.dev.pav.restarting = false →
    Does .watchdogExpiry s fun e =>
      e.pav.restarting = true ∧ e.pav.unplanned = true ∧ e.pav.restartAt = s.dev.time.uptime
      ∧ (∀ f < 64, (e.kiosk f).ready = false ∧ (e.kiosk f).restarting = true ∧ bit (e.kiosk f).cause.toNat 3 = true)
      ∧ (∀ f, (s.dev.kiosk f).executing.isSome = true → (e.kiosk f).interrupted = true)
      ∧ Only [.pav, .funcs, .draws, .pon, .data, .regs, .ctrs, .out] s.dev e)
  ∧ (∀ (s : State) (l : List Nat), s.dev.pavRuns = true → (∀ f ∈ l, f < 64) →
    Does (.pavilionSramUncorrectable 1 l) s fun e =>
      (∀ f ∈ l, e.kiosk f = { s.dev.kiosk f with level := 0, mask := 0 }) ∧ (∀ f, f ∉ l → e.kiosk f = s.dev.kiosk f) ∧ Only [.funcs] s.dev e)
  ∧ (∀ (s : State) (l : List Nat), s.dev.pavRuns = true → s.dev.pav.restarting = false → (∀ f ∈ l, f < 64) →
    Does (.pavilionSramUncorrectable 0 l) s fun e =>
      e.pav.restarting = true ∧ e.pav.unplanned = true ∧ ∀ f < 64, (e.kiosk f).ready = false ∧ (e.kiosk f).restarting = true)
  ∧ (∀ s : State, s.dev.pavRuns = true → s.dev.pav.ordered = true → s.dev.pav.restarting = false →
    (∀ x ∈ s.dev.funcs, x.2.kiosk.executing = none) →
    Does .plannedRestart s fun e =>
      e.pav.restarting = true ∧ e.pav.unplanned = false ∧ e.pav.ordered = false
      ∧ (∀ f < 64, (e.kiosk f).ready = false ∧ (e.kiosk f).restarting = true ∧ (e.kiosk f).level = (s.dev.kiosk f).level)
      ∧ Only [.pav, .funcs, .data, .regs, .ctrs, .out] s.dev e)
  ∧ (∀ (s : State) (result fw image : Nat), 1 ≤ result → result < 8 → s.dev.pavRuns = true → s.dev.pav.restarting = true →
    s.dev.restartLate = false → s.dev.restartThree = false →
    Does (.restartComplete result fw image) s fun e =>
      e.pav.restarting = false ∧ e.pav.lockstep = true ∧ e.pav.restarts = s.dev.pav.restarts + 1
      ∧ (∀ f < 64, (e.kiosk f).ready = true ∧ (e.kiosk f).restarting = false)
      ∧ (∀ f r, (s.dev.kiosk f).executing = some r → (s.dev.kiosk f).interrupted = true → (s.dev.kiosk f).discard = false →
        .response f r.op r.seq 0x000D 0 [] ∈ e.out)
      ∧ (s.dev.upd.written = true → s.dev.pav.unplanned = false → result = 1 →
        e.boot.slot = s.dev.upd.slot ∧ e.upd.state = .idle ∧ e.upd.result = 1 ∧ e.image.fwIfVer = fw % 2 ^ 32))
  ∧ (∀ s : State, s.dev.pavRuns = true → s.dev.pav.restarting = true →
    (s.dev.restartThree = true ∨ s.dev.upClock (s.dev.pav.restartAt + 2000000000) ≤ s.dev.time.nextAt) →
    Does .pavilionFailed s fun e =>
      e.pav.failed = true ∧ e.boot.devReady = false
      ∧ (s.dev.red.role ≠ .alone → e.red.flag = true ∧ e.red.flagStops = true))
  ∧ (∀ (s : State) (ok : Bool), s.dev.pav.toFlash ≠ [] → s.dev.fwServes = true → s.dev.pav.flashAfter ≤ s.dev.time.uptime →
    Does (.logFlashFlush ok) s fun e =>
      (ok = true → e.pav.toFlash = [] ∧ Only [.pav, .out] s.dev e
        ∧ ∀ x ∈ s.dev.pav.log, (∃ t, (x.index, t) ∈ s.dev.pav.toFlash) → .flashWrite "LOG" (LogEntry.bytes x) ∈ e.out)
      ∧ (ok = false → e.ctr A.pavFlashErr = (s.dev.ctr A.pavFlashErr + 1) % 2 ^ 64 ∧ bit (e.reg A.pavCause) 4 = true
        ∧ e.pav.flashAfter = s.dev.time.uptime + 1000000000 ∧ ∀ x ∈ s.dev.pav.toFlash, x ∈ e.pav.toFlash))
  ∧ (∀ (s : State) (result : Nat), 1 ≤ result → result < 7 → s.dev.upd.state = .verifying → s.dev.fwServes = true →
    Does (.updateVerifyDone result) s fun e =>
      e.upd = (if result = 1 then { s.dev.upd with state := if s.dev.upd.activate then .activating else .verified }
        else { s.dev.upd with state := .idle, result := result })
      ∧ Only [.upd, .pav, .ctrs, .data, .regs, .funcs, .out] s.dev e)
  ∧ (∀ s : State, s.dev.upd.state = .activating → s.dev.upd.written = false → s.dev.power.run = none → s.dev.fwServes = true →
    Does .updateActivate s fun e =>
      e.upd = { s.dev.upd with written := true } ∧ e.pav = { s.dev.pav with ordered := true }
      ∧ (∃ name copy, e.out = .flashWrite name copy :: s.dev.out ∧ copy.length = 16 ∧ leAt copy 8 4 = s.dev.upd.slot % 2 ^ 32
        ∧ (e.boot.dir0 = copy ∧ e.boot.dir1 = s.dev.boot.dir1 ∨ e.boot.dir1 = copy ∧ e.boot.dir0 = s.dev.boot.dir0))
      ∧ Only [.upd, .pav, .boot, .out] s.dev e)
  ∧ (∀ (s : State) (t a b total : Nat) (l : List (Nat × Nat × Nat)), t < 512 →
    (∀ x ∈ l, x.1 < 2 ^ 32 ∧ x.2.1 < 65536 ∧ x.2.2 < 65536) → (s.dev.otdrOf t).run = some (a, b, total) → total ≤ (s.dev.otdrOf t).done →
    s.dev.otdrBroken t = false → s.dev.fwServes = true →
    Does (.otdrRunDone t l) s fun e =>
      let o := e.otdrOf t
      o.run = none ∧ o.valid = true ∧ o.count = min 0xFFFE l.length ∧ (l.length ≤ 64 → o.events.Perm l) ∧ o.events.length = min 64 l.length
      ∧ o.events.Pairwise (fun x y => x.1 ≤ y.1) ∧ (∀ u, u ≠ t → e.otdrOf u = s.dev.otdrOf u)
      ∧ Only [.otdr, .pav, .ctrs, .data, .regs, .funcs, .out] s.dev e)
  ∧ (∀ (s : State) (t : Nat), t < 512 → s.dev.otdrBusy t = true → s.dev.otdrBroken t = true → s.dev.fwServes = true →
    Does (.otdrRunAbandon t) s fun e =>
      e.otdrBusy t = false ∧ (e.otdrOf t).valid = false ∧ (∀ u, u ≠ t → e.otdrOf u = s.dev.otdrOf u) ∧ Only [.otdr, .funcs, .regs, .out] s.dev e)
  ∧ ∀ (s : State) (c : Nat) (fault : Bool), c < 512 → s.dev.inService = true → s.dev.domOn (1 + c / 128) = true →
    Does (.pinFaultCheck 0 c fault) s fun e =>
      (fault = true → e.pinFault? 0 c = some 0 ∧ (s.dev.pinFault? 0 c = none → .driver 0 c false ∈ e.out))
      ∧ (fault = false → s.dev.pinFault? 0 c = some 0 → e.pinFault? 0 c = some 1 ∧ Only [.pav] s.dev e)
      ∧ (fault = false → s.dev.pinFault? 0 c = some 1 → e.pinFault? 0 c = none ∧ .driver 0 c true ∈ e.out ∧ Only [.pav, .out] s.dev e)
      ∧ (fault = false → s.dev.pinFault? 0 c = none → e = s.dev)

/-! ## Reset -/

/-- R7, Tables 9-3, 11-7, 7-5, 5-1: the block in reset has an empty queue, memories in canonical form, no Kiosk negotiated and none ready, the
tick at 0, no domain on but PD00, and its registers at their Reset column. -/
def Obligations.ResetValues : Prop :=
  State.reset.pending = [] ∧ allWf State.reset.pending = true ∧ State.reset.dev.memoriesWf
  ∧ State.reset.dev.time.tick = 0 ∧ State.reset.dev.power.on = 1 ∧ State.reset.dev.red.role = .alone ∧ State.reset.dev.upd.state = .idle
  ∧ (∀ f, (State.reset.dev.kiosk f).level = 0 ∧ (State.reset.dev.kiosk f).ready = false ∧ (State.reset.dev.kiosk f).reqTail = 0
    ∧ (State.reset.dev.kiosk f).rspHead = 0)
  ∧ (∀ c, (State.reset.dev.chan c).state = .off) ∧ (∀ o, (State.reset.dev.onu o).state = .absent)
  ∧ (∀ n, (State.reset.dev.dmaCh n).en = false)
  ∧ ∀ c < 512, State.reset.dev.reg (A.usCfg c) = 0x00138408 ∧ State.reset.dev.reg (A.dbaCfg c) = 0x00610208
end

