-- ==== Sys2Proof/Laws/State.lean ====
section
/-! SUPPORT. What each update of a part of the block does to every other part: one lemma per field per update, true by rfl, so that no
later proof unfolds a record update. -/

namespace Sys2Proof.Machine

@[simp] theorem Dev.emit_draws (d : Dev) (o : Out) : (d.emit o).draws = d.draws := rfl
@[simp] theorem Dev.emit_boot (d : Dev) (o : Out) : (d.emit o).boot = d.boot := rfl
@[simp] theorem Dev.emit_fuses (d : Dev) (o : Out) : (d.emit o).fuses = d.fuses := rfl
@[simp] theorem Dev.emit_image (d : Dev) (o : Out) : (d.emit o).image = d.image := rfl
@[simp] theorem Dev.emit_pins (d : Dev) (o : Out) : (d.emit o).pins = d.pins := rfl
@[simp] theorem Dev.emit_time (d : Dev) (o : Out) : (d.emit o).time = d.time := rfl
@[simp] theorem Dev.emit_pcie (d : Dev) (o : Out) : (d.emit o).pcie = d.pcie := rfl
@[simp] theorem Dev.emit_funcs (d : Dev) (o : Out) : (d.emit o).funcs = d.funcs := rfl
@[simp] theorem Dev.emit_regs (d : Dev) (o : Out) : (d.emit o).regs = d.regs := rfl
@[simp] theorem Dev.emit_ctrs (d : Dev) (o : Out) : (d.emit o).ctrs = d.ctrs := rfl
@[simp] theorem Dev.emit_live (d : Dev) (o : Out) : (d.emit o).live = d.live := rfl
@[simp] theorem Dev.emit_due (d : Dev) (o : Out) : (d.emit o).due = d.due := rfl
@[simp] theorem Dev.emit_round (d : Dev) (o : Out) : (d.emit o).round = d.round := rfl
@[simp] theorem Dev.emit_daeLogged (d : Dev) (o : Out) : (d.emit o).daeLogged = d.daeLogged := rfl
@[simp] theorem Dev.emit_pon (d : Dev) (o : Out) : (d.emit o).pon = d.pon := rfl
@[simp] theorem Dev.emit_data (d : Dev) (o : Out) : (d.emit o).data = d.data := rfl
@[simp] theorem Dev.emit_red (d : Dev) (o : Out) : (d.emit o).red = d.red := rfl
@[simp] theorem Dev.emit_mir (d : Dev) (o : Out) : (d.emit o).mir = d.mir := rfl
@[simp] theorem Dev.emit_redch (d : Dev) (o : Out) : (d.emit o).redch = d.redch := rfl
@[simp] theorem Dev.emit_meas (d : Dev) (o : Out) : (d.emit o).meas = d.meas := rfl
@[simp] theorem Dev.emit_power (d : Dev) (o : Out) : (d.emit o).power = d.power := rfl
@[simp] theorem Dev.emit_pav (d : Dev) (o : Out) : (d.emit o).pav = d.pav := rfl
@[simp] theorem Dev.emit_otdr (d : Dev) (o : Out) : (d.emit o).otdr = d.otdr := rfl
@[simp] theorem Dev.emit_upd (d : Dev) (o : Out) : (d.emit o).upd = d.upd := rfl
@[simp] theorem Dev.onBoot_draws (d : Dev) (g : Boot → Boot) : (d.onBoot g).draws = d.draws := rfl
@[simp] theorem Dev.onBoot_out (d : Dev) (g : Boot → Boot) : (d.onBoot g).out = d.out := rfl
@[simp] theorem Dev.onBoot_fuses (d : Dev) (g : Boot → Boot) : (d.onBoot g).fuses = d.fuses := rfl
@[simp] theorem Dev.onBoot_image (d : Dev) (g : Boot → Boot) : (d.onBoot g).image = d.image := rfl
@[simp] theorem Dev.onBoot_pins (d : Dev) (g : Boot → Boot) : (d.onBoot g).pins = d.pins := rfl
@[simp] theorem Dev.onBoot_time (d : Dev) (g : Boot → Boot) : (d.onBoot g).time = d.time := rfl
@[simp] theorem Dev.onBoot_pcie (d : Dev) (g : Boot → Boot) : (d.onBoot g).pcie = d.pcie := rfl
@[simp] theorem Dev.onBoot_funcs (d : Dev) (g : Boot → Boot) : (d.onBoot g).funcs = d.funcs := rfl
@[simp] theorem Dev.onBoot_regs (d : Dev) (g : Boot → Boot) : (d.onBoot g).regs = d.regs := rfl
@[simp] theorem Dev.onBoot_ctrs (d : Dev) (g : Boot → Boot) : (d.onBoot g).ctrs = d.ctrs := rfl
@[simp] theorem Dev.onBoot_live (d : Dev) (g : Boot → Boot) : (d.onBoot g).live = d.live := rfl
@[simp] theorem Dev.onBoot_due (d : Dev) (g : Boot → Boot) : (d.onBoot g).due = d.due := rfl
@[simp] theorem Dev.onBoot_round (d : Dev) (g : Boot → Boot) : (d.onBoot g).round = d.round := rfl
@[simp] theorem Dev.onBoot_daeLogged (d : Dev) (g : Boot → Boot) : (d.onBoot g).daeLogged = d.daeLogged := rfl
@[simp] theorem Dev.onBoot_pon (d : Dev) (g : Boot → Boot) : (d.onBoot g).pon = d.pon := rfl
@[simp] theorem Dev.onBoot_data (d : Dev) (g : Boot → Boot) : (d.onBoot g).data = d.data := rfl
@[simp] theorem Dev.onBoot_red (d : Dev) (g : Boot → Boot) : (d.onBoot g).red = d.red := rfl
@[simp] theorem Dev.onBoot_mir (d : Dev) (g : Boot → Boot) : (d.onBoot g).mir = d.mir := rfl
@[simp] theorem Dev.onBoot_redch (d : Dev) (g : Boot → Boot) : (d.onBoot g).redch = d.redch := rfl
@[simp] theorem Dev.onBoot_meas (d : Dev) (g : Boot → Boot) : (d.onBoot g).meas = d.meas := rfl
@[simp] theorem Dev.onBoot_power (d : Dev) (g : Boot → Boot) : (d.onBoot g).power = d.power := rfl
@[simp] theorem Dev.onBoot_pav (d : Dev) (g : Boot → Boot) : (d.onBoot g).pav = d.pav := rfl
@[simp] theorem Dev.onBoot_otdr (d : Dev) (g : Boot → Boot) : (d.onBoot g).otdr = d.otdr := rfl
@[simp] theorem Dev.onBoot_upd (d : Dev) (g : Boot → Boot) : (d.onBoot g).upd = d.upd := rfl
@[simp] theorem Dev.onTime_draws (d : Dev) (g : Time → Time) : (d.onTime g).draws = d.draws := rfl
@[simp] theorem Dev.onTime_out (d : Dev) (g : Time → Time) : (d.onTime g).out = d.out := rfl
@[simp] theorem Dev.onTime_boot (d : Dev) (g : Time → Time) : (d.onTime g).boot = d.boot := rfl
@[simp] theorem Dev.onTime_fuses (d : Dev) (g : Time → Time) : (d.onTime g).fuses = d.fuses := rfl
@[simp] theorem Dev.onTime_image (d : Dev) (g : Time → Time) : (d.onTime g).image = d.image := rfl
@[simp] theorem Dev.onTime_pins (d : Dev) (g : Time → Time) : (d.onTime g).pins = d.pins := rfl
@[simp] theorem Dev.onTime_pcie (d : Dev) (g : Time → Time) : (d.onTime g).pcie = d.pcie := rfl
@[simp] theorem Dev.onTime_funcs (d : Dev) (g : Time → Time) : (d.onTime g).funcs = d.funcs := rfl
@[simp] theorem Dev.onTime_regs (d : Dev) (g : Time → Time) : (d.onTime g).regs = d.regs := rfl
@[simp] theorem Dev.onTime_ctrs (d : Dev) (g : Time → Time) : (d.onTime g).ctrs = d.ctrs := rfl
@[simp] theorem Dev.onTime_live (d : Dev) (g : Time → Time) : (d.onTime g).live = d.live := rfl
@[simp] theorem Dev.onTime_due (d : Dev) (g : Time → Time) : (d.onTime g).due = d.due := rfl
@[simp] theorem Dev.onTime_round (d : Dev) (g : Time → Time) : (d.onTime g).round = d.round := rfl
@[simp] theorem Dev.onTime_daeLogged (d : Dev) (g : Time → Time) : (d.onTime g).daeLogged = d.daeLogged := rfl
@[simp] theorem Dev.onTime_pon (d : Dev) (g : Time → Time) : (d.onTime g).pon = d.pon := rfl
@[simp] theorem Dev.onTime_data (d : Dev) (g : Time → Time) : (d.onTime g).data = d.data := rfl
@[simp] theorem Dev.onTime_red (d : Dev) (g : Time → Time) : (d.onTime g).red = d.red := rfl
@[simp] theorem Dev.onTime_mir (d : Dev) (g : Time → Time) : (d.onTime g).mir = d.mir := rfl
@[simp] theorem Dev.onTime_redch (d : Dev) (g : Time → Time) : (d.onTime g).redch = d.redch := rfl
@[simp] theorem Dev.onTime_meas (d : Dev) (g : Time → Time) : (d.onTime g).meas = d.meas := rfl
@[simp] theorem Dev.onTime_power (d : Dev) (g : Time → Time) : (d.onTime g).power = d.power := rfl
@[simp] theorem Dev.onTime_pav (d : Dev) (g : Time → Time) : (d.onTime g).pav = d.pav := rfl
@[simp] theorem Dev.onTime_otdr (d : Dev) (g : Time → Time) : (d.onTime g).otdr = d.otdr := rfl
@[simp] theorem Dev.onTime_upd (d : Dev) (g : Time → Time) : (d.onTime g).upd = d.upd := rfl
@[simp] theorem Dev.onPcie_draws (d : Dev) (g : Pcie → Pcie) : (d.onPcie g).draws = d.draws := rfl
@[simp] theorem Dev.onPcie_out (d : Dev) (g : Pcie → Pcie) : (d.onPcie g).out = d.out := rfl
@[simp] theorem Dev.onPcie_boot (d : Dev) (g : Pcie → Pcie) : (d.onPcie g).boot = d.boot := rfl
@[simp] theorem Dev.onPcie_fuses (d : Dev) (g : Pcie → Pcie) : (d.onPcie g).fuses = d.fuses := rfl
@[simp] theorem Dev.onPcie_image (d : Dev) (g : Pcie → Pcie) : (d.onPcie g).image = d.image := rfl
@[simp] theorem Dev.onPcie_pins (d : Dev) (g : Pcie → Pcie) : (d.onPcie g).pins = d.pins := rfl
@[simp] theorem Dev.onPcie_time (d : Dev) (g : Pcie → Pcie) : (d.onPcie g).time = d.time := rfl
@[simp] theorem Dev.onPcie_funcs (d : Dev) (g : Pcie → Pcie) : (d.onPcie g).funcs = d.funcs := rfl
@[simp] theorem Dev.onPcie_regs (d : Dev) (g : Pcie → Pcie) : (d.onPcie g).regs = d.regs := rfl
@[simp] theorem Dev.onPcie_ctrs (d : Dev) (g : Pcie → Pcie) : (d.onPcie g).ctrs = d.ctrs := rfl
@[simp] theorem Dev.onPcie_live (d : Dev) (g : Pcie → Pcie) : (d.onPcie g).live = d.live := rfl
@[simp] theorem Dev.onPcie_due (d : Dev) (g : Pcie → Pcie) : (d.onPcie g).due = d.due := rfl
@[simp] theorem Dev.onPcie_round (d : Dev) (g : Pcie → Pcie) : (d.onPcie g).round = d.round := rfl
@[simp] theorem Dev.onPcie_daeLogged (d : Dev) (g : Pcie → Pcie) : (d.onPcie g).daeLogged = d.daeLogged := rfl
@[simp] theorem Dev.onPcie_pon (d : Dev) (g : Pcie → Pcie) : (d.onPcie g).pon = d.pon := rfl
@[simp] theorem Dev.onPcie_data (d : Dev) (g : Pcie → Pcie) : (d.onPcie g).data = d.data := rfl
@[simp] theorem Dev.onPcie_red (d : Dev) (g : Pcie → Pcie) : (d.onPcie g).red = d.red := rfl
@[simp] theorem Dev.onPcie_mir (d : Dev) (g : Pcie → Pcie) : (d.onPcie g).mir = d.mir := rfl
@[simp] theorem Dev.onPcie_redch (d : Dev) (g : Pcie → Pcie) : (d.onPcie g).redch = d.redch := rfl
@[simp] theorem Dev.onPcie_meas (d : Dev) (g : Pcie → Pcie) : (d.onPcie g).meas = d.meas := rfl
@[simp] theorem Dev.onPcie_power (d : Dev) (g : Pcie → Pcie) : (d.onPcie g).power = d.power := rfl
@[simp] theorem Dev.onPcie_pav (d : Dev) (g : Pcie → Pcie) : (d.onPcie g).pav = d.pav := rfl
@[simp] theorem Dev.onPcie_otdr (d : Dev) (g : Pcie → Pcie) : (d.onPcie g).otdr = d.otdr := rfl
@[simp] theorem Dev.onPcie_upd (d : Dev) (g : Pcie → Pcie) : (d.onPcie g).upd = d.upd := rfl
@[simp] theorem Dev.onPins_draws (d : Dev) (g : Pins → Pins) : (d.onPins g).draws = d.draws := rfl
@[simp] theorem Dev.onPins_out (d : Dev) (g : Pins → Pins) : (d.onPins g).out = d.out := rfl
@[simp] theorem Dev.onPins_boot (d : Dev) (g : Pins → Pins) : (d.onPins g).boot = d.boot := rfl
@[simp] theorem Dev.onPins_fuses (d : Dev) (g : Pins → Pins) : (d.onPins g).fuses = d.fuses := rfl
@[simp] theorem Dev.onPins_image (d : Dev) (g : Pins → Pins) : (d.onPins g).image = d.image := rfl
@[simp] theorem Dev.onPins_time (d : Dev) (g : Pins → Pins) : (d.onPins g).time = d.time := rfl
@[simp] theorem Dev.onPins_pcie (d : Dev) (g : Pins → Pins) : (d.onPins g).pcie = d.pcie := rfl
@[simp] theorem Dev.onPins_funcs (d : Dev) (g : Pins → Pins) : (d.onPins g).funcs = d.funcs := rfl
@[simp] theorem Dev.onPins_regs (d : Dev) (g : Pins → Pins) : (d.onPins g).regs = d.regs := rfl
@[simp] theorem Dev.onPins_ctrs (d : Dev) (g : Pins → Pins) : (d.onPins g).ctrs = d.ctrs := rfl
@[simp] theorem Dev.onPins_live (d : Dev) (g : Pins → Pins) : (d.onPins g).live = d.live := rfl
@[simp] theorem Dev.onPins_due (d : Dev) (g : Pins → Pins) : (d.onPins g).due = d.due := rfl
@[simp] theorem Dev.onPins_round (d : Dev) (g : Pins → Pins) : (d.onPins g).round = d.round := rfl
@[simp] theorem Dev.onPins_daeLogged (d : Dev) (g : Pins → Pins) : (d.onPins g).daeLogged = d.daeLogged := rfl
@[simp] theorem Dev.onPins_pon (d : Dev) (g : Pins → Pins) : (d.onPins g).pon = d.pon := rfl
@[simp] theorem Dev.onPins_data (d : Dev) (g : Pins → Pins) : (d.onPins g).data = d.data := rfl
@[simp] theorem Dev.onPins_red (d : Dev) (g : Pins → Pins) : (d.onPins g).red = d.red := rfl
@[simp] theorem Dev.onPins_mir (d : Dev) (g : Pins → Pins) : (d.onPins g).mir = d.mir := rfl
@[simp] theorem Dev.onPins_redch (d : Dev) (g : Pins → Pins) : (d.onPins g).redch = d.redch := rfl
@[simp] theorem Dev.onPins_meas (d : Dev) (g : Pins → Pins) : (d.onPins g).meas = d.meas := rfl
@[simp] theorem Dev.onPins_power (d : Dev) (g : Pins → Pins) : (d.onPins g).power = d.power := rfl
@[simp] theorem Dev.onPins_pav (d : Dev) (g : Pins → Pins) : (d.onPins g).pav = d.pav := rfl
@[simp] theorem Dev.onPins_otdr (d : Dev) (g : Pins → Pins) : (d.onPins g).otdr = d.otdr := rfl
@[simp] theorem Dev.onPins_upd (d : Dev) (g : Pins → Pins) : (d.onPins g).upd = d.upd := rfl
@[simp] theorem Dev.onPon_draws (d : Dev) (g : Pon → Pon) : (d.onPon g).draws = d.draws := rfl
@[simp] theorem Dev.onPon_out (d : Dev) (g : Pon → Pon) : (d.onPon g).out = d.out := rfl
@[simp] theorem Dev.onPon_boot (d : Dev) (g : Pon → Pon) : (d.onPon g).boot = d.boot := rfl
@[simp] theorem Dev.onPon_fuses (d : Dev) (g : Pon → Pon) : (d.onPon g).fuses = d.fuses := rfl
@[simp] theorem Dev.onPon_image (d : Dev) (g : Pon → Pon) : (d.onPon g).image = d.image := rfl
@[simp] theorem Dev.onPon_pins (d : Dev) (g : Pon → Pon) : (d.onPon g).pins = d.pins := rfl
@[simp] theorem Dev.onPon_time (d : Dev) (g : Pon → Pon) : (d.onPon g).time = d.time := rfl
@[simp] theorem Dev.onPon_pcie (d : Dev) (g : Pon → Pon) : (d.onPon g).pcie = d.pcie := rfl
@[simp] theorem Dev.onPon_funcs (d : Dev) (g : Pon → Pon) : (d.onPon g).funcs = d.funcs := rfl
@[simp] theorem Dev.onPon_regs (d : Dev) (g : Pon → Pon) : (d.onPon g).regs = d.regs := rfl
@[simp] theorem Dev.onPon_ctrs (d : Dev) (g : Pon → Pon) : (d.onPon g).ctrs = d.ctrs := rfl
@[simp] theorem Dev.onPon_live (d : Dev) (g : Pon → Pon) : (d.onPon g).live = d.live := rfl
@[simp] theorem Dev.onPon_due (d : Dev) (g : Pon → Pon) : (d.onPon g).due = d.due := rfl
@[simp] theorem Dev.onPon_round (d : Dev) (g : Pon → Pon) : (d.onPon g).round = d.round := rfl
@[simp] theorem Dev.onPon_daeLogged (d : Dev) (g : Pon → Pon) : (d.onPon g).daeLogged = d.daeLogged := rfl
@[simp] theorem Dev.onPon_data (d : Dev) (g : Pon → Pon) : (d.onPon g).data = d.data := rfl
@[simp] theorem Dev.onPon_red (d : Dev) (g : Pon → Pon) : (d.onPon g).red = d.red := rfl
@[simp] theorem Dev.onPon_mir (d : Dev) (g : Pon → Pon) : (d.onPon g).mir = d.mir := rfl
@[simp] theorem Dev.onPon_redch (d : Dev) (g : Pon → Pon) : (d.onPon g).redch = d.redch := rfl
@[simp] theorem Dev.onPon_meas (d : Dev) (g : Pon → Pon) : (d.onPon g).meas = d.meas := rfl
@[simp] theorem Dev.onPon_power (d : Dev) (g : Pon → Pon) : (d.onPon g).power = d.power := rfl
@[simp] theorem Dev.onPon_pav (d : Dev) (g : Pon → Pon) : (d.onPon g).pav = d.pav := rfl
@[simp] theorem Dev.onPon_otdr (d : Dev) (g : Pon → Pon) : (d.onPon g).otdr = d.otdr := rfl
@[simp] theorem Dev.onPon_upd (d : Dev) (g : Pon → Pon) : (d.onPon g).upd = d.upd := rfl
@[simp] theorem Dev.onData_draws (d : Dev) (g : Data → Data) : (d.onData g).draws = d.draws := rfl
@[simp] theorem Dev.onData_out (d : Dev) (g : Data → Data) : (d.onData g).out = d.out := rfl
@[simp] theorem Dev.onData_boot (d : Dev) (g : Data → Data) : (d.onData g).boot = d.boot := rfl
@[simp] theorem Dev.onData_fuses (d : Dev) (g : Data → Data) : (d.onData g).fuses = d.fuses := rfl
@[simp] theorem Dev.onData_image (d : Dev) (g : Data → Data) : (d.onData g).image = d.image := rfl
@[simp] theorem Dev.onData_pins (d : Dev) (g : Data → Data) : (d.onData g).pins = d.pins := rfl
@[simp] theorem Dev.onData_time (d : Dev) (g : Data → Data) : (d.onData g).time = d.time := rfl
@[simp] theorem Dev.onData_pcie (d : Dev) (g : Data → Data) : (d.onData g).pcie = d.pcie := rfl
@[simp] theorem Dev.onData_funcs (d : Dev) (g : Data → Data) : (d.onData g).funcs = d.funcs := rfl
@[simp] theorem Dev.onData_regs (d : Dev) (g : Data → Data) : (d.onData g).regs = d.regs := rfl
@[simp] theorem Dev.onData_ctrs (d : Dev) (g : Data → Data) : (d.onData g).ctrs = d.ctrs := rfl
@[simp] theorem Dev.onData_live (d : Dev) (g : Data → Data) : (d.onData g).live = d.live := rfl
@[simp] theorem Dev.onData_due (d : Dev) (g : Data → Data) : (d.onData g).due = d.due := rfl
@[simp] theorem Dev.onData_round (d : Dev) (g : Data → Data) : (d.onData g).round = d.round := rfl
@[simp] theorem Dev.onData_daeLogged (d : Dev) (g : Data → Data) : (d.onData g).daeLogged = d.daeLogged := rfl
@[simp] theorem Dev.onData_pon (d : Dev) (g : Data → Data) : (d.onData g).pon = d.pon := rfl
@[simp] theorem Dev.onData_red (d : Dev) (g : Data → Data) : (d.onData g).red = d.red := rfl
@[simp] theorem Dev.onData_mir (d : Dev) (g : Data → Data) : (d.onData g).mir = d.mir := rfl
@[simp] theorem Dev.onData_redch (d : Dev) (g : Data → Data) : (d.onData g).redch = d.redch := rfl
@[simp] theorem Dev.onData_meas (d : Dev) (g : Data → Data) : (d.onData g).meas = d.meas := rfl
@[simp] theorem Dev.onData_power (d : Dev) (g : Data → Data) : (d.onData g).power = d.power := rfl
@[simp] theorem Dev.onData_pav (d : Dev) (g : Data → Data) : (d.onData g).pav = d.pav := rfl
@[simp] theorem Dev.onData_otdr (d : Dev) (g : Data → Data) : (d.onData g).otdr = d.otdr := rfl
@[simp] theorem Dev.onData_upd (d : Dev) (g : Data → Data) : (d.onData g).upd = d.upd := rfl
@[simp] theorem Dev.onRed_draws (d : Dev) (g : Red → Red) : (d.onRed g).draws = d.draws := rfl
@[simp] theorem Dev.onRed_out (d : Dev) (g : Red → Red) : (d.onRed g).out = d.out := rfl
@[simp] theorem Dev.onRed_boot (d : Dev) (g : Red → Red) : (d.onRed g).boot = d.boot := rfl
@[simp] theorem Dev.onRed_fuses (d : Dev) (g : Red → Red) : (d.onRed g).fuses = d.fuses := rfl
@[simp] theorem Dev.onRed_image (d : Dev) (g : Red → Red) : (d.onRed g).image = d.image := rfl
@[simp] theorem Dev.onRed_pins (d : Dev) (g : Red → Red) : (d.onRed g).pins = d.pins := rfl
@[simp] theorem Dev.onRed_time (d : Dev) (g : Red → Red) : (d.onRed g).time = d.time := rfl
@[simp] theorem Dev.onRed_pcie (d : Dev) (g : Red → Red) : (d.onRed g).pcie = d.pcie := rfl
@[simp] theorem Dev.onRed_funcs (d : Dev) (g : Red → Red) : (d.onRed g).funcs = d.funcs := rfl
@[simp] theorem Dev.onRed_regs (d : Dev) (g : Red → Red) : (d.onRed g).regs = d.regs := rfl
@[simp] theorem Dev.onRed_ctrs (d : Dev) (g : Red → Red) : (d.onRed g).ctrs = d.ctrs := rfl
@[simp] theorem Dev.onRed_live (d : Dev) (g : Red → Red) : (d.onRed g).live = d.live := rfl
@[simp] theorem Dev.onRed_due (d : Dev) (g : Red → Red) : (d.onRed g).due = d.due := rfl
@[simp] theorem Dev.onRed_round (d : Dev) (g : Red → Red) : (d.onRed g).round = d.round := rfl
@[simp] theorem Dev.onRed_daeLogged (d : Dev) (g : Red → Red) : (d.onRed g).daeLogged = d.daeLogged := rfl
@[simp] theorem Dev.onRed_pon (d : Dev) (g : Red → Red) : (d.onRed g).pon = d.pon := rfl
@[simp] theorem Dev.onRed_data (d : Dev) (g : Red → Red) : (d.onRed g).data = d.data := rfl
@[simp] theorem Dev.onRed_mir (d : Dev) (g : Red → Red) : (d.onRed g).mir = d.mir := rfl
@[simp] theorem Dev.onRed_redch (d : Dev) (g : Red → Red) : (d.onRed g).redch = d.redch := rfl
@[simp] theorem Dev.onRed_meas (d : Dev) (g : Red → Red) : (d.onRed g).meas = d.meas := rfl
@[simp] theorem Dev.onRed_power (d : Dev) (g : Red → Red) : (d.onRed g).power = d.power := rfl
@[simp] theorem Dev.onRed_pav (d : Dev) (g : Red → Red) : (d.onRed g).pav = d.pav := rfl
@[simp] theorem Dev.onRed_otdr (d : Dev) (g : Red → Red) : (d.onRed g).otdr = d.otdr := rfl
@[simp] theorem Dev.onRed_upd (d : Dev) (g : Red → Red) : (d.onRed g).upd = d.upd := rfl
@[simp] theorem Dev.onMir_draws (d : Dev) (g : Mir → Mir) : (d.onMir g).draws = d.draws := rfl
@[simp] theorem Dev.onMir_out (d : Dev) (g : Mir → Mir) : (d.onMir g).out = d.out := rfl
@[simp] theorem Dev.onMir_boot (d : Dev) (g : Mir → Mir) : (d.onMir g).boot = d.boot := rfl
@[simp] theorem Dev.onMir_fuses (d : Dev) (g : Mir → Mir) : (d.onMir g).fuses = d.fuses := rfl
@[simp] theorem Dev.onMir_image (d : Dev) (g : Mir → Mir) : (d.onMir g).image = d.image := rfl
@[simp] theorem Dev.onMir_pins (d : Dev) (g : Mir → Mir) : (d.onMir g).pins = d.pins := rfl
@[simp] theorem Dev.onMir_time (d : Dev) (g : Mir → Mir) : (d.onMir g).time = d.time := rfl
@[simp] theorem Dev.onMir_pcie (d : Dev) (g : Mir → Mir) : (d.onMir g).pcie = d.pcie := rfl
@[simp] theorem Dev.onMir_funcs (d : Dev) (g : Mir → Mir) : (d.onMir g).funcs = d.funcs := rfl
@[simp] theorem Dev.onMir_regs (d : Dev) (g : Mir → Mir) : (d.onMir g).regs = d.regs := rfl
@[simp] theorem Dev.onMir_ctrs (d : Dev) (g : Mir → Mir) : (d.onMir g).ctrs = d.ctrs := rfl
@[simp] theorem Dev.onMir_live (d : Dev) (g : Mir → Mir) : (d.onMir g).live = d.live := rfl
@[simp] theorem Dev.onMir_due (d : Dev) (g : Mir → Mir) : (d.onMir g).due = d.due := rfl
@[simp] theorem Dev.onMir_round (d : Dev) (g : Mir → Mir) : (d.onMir g).round = d.round := rfl
@[simp] theorem Dev.onMir_daeLogged (d : Dev) (g : Mir → Mir) : (d.onMir g).daeLogged = d.daeLogged := rfl
@[simp] theorem Dev.onMir_pon (d : Dev) (g : Mir → Mir) : (d.onMir g).pon = d.pon := rfl
@[simp] theorem Dev.onMir_data (d : Dev) (g : Mir → Mir) : (d.onMir g).data = d.data := rfl
@[simp] theorem Dev.onMir_red (d : Dev) (g : Mir → Mir) : (d.onMir g).red = d.red := rfl
@[simp] theorem Dev.onMir_redch (d : Dev) (g : Mir → Mir) : (d.onMir g).redch = d.redch := rfl
@[simp] theorem Dev.onMir_meas (d : Dev) (g : Mir → Mir) : (d.onMir g).meas = d.meas := rfl
@[simp] theorem Dev.onMir_power (d : Dev) (g : Mir → Mir) : (d.onMir g).power = d.power := rfl
@[simp] theorem Dev.onMir_pav (d : Dev) (g : Mir → Mir) : (d.onMir g).pav = d.pav := rfl
@[simp] theorem Dev.onMir_otdr (d : Dev) (g : Mir → Mir) : (d.onMir g).otdr = d.otdr := rfl
@[simp] theorem Dev.onMir_upd (d : Dev) (g : Mir → Mir) : (d.onMir g).upd = d.upd := rfl
@[simp] theorem Dev.onMeas_draws (d : Dev) (g : Meas → Meas) : (d.onMeas g).draws = d.draws := rfl
@[simp] theorem Dev.onMeas_out (d : Dev) (g : Meas → Meas) : (d.onMeas g).out = d.out := rfl
@[simp] theorem Dev.onMeas_boot (d : Dev) (g : Meas → Meas) : (d.onMeas g).boot = d.boot := rfl
@[simp] theorem Dev.onMeas_fuses (d : Dev) (g : Meas → Meas) : (d.onMeas g).fuses = d.fuses := rfl
@[simp] theorem Dev.onMeas_image (d : Dev) (g : Meas → Meas) : (d.onMeas g).image = d.image := rfl
@[simp] theorem Dev.onMeas_pins (d : Dev) (g : Meas → Meas) : (d.onMeas g).pins = d.pins := rfl
@[simp] theorem Dev.onMeas_time (d : Dev) (g : Meas → Meas) : (d.onMeas g).time = d.time := rfl
@[simp] theorem Dev.onMeas_pcie (d : Dev) (g : Meas → Meas) : (d.onMeas g).pcie = d.pcie := rfl
@[simp] theorem Dev.onMeas_funcs (d : Dev) (g : Meas → Meas) : (d.onMeas g).funcs = d.funcs := rfl
@[simp] theorem Dev.onMeas_regs (d : Dev) (g : Meas → Meas) : (d.onMeas g).regs = d.regs := rfl
@[simp] theorem Dev.onMeas_ctrs (d : Dev) (g : Meas → Meas) : (d.onMeas g).ctrs = d.ctrs := rfl
@[simp] theorem Dev.onMeas_live (d : Dev) (g : Meas → Meas) : (d.onMeas g).live = d.live := rfl
@[simp] theorem Dev.onMeas_due (d : Dev) (g : Meas → Meas) : (d.onMeas g).due = d.due := rfl
@[simp] theorem Dev.onMeas_round (d : Dev) (g : Meas → Meas) : (d.onMeas g).round = d.round := rfl
@[simp] theorem Dev.onMeas_daeLogged (d : Dev) (g : Meas → Meas) : (d.onMeas g).daeLogged = d.daeLogged := rfl
@[simp] theorem Dev.onMeas_pon (d : Dev) (g : Meas → Meas) : (d.onMeas g).pon = d.pon := rfl
@[simp] theorem Dev.onMeas_data (d : Dev) (g : Meas → Meas) : (d.onMeas g).data = d.data := rfl
@[simp] theorem Dev.onMeas_red (d : Dev) (g : Meas → Meas) : (d.onMeas g).red = d.red := rfl
@[simp] theorem Dev.onMeas_mir (d : Dev) (g : Meas → Meas) : (d.onMeas g).mir = d.mir := rfl
@[simp] theorem Dev.onMeas_redch (d : Dev) (g : Meas → Meas) : (d.onMeas g).redch = d.redch := rfl
@[simp] theorem Dev.onMeas_power (d : Dev) (g : Meas → Meas) : (d.onMeas g).power = d.power := rfl
@[simp] theorem Dev.onMeas_pav (d : Dev) (g : Meas → Meas) : (d.onMeas g).pav = d.pav := rfl
@[simp] theorem Dev.onMeas_otdr (d : Dev) (g : Meas → Meas) : (d.onMeas g).otdr = d.otdr := rfl
@[simp] theorem Dev.onMeas_upd (d : Dev) (g : Meas → Meas) : (d.onMeas g).upd = d.upd := rfl
@[simp] theorem Dev.onPower_draws (d : Dev) (g : Power → Power) : (d.onPower g).draws = d.draws := rfl
@[simp] theorem Dev.onPower_out (d : Dev) (g : Power → Power) : (d.onPower g).out = d.out := rfl
@[simp] theorem Dev.onPower_boot (d : Dev) (g : Power → Power) : (d.onPower g).boot = d.boot := rfl
@[simp] theorem Dev.onPower_fuses (d : Dev) (g : Power → Power) : (d.onPower g).fuses = d.fuses := rfl
@[simp] theorem Dev.onPower_image (d : Dev) (g : Power → Power) : (d.onPower g).image = d.image := rfl
@[simp] theorem Dev.onPower_pins (d : Dev) (g : Power → Power) : (d.onPower g).pins = d.pins := rfl
@[simp] theorem Dev.onPower_time (d : Dev) (g : Power → Power) : (d.onPower g).time = d.time := rfl
@[simp] theorem Dev.onPower_pcie (d : Dev) (g : Power → Power) : (d.onPower g).pcie = d.pcie := rfl
@[simp] theorem Dev.onPower_funcs (d : Dev) (g : Power → Power) : (d.onPower g).funcs = d.funcs := rfl
@[simp] theorem Dev.onPower_regs (d : Dev) (g : Power → Power) : (d.onPower g).regs = d.regs := rfl
@[simp] theorem Dev.onPower_ctrs (d : Dev) (g : Power → Power) : (d.onPower g).ctrs = d.ctrs := rfl
@[simp] theorem Dev.onPower_live (d : Dev) (g : Power → Power) : (d.onPower g).live = d.live := rfl
@[simp] theorem Dev.onPower_due (d : Dev) (g : Power → Power) : (d.onPower g).due = d.due := rfl
@[simp] theorem Dev.onPower_round (d : Dev) (g : Power → Power) : (d.onPower g).round = d.round := rfl
@[simp] theorem Dev.onPower_daeLogged (d : Dev) (g : Power → Power) : (d.onPower g).daeLogged = d.daeLogged := rfl
@[simp] theorem Dev.onPower_pon (d : Dev) (g : Power → Power) : (d.onPower g).pon = d.pon := rfl
@[simp] theorem Dev.onPower_data (d : Dev) (g : Power → Power) : (d.onPower g).data = d.data := rfl
@[simp] theorem Dev.onPower_red (d : Dev) (g : Power → Power) : (d.onPower g).red = d.red := rfl
@[simp] theorem Dev.onPower_mir (d : Dev) (g : Power → Power) : (d.onPower g).mir = d.mir := rfl
@[simp] theorem Dev.onPower_redch (d : Dev) (g : Power → Power) : (d.onPower g).redch = d.redch := rfl
@[simp] theorem Dev.onPower_meas (d : Dev) (g : Power → Power) : (d.onPower g).meas = d.meas := rfl
@[simp] theorem Dev.onPower_pav (d : Dev) (g : Power → Power) : (d.onPower g).pav = d.pav := rfl
@[simp] theorem Dev.onPower_otdr (d : Dev) (g : Power → Power) : (d.onPower g).otdr = d.otdr := rfl
@[simp] theorem Dev.onPower_upd (d : Dev) (g : Power → Power) : (d.onPower g).upd = d.upd := rfl
@[simp] theorem Dev.onPav_draws (d : Dev) (g : Pav → Pav) : (d.onPav g).draws = d.draws := rfl
@[simp] theorem Dev.onPav_out (d : Dev) (g : Pav → Pav) : (d.onPav g).out = d.out := rfl
@[simp] theorem Dev.onPav_boot (d : Dev) (g : Pav → Pav) : (d.onPav g).boot = d.boot := rfl
@[simp] theorem Dev.onPav_fuses (d : Dev) (g : Pav → Pav) : (d.onPav g).fuses = d.fuses := rfl
@[simp] theorem Dev.onPav_image (d : Dev) (g : Pav → Pav) : (d.onPav g).image = d.image := rfl
@[simp] theorem Dev.onPav_pins (d : Dev) (g : Pav → Pav) : (d.onPav g).pins = d.pins := rfl
@[simp] theorem Dev.onPav_time (d : Dev) (g : Pav → Pav) : (d.onPav g).time = d.time := rfl
@[simp] theorem Dev.onPav_pcie (d : Dev) (g : Pav → Pav) : (d.onPav g).pcie = d.pcie := rfl
@[simp] theorem Dev.onPav_funcs (d : Dev) (g : Pav → Pav) : (d.onPav g).funcs = d.funcs := rfl
@[simp] theorem Dev.onPav_regs (d : Dev) (g : Pav → Pav) : (d.onPav g).regs = d.regs := rfl
@[simp] theorem Dev.onPav_ctrs (d : Dev) (g : Pav → Pav) : (d.onPav g).ctrs = d.ctrs := rfl
@[simp] theorem Dev.onPav_live (d : Dev) (g : Pav → Pav) : (d.onPav g).live = d.live := rfl
@[simp] theorem Dev.onPav_due (d : Dev) (g : Pav → Pav) : (d.onPav g).due = d.due := rfl
@[simp] theorem Dev.onPav_round (d : Dev) (g : Pav → Pav) : (d.onPav g).round = d.round := rfl
@[simp] theorem Dev.onPav_daeLogged (d : Dev) (g : Pav → Pav) : (d.onPav g).daeLogged = d.daeLogged := rfl
@[simp] theorem Dev.onPav_pon (d : Dev) (g : Pav → Pav) : (d.onPav g).pon = d.pon := rfl
@[simp] theorem Dev.onPav_data (d : Dev) (g : Pav → Pav) : (d.onPav g).data = d.data := rfl
@[simp] theorem Dev.onPav_red (d : Dev) (g : Pav → Pav) : (d.onPav g).red = d.red := rfl
@[simp] theorem Dev.onPav_mir (d : Dev) (g : Pav → Pav) : (d.onPav g).mir = d.mir := rfl
@[simp] theorem Dev.onPav_redch (d : Dev) (g : Pav → Pav) : (d.onPav g).redch = d.redch := rfl
@[simp] theorem Dev.onPav_meas (d : Dev) (g : Pav → Pav) : (d.onPav g).meas = d.meas := rfl
@[simp] theorem Dev.onPav_power (d : Dev) (g : Pav → Pav) : (d.onPav g).power = d.power := rfl
@[simp] theorem Dev.onPav_otdr (d : Dev) (g : Pav → Pav) : (d.onPav g).otdr = d.otdr := rfl
@[simp] theorem Dev.onPav_upd (d : Dev) (g : Pav → Pav) : (d.onPav g).upd = d.upd := rfl
@[simp] theorem Dev.onUpd_draws (d : Dev) (g : Upd → Upd) : (d.onUpd g).draws = d.draws := rfl
@[simp] theorem Dev.onUpd_out (d : Dev) (g : Upd → Upd) : (d.onUpd g).out = d.out := rfl
@[simp] theorem Dev.onUpd_boot (d : Dev) (g : Upd → Upd) : (d.onUpd g).boot = d.boot := rfl
@[simp] theorem Dev.onUpd_fuses (d : Dev) (g : Upd → Upd) : (d.onUpd g).fuses = d.fuses := rfl
@[simp] theorem Dev.onUpd_image (d : Dev) (g : Upd → Upd) : (d.onUpd g).image = d.image := rfl
@[simp] theorem Dev.onUpd_pins (d : Dev) (g : Upd → Upd) : (d.onUpd g).pins = d.pins := rfl
@[simp] theorem Dev.onUpd_time (d : Dev) (g : Upd → Upd) : (d.onUpd g).time = d.time := rfl
@[simp] theorem Dev.onUpd_pcie (d : Dev) (g : Upd → Upd) : (d.onUpd g).pcie = d.pcie := rfl
@[simp] theorem Dev.onUpd_funcs (d : Dev) (g : Upd → Upd) : (d.onUpd g).funcs = d.funcs := rfl
@[simp] theorem Dev.onUpd_regs (d : Dev) (g : Upd → Upd) : (d.onUpd g).regs = d.regs := rfl
@[simp] theorem Dev.onUpd_ctrs (d : Dev) (g : Upd → Upd) : (d.onUpd g).ctrs = d.ctrs := rfl
@[simp] theorem Dev.onUpd_live (d : Dev) (g : Upd → Upd) : (d.onUpd g).live = d.live := rfl
@[simp] theorem Dev.onUpd_due (d : Dev) (g : Upd → Upd) : (d.onUpd g).due = d.due := rfl
@[simp] theorem Dev.onUpd_round (d : Dev) (g : Upd → Upd) : (d.onUpd g).round = d.round := rfl
@[simp] theorem Dev.onUpd_daeLogged (d : Dev) (g : Upd → Upd) : (d.onUpd g).daeLogged = d.daeLogged := rfl
@[simp] theorem Dev.onUpd_pon (d : Dev) (g : Upd → Upd) : (d.onUpd g).pon = d.pon := rfl
@[simp] theorem Dev.onUpd_data (d : Dev) (g : Upd → Upd) : (d.onUpd g).data = d.data := rfl
@[simp] theorem Dev.onUpd_red (d : Dev) (g : Upd → Upd) : (d.onUpd g).red = d.red := rfl
@[simp] theorem Dev.onUpd_mir (d : Dev) (g : Upd → Upd) : (d.onUpd g).mir = d.mir := rfl
@[simp] theorem Dev.onUpd_redch (d : Dev) (g : Upd → Upd) : (d.onUpd g).redch = d.redch := rfl
@[simp] theorem Dev.onUpd_meas (d : Dev) (g : Upd → Upd) : (d.onUpd g).meas = d.meas := rfl
@[simp] theorem Dev.onUpd_power (d : Dev) (g : Upd → Upd) : (d.onUpd g).power = d.power := rfl
@[simp] theorem Dev.onUpd_pav (d : Dev) (g : Upd → Upd) : (d.onUpd g).pav = d.pav := rfl
@[simp] theorem Dev.onUpd_otdr (d : Dev) (g : Upd → Upd) : (d.onUpd g).otdr = d.otdr := rfl
@[simp] theorem Dev.onCls_draws (d : Dev) (g : Cls → Cls) : (d.onCls g).draws = d.draws := rfl
@[simp] theorem Dev.onCls_out (d : Dev) (g : Cls → Cls) : (d.onCls g).out = d.out := rfl
@[simp] theorem Dev.onCls_boot (d : Dev) (g : Cls → Cls) : (d.onCls g).boot = d.boot := rfl
@[simp] theorem Dev.onCls_fuses (d : Dev) (g : Cls → Cls) : (d.onCls g).fuses = d.fuses := rfl
@[simp] theorem Dev.onCls_image (d : Dev) (g : Cls → Cls) : (d.onCls g).image = d.image := rfl
@[simp] theorem Dev.onCls_pins (d : Dev) (g : Cls → Cls) : (d.onCls g).pins = d.pins := rfl
@[simp] theorem Dev.onCls_time (d : Dev) (g : Cls → Cls) : (d.onCls g).time = d.time := rfl
@[simp] theorem Dev.onCls_pcie (d : Dev) (g : Cls → Cls) : (d.onCls g).pcie = d.pcie := rfl
@[simp] theorem Dev.onCls_funcs (d : Dev) (g : Cls → Cls) : (d.onCls g).funcs = d.funcs := rfl
@[simp] theorem Dev.onCls_regs (d : Dev) (g : Cls → Cls) : (d.onCls g).regs = d.regs := rfl
@[simp] theorem Dev.onCls_ctrs (d : Dev) (g : Cls → Cls) : (d.onCls g).ctrs = d.ctrs := rfl
@[simp] theorem Dev.onCls_live (d : Dev) (g : Cls → Cls) : (d.onCls g).live = d.live := rfl
@[simp] theorem Dev.onCls_due (d : Dev) (g : Cls → Cls) : (d.onCls g).due = d.due := rfl
@[simp] theorem Dev.onCls_round (d : Dev) (g : Cls → Cls) : (d.onCls g).round = d.round := rfl
@[simp] theorem Dev.onCls_daeLogged (d : Dev) (g : Cls → Cls) : (d.onCls g).daeLogged = d.daeLogged := rfl
@[simp] theorem Dev.onCls_pon (d : Dev) (g : Cls → Cls) : (d.onCls g).pon = d.pon := rfl
@[simp] theorem Dev.onCls_red (d : Dev) (g : Cls → Cls) : (d.onCls g).red = d.red := rfl
@[simp] theorem Dev.onCls_mir (d : Dev) (g : Cls → Cls) : (d.onCls g).mir = d.mir := rfl
@[simp] theorem Dev.onCls_redch (d : Dev) (g : Cls → Cls) : (d.onCls g).redch = d.redch := rfl
@[simp] theorem Dev.onCls_meas (d : Dev) (g : Cls → Cls) : (d.onCls g).meas = d.meas := rfl
@[simp] theorem Dev.onCls_power (d : Dev) (g : Cls → Cls) : (d.onCls g).power = d.power := rfl
@[simp] theorem Dev.onCls_pav (d : Dev) (g : Cls → Cls) : (d.onCls g).pav = d.pav := rfl
@[simp] theorem Dev.onCls_otdr (d : Dev) (g : Cls → Cls) : (d.onCls g).otdr = d.otdr := rfl
@[simp] theorem Dev.onCls_upd (d : Dev) (g : Cls → Cls) : (d.onCls g).upd = d.upd := rfl
@[simp] theorem Dev.onBuf_draws (d : Dev) (g : Buf → Buf) : (d.onBuf g).draws = d.draws := rfl
@[simp] theorem Dev.onBuf_out (d : Dev) (g : Buf → Buf) : (d.onBuf g).out = d.out := rfl
@[simp] theorem Dev.onBuf_boot (d : Dev) (g : Buf → Buf) : (d.onBuf g).boot = d.boot := rfl
@[simp] theorem Dev.onBuf_fuses (d : Dev) (g : Buf → Buf) : (d.onBuf g).fuses = d.fuses := rfl
@[simp] theorem Dev.onBuf_image (d : Dev) (g : Buf → Buf) : (d.onBuf g).image = d.image := rfl
@[simp] theorem Dev.onBuf_pins (d : Dev) (g : Buf → Buf) : (d.onBuf g).pins = d.pins := rfl
@[simp] theorem Dev.onBuf_time (d : Dev) (g : Buf → Buf) : (d.onBuf g).time = d.time := rfl
@[simp] theorem Dev.onBuf_pcie (d : Dev) (g : Buf → Buf) : (d.onBuf g).pcie = d.pcie := rfl
@[simp] theorem Dev.onBuf_funcs (d : Dev) (g : Buf → Buf) : (d.onBuf g).funcs = d.funcs := rfl
@[simp] theorem Dev.onBuf_regs (d : Dev) (g : Buf → Buf) : (d.onBuf g).regs = d.regs := rfl
@[simp] theorem Dev.onBuf_ctrs (d : Dev) (g : Buf → Buf) : (d.onBuf g).ctrs = d.ctrs := rfl
@[simp] theorem Dev.onBuf_live (d : Dev) (g : Buf → Buf) : (d.onBuf g).live = d.live := rfl
@[simp] theorem Dev.onBuf_due (d : Dev) (g : Buf → Buf) : (d.onBuf g).due = d.due := rfl
@[simp] theorem Dev.onBuf_round (d : Dev) (g : Buf → Buf) : (d.onBuf g).round = d.round := rfl
@[simp] theorem Dev.onBuf_daeLogged (d : Dev) (g : Buf → Buf) : (d.onBuf g).daeLogged = d.daeLogged := rfl
@[simp] theorem Dev.onBuf_pon (d : Dev) (g : Buf → Buf) : (d.onBuf g).pon = d.pon := rfl
@[simp] theorem Dev.onBuf_red (d : Dev) (g : Buf → Buf) : (d.onBuf g).red = d.red := rfl
@[simp] theorem Dev.onBuf_mir (d : Dev) (g : Buf → Buf) : (d.onBuf g).mir = d.mir := rfl
@[simp] theorem Dev.onBuf_redch (d : Dev) (g : Buf → Buf) : (d.onBuf g).redch = d.redch := rfl
@[simp] theorem Dev.onBuf_meas (d : Dev) (g : Buf → Buf) : (d.onBuf g).meas = d.meas := rfl
@[simp] theorem Dev.onBuf_power (d : Dev) (g : Buf → Buf) : (d.onBuf g).power = d.power := rfl
@[simp] theorem Dev.onBuf_pav (d : Dev) (g : Buf → Buf) : (d.onBuf g).pav = d.pav := rfl
@[simp] theorem Dev.onBuf_otdr (d : Dev) (g : Buf → Buf) : (d.onBuf g).otdr = d.otdr := rfl
@[simp] theorem Dev.onBuf_upd (d : Dev) (g : Buf → Buf) : (d.onBuf g).upd = d.upd := rfl
@[simp] theorem Dev.onTrie_draws (d : Dev) (g : Trie → Trie) : (d.onTrie g).draws = d.draws := rfl
@[simp] theorem Dev.onTrie_out (d : Dev) (g : Trie → Trie) : (d.onTrie g).out = d.out := rfl
@[simp] theorem Dev.onTrie_boot (d : Dev) (g : Trie → Trie) : (d.onTrie g).boot = d.boot := rfl
@[simp] theorem Dev.onTrie_fuses (d : Dev) (g : Trie → Trie) : (d.onTrie g).fuses = d.fuses := rfl
@[simp] theorem Dev.onTrie_image (d : Dev) (g : Trie → Trie) : (d.onTrie g).image = d.image := rfl
@[simp] theorem Dev.onTrie_pins (d : Dev) (g : Trie → Trie) : (d.onTrie g).pins = d.pins := rfl
@[simp] theorem Dev.onTrie_time (d : Dev) (g : Trie → Trie) : (d.onTrie g).time = d.time := rfl
@[simp] theorem Dev.onTrie_pcie (d : Dev) (g : Trie → Trie) : (d.onTrie g).pcie = d.pcie := rfl
@[simp] theorem Dev.onTrie_funcs (d : Dev) (g : Trie → Trie) : (d.onTrie g).funcs = d.funcs := rfl
@[simp] theorem Dev.onTrie_regs (d : Dev) (g : Trie → Trie) : (d.onTrie g).regs = d.regs := rfl
@[simp] theorem Dev.onTrie_ctrs (d : Dev) (g : Trie → Trie) : (d.onTrie g).ctrs = d.ctrs := rfl
@[simp] theorem Dev.onTrie_live (d : Dev) (g : Trie → Trie) : (d.onTrie g).live = d.live := rfl
@[simp] theorem Dev.onTrie_due (d : Dev) (g : Trie → Trie) : (d.onTrie g).due = d.due := rfl
@[simp] theorem Dev.onTrie_round (d : Dev) (g : Trie → Trie) : (d.onTrie g).round = d.round := rfl
@[simp] theorem Dev.onTrie_daeLogged (d : Dev) (g : Trie → Trie) : (d.onTrie g).daeLogged = d.daeLogged := rfl
@[simp] theorem Dev.onTrie_pon (d : Dev) (g : Trie → Trie) : (d.onTrie g).pon = d.pon := rfl
@[simp] theorem Dev.onTrie_red (d : Dev) (g : Trie → Trie) : (d.onTrie g).red = d.red := rfl
@[simp] theorem Dev.onTrie_mir (d : Dev) (g : Trie → Trie) : (d.onTrie g).mir = d.mir := rfl
@[simp] theorem Dev.onTrie_redch (d : Dev) (g : Trie → Trie) : (d.onTrie g).redch = d.redch := rfl
@[simp] theorem Dev.onTrie_meas (d : Dev) (g : Trie → Trie) : (d.onTrie g).meas = d.meas := rfl
@[simp] theorem Dev.onTrie_power (d : Dev) (g : Trie → Trie) : (d.onTrie g).power = d.power := rfl
@[simp] theorem Dev.onTrie_pav (d : Dev) (g : Trie → Trie) : (d.onTrie g).pav = d.pav := rfl
@[simp] theorem Dev.onTrie_otdr (d : Dev) (g : Trie → Trie) : (d.onTrie g).otdr = d.otdr := rfl
@[simp] theorem Dev.onTrie_upd (d : Dev) (g : Trie → Trie) : (d.onTrie g).upd = d.upd := rfl
@[simp] theorem Dev.onFn_draws (d : Dev) (i : Nat) (g : Func → Func) : (d.onFn i g).draws = d.draws := rfl
@[simp] theorem Dev.onFn_out (d : Dev) (i : Nat) (g : Func → Func) : (d.onFn i g).out = d.out := rfl
@[simp] theorem Dev.onFn_boot (d : Dev) (i : Nat) (g : Func → Func) : (d.onFn i g).boot = d.boot := rfl
@[simp] theorem Dev.onFn_fuses (d : Dev) (i : Nat) (g : Func → Func) : (d.onFn i g).fuses = d.fuses := rfl
@[simp] theorem Dev.onFn_image (d : Dev) (i : Nat) (g : Func → Func) : (d.onFn i g).image = d.image := rfl
@[simp] theorem Dev.onFn_pins (d : Dev) (i : Nat) (g : Func → Func) : (d.onFn i g).pins = d.pins := rfl
@[simp] theorem Dev.onFn_time (d : Dev) (i : Nat) (g : Func → Func) : (d.onFn i g).time = d.time := rfl
@[simp] theorem Dev.onFn_pcie (d : Dev) (i : Nat) (g : Func → Func) : (d.onFn i g).pcie = d.pcie := rfl
@[simp] theorem Dev.onFn_regs (d : Dev) (i : Nat) (g : Func → Func) : (d.onFn i g).regs = d.regs := rfl
@[simp] theorem Dev.onFn_ctrs (d : Dev) (i : Nat) (g : Func → Func) : (d.onFn i g).ctrs = d.ctrs := rfl
@[simp] theorem Dev.onFn_live (d : Dev) (i : Nat) (g : Func → Func) : (d.onFn i g).live = d.live := rfl
@[simp] theorem Dev.onFn_due (d : Dev) (i : Nat) (g : Func → Func) : (d.onFn i g).due = d.due := rfl
@[simp] theorem Dev.onFn_round (d : Dev) (i : Nat) (g : Func → Func) : (d.onFn i g).round = d.round := rfl
@[simp] theorem Dev.onFn_daeLogged (d : Dev) (i : Nat) (g : Func → Func) : (d.onFn i g).daeLogged = d.daeLogged := rfl
@[simp] theorem Dev.onFn_pon (d : Dev) (i : Nat) (g : Func → Func) : (d.onFn i g).pon = d.pon := rfl
@[simp] theorem Dev.onFn_data (d : Dev) (i : Nat) (g : Func → Func) : (d.onFn i g).data = d.data := rfl
@[simp] theorem Dev.onFn_red (d : Dev) (i : Nat) (g : Func → Func) : (d.onFn i g).red = d.red := rfl
@[simp] theorem Dev.onFn_mir (d : Dev) (i : Nat) (g : Func → Func) : (d.onFn i g).mir = d.mir := rfl
@[simp] theorem Dev.onFn_redch (d : Dev) (i : Nat) (g : Func → Func) : (d.onFn i g).redch = d.redch := rfl
@[simp] theorem Dev.onFn_meas (d : Dev) (i : Nat) (g : Func → Func) : (d.onFn i g).meas = d.meas := rfl
@[simp] theorem Dev.onFn_power (d : Dev) (i : Nat) (g : Func → Func) : (d.onFn i g).power = d.power := rfl
@[simp] theorem Dev.onFn_pav (d : Dev) (i : Nat) (g : Func → Func) : (d.onFn i g).pav = d.pav := rfl
@[simp] theorem Dev.onFn_otdr (d : Dev) (i : Nat) (g : Func → Func) : (d.onFn i g).otdr = d.otdr := rfl
@[simp] theorem Dev.onFn_upd (d : Dev) (i : Nat) (g : Func → Func) : (d.onFn i g).upd = d.upd := rfl
@[simp] theorem Dev.onKiosk_draws (d : Dev) (i : Nat) (g : Kiosk → Kiosk) : (d.onKiosk i g).draws = d.draws := rfl
@[simp] theorem Dev.onKiosk_out (d : Dev) (i : Nat) (g : Kiosk → Kiosk) : (d.onKiosk i g).out = d.out := rfl
@[simp] theorem Dev.onKiosk_boot (d : Dev) (i : Nat) (g : Kiosk → Kiosk) : (d.onKiosk i g).boot = d.boot := rfl
@[simp] theorem Dev.onKiosk_fuses (d : Dev) (i : Nat) (g : Kiosk → Kiosk) : (d.onKiosk i g).fuses = d.fuses := rfl
@[simp] theorem Dev.onKiosk_image (d : Dev) (i : Nat) (g : Kiosk → Kiosk) : (d.onKiosk i g).image = d.image := rfl
@[simp] theorem Dev.onKiosk_pins (d : Dev) (i : Nat) (g : Kiosk → Kiosk) : (d.onKiosk i g).pins = d.pins := rfl
@[simp] theorem Dev.onKiosk_time (d : Dev) (i : Nat) (g : Kiosk → Kiosk) : (d.onKiosk i g).time = d.time := rfl
@[simp] theorem Dev.onKiosk_pcie (d : Dev) (i : Nat) (g : Kiosk → Kiosk) : (d.onKiosk i g).pcie = d.pcie := rfl
@[simp] theorem Dev.onKiosk_regs (d : Dev) (i : Nat) (g : Kiosk → Kiosk) : (d.onKiosk i g).regs = d.regs := rfl
@[simp] theorem Dev.onKiosk_ctrs (d : Dev) (i : Nat) (g : Kiosk → Kiosk) : (d.onKiosk i g).ctrs = d.ctrs := rfl
@[simp] theorem Dev.onKiosk_live (d : Dev) (i : Nat) (g : Kiosk → Kiosk) : (d.onKiosk i g).live = d.live := rfl
@[simp] theorem Dev.onKiosk_due (d : Dev) (i : Nat) (g : Kiosk → Kiosk) : (d.onKiosk i g).due = d.due := rfl
@[simp] theorem Dev.onKiosk_round (d : Dev) (i : Nat) (g : Kiosk → Kiosk) : (d.onKiosk i g).round = d.round := rfl
@[simp] theorem Dev.onKiosk_daeLogged (d : Dev) (i : Nat) (g : Kiosk → Kiosk) : (d.onKiosk i g).daeLogged = d.daeLogged := rfl
@[simp] theorem Dev.onKiosk_pon (d : Dev) (i : Nat) (g : Kiosk → Kiosk) : (d.onKiosk i g).pon = d.pon := rfl
@[simp] theorem Dev.onKiosk_data (d : Dev) (i : Nat) (g : Kiosk → Kiosk) : (d.onKiosk i g).data = d.data := rfl
@[simp] theorem Dev.onKiosk_red (d : Dev) (i : Nat) (g : Kiosk → Kiosk) : (d.onKiosk i g).red = d.red := rfl
@[simp] theorem Dev.onKiosk_mir (d : Dev) (i : Nat) (g : Kiosk → Kiosk) : (d.onKiosk i g).mir = d.mir := rfl
@[simp] theorem Dev.onKiosk_redch (d : Dev) (i : Nat) (g : Kiosk → Kiosk) : (d.onKiosk i g).redch = d.redch := rfl
@[simp] theorem Dev.onKiosk_meas (d : Dev) (i : Nat) (g : Kiosk → Kiosk) : (d.onKiosk i g).meas = d.meas := rfl
@[simp] theorem Dev.onKiosk_power (d : Dev) (i : Nat) (g : Kiosk → Kiosk) : (d.onKiosk i g).power = d.power := rfl
@[simp] theorem Dev.onKiosk_pav (d : Dev) (i : Nat) (g : Kiosk → Kiosk) : (d.onKiosk i g).pav = d.pav := rfl
@[simp] theorem Dev.onKiosk_otdr (d : Dev) (i : Nat) (g : Kiosk → Kiosk) : (d.onKiosk i g).otdr = d.otdr := rfl
@[simp] theorem Dev.onKiosk_upd (d : Dev) (i : Nat) (g : Kiosk → Kiosk) : (d.onKiosk i g).upd = d.upd := rfl
@[simp] theorem Dev.onPage_draws (d : Dev) (i : Nat) (g : Page → Page) : (d.onPage i g).draws = d.draws := rfl
@[simp] theorem Dev.onPage_out (d : Dev) (i : Nat) (g : Page → Page) : (d.onPage i g).out = d.out := rfl
@[simp] theorem Dev.onPage_boot (d : Dev) (i : Nat) (g : Page → Page) : (d.onPage i g).boot = d.boot := rfl
@[simp] theorem Dev.onPage_fuses (d : Dev) (i : Nat) (g : Page → Page) : (d.onPage i g).fuses = d.fuses := rfl
@[simp] theorem Dev.onPage_image (d : Dev) (i : Nat) (g : Page → Page) : (d.onPage i g).image = d.image := rfl
@[simp] theorem Dev.onPage_pins (d : Dev) (i : Nat) (g : Page → Page) : (d.onPage i g).pins = d.pins := rfl
@[simp] theorem Dev.onPage_time (d : Dev) (i : Nat) (g : Page → Page) : (d.onPage i g).time = d.time := rfl
@[simp] theorem Dev.onPage_pcie (d : Dev) (i : Nat) (g : Page → Page) : (d.onPage i g).pcie = d.pcie := rfl
@[simp] theorem Dev.onPage_regs (d : Dev) (i : Nat) (g : Page → Page) : (d.onPage i g).regs = d.regs := rfl
@[simp] theorem Dev.onPage_ctrs (d : Dev) (i : Nat) (g : Page → Page) : (d.onPage i g).ctrs = d.ctrs := rfl
@[simp] theorem Dev.onPage_live (d : Dev) (i : Nat) (g : Page → Page) : (d.onPage i g).live = d.live := rfl
@[simp] theorem Dev.onPage_due (d : Dev) (i : Nat) (g : Page → Page) : (d.onPage i g).due = d.due := rfl
@[simp] theorem Dev.onPage_round (d : Dev) (i : Nat) (g : Page → Page) : (d.onPage i g).round = d.round := rfl
@[simp] theorem Dev.onPage_daeLogged (d : Dev) (i : Nat) (g : Page → Page) : (d.onPage i g).daeLogged = d.daeLogged := rfl
@[simp] theorem Dev.onPage_pon (d : Dev) (i : Nat) (g : Page → Page) : (d.onPage i g).pon = d.pon := rfl
@[simp] theorem Dev.onPage_data (d : Dev) (i : Nat) (g : Page → Page) : (d.onPage i g).data = d.data := rfl
@[simp] theorem Dev.onPage_red (d : Dev) (i : Nat) (g : Page → Page) : (d.onPage i g).red = d.red := rfl
@[simp] theorem Dev.onPage_mir (d : Dev) (i : Nat) (g : Page → Page) : (d.onPage i g).mir = d.mir := rfl
@[simp] theorem Dev.onPage_redch (d : Dev) (i : Nat) (g : Page → Page) : (d.onPage i g).redch = d.redch := rfl
@[simp] theorem Dev.onPage_meas (d : Dev) (i : Nat) (g : Page → Page) : (d.onPage i g).meas = d.meas := rfl
@[simp] theorem Dev.onPage_power (d : Dev) (i : Nat) (g : Page → Page) : (d.onPage i g).power = d.power := rfl
@[simp] theorem Dev.onPage_pav (d : Dev) (i : Nat) (g : Page → Page) : (d.onPage i g).pav = d.pav := rfl
@[simp] theorem Dev.onPage_otdr (d : Dev) (i : Nat) (g : Page → Page) : (d.onPage i g).otdr = d.otdr := rfl
@[simp] theorem Dev.onPage_upd (d : Dev) (i : Nat) (g : Page → Page) : (d.onPage i g).upd = d.upd := rfl
@[simp] theorem Dev.onCw_draws (d : Dev) (i : Nat) (g : Window → Window) : (d.onCw i g).draws = d.draws := rfl
@[simp] theorem Dev.onCw_out (d : Dev) (i : Nat) (g : Window → Window) : (d.onCw i g).out = d.out := rfl
@[simp] theorem Dev.onCw_boot (d : Dev) (i : Nat) (g : Window → Window) : (d.onCw i g).boot = d.boot := rfl
@[simp] theorem Dev.onCw_fuses (d : Dev) (i : Nat) (g : Window → Window) : (d.onCw i g).fuses = d.fuses := rfl
@[simp] theorem Dev.onCw_image (d : Dev) (i : Nat) (g : Window → Window) : (d.onCw i g).image = d.image := rfl
@[simp] theorem Dev.onCw_pins (d : Dev) (i : Nat) (g : Window → Window) : (d.onCw i g).pins = d.pins := rfl
@[simp] theorem Dev.onCw_time (d : Dev) (i : Nat) (g : Window → Window) : (d.onCw i g).time = d.time := rfl
@[simp] theorem Dev.onCw_pcie (d : Dev) (i : Nat) (g : Window → Window) : (d.onCw i g).pcie = d.pcie := rfl
@[simp] theorem Dev.onCw_regs (d : Dev) (i : Nat) (g : Window → Window) : (d.onCw i g).regs = d.regs := rfl
@[simp] theorem Dev.onCw_ctrs (d : Dev) (i : Nat) (g : Window → Window) : (d.onCw i g).ctrs = d.ctrs := rfl
@[simp] theorem Dev.onCw_live (d : Dev) (i : Nat) (g : Window → Window) : (d.onCw i g).live = d.live := rfl
@[simp] theorem Dev.onCw_due (d : Dev) (i : Nat) (g : Window → Window) : (d.onCw i g).due = d.due := rfl
@[simp] theorem Dev.onCw_round (d : Dev) (i : Nat) (g : Window → Window) : (d.onCw i g).round = d.round := rfl
@[simp] theorem Dev.onCw_daeLogged (d : Dev) (i : Nat) (g : Window → Window) : (d.onCw i g).daeLogged = d.daeLogged := rfl
@[simp] theorem Dev.onCw_pon (d : Dev) (i : Nat) (g : Window → Window) : (d.onCw i g).pon = d.pon := rfl
@[simp] theorem Dev.onCw_data (d : Dev) (i : Nat) (g : Window → Window) : (d.onCw i g).data = d.data := rfl
@[simp] theorem Dev.onCw_red (d : Dev) (i : Nat) (g : Window → Window) : (d.onCw i g).red = d.red := rfl
@[simp] theorem Dev.onCw_mir (d : Dev) (i : Nat) (g : Window → Window) : (d.onCw i g).mir = d.mir := rfl
@[simp] theorem Dev.onCw_redch (d : Dev) (i : Nat) (g : Window → Window) : (d.onCw i g).redch = d.redch := rfl
@[simp] theorem Dev.onCw_meas (d : Dev) (i : Nat) (g : Window → Window) : (d.onCw i g).meas = d.meas := rfl
@[simp] theorem Dev.onCw_power (d : Dev) (i : Nat) (g : Window → Window) : (d.onCw i g).power = d.power := rfl
@[simp] theorem Dev.onCw_pav (d : Dev) (i : Nat) (g : Window → Window) : (d.onCw i g).pav = d.pav := rfl
@[simp] theorem Dev.onCw_otdr (d : Dev) (i : Nat) (g : Window → Window) : (d.onCw i g).otdr = d.otdr := rfl
@[simp] theorem Dev.onCw_upd (d : Dev) (i : Nat) (g : Window → Window) : (d.onCw i g).upd = d.upd := rfl
@[simp] theorem Dev.onChan_draws (d : Dev) (i : Nat) (g : Chan → Chan) : (d.onChan i g).draws = d.draws := rfl
@[simp] theorem Dev.onChan_out (d : Dev) (i : Nat) (g : Chan → Chan) : (d.onChan i g).out = d.out := rfl
@[simp] theorem Dev.onChan_boot (d : Dev) (i : Nat) (g : Chan → Chan) : (d.onChan i g).boot = d.boot := rfl
@[simp] theorem Dev.onChan_fuses (d : Dev) (i : Nat) (g : Chan → Chan) : (d.onChan i g).fuses = d.fuses := rfl
@[simp] theorem Dev.onChan_image (d : Dev) (i : Nat) (g : Chan → Chan) : (d.onChan i g).image = d.image := rfl
@[simp] theorem Dev.onChan_pins (d : Dev) (i : Nat) (g : Chan → Chan) : (d.onChan i g).pins = d.pins := rfl
@[simp] theorem Dev.onChan_time (d : Dev) (i : Nat) (g : Chan → Chan) : (d.onChan i g).time = d.time := rfl
@[simp] theorem Dev.onChan_pcie (d : Dev) (i : Nat) (g : Chan → Chan) : (d.onChan i g).pcie = d.pcie := rfl
@[simp] theorem Dev.onChan_funcs (d : Dev) (i : Nat) (g : Chan → Chan) : (d.onChan i g).funcs = d.funcs := rfl
@[simp] theorem Dev.onChan_regs (d : Dev) (i : Nat) (g : Chan → Chan) : (d.onChan i g).regs = d.regs := rfl
@[simp] theorem Dev.onChan_ctrs (d : Dev) (i : Nat) (g : Chan → Chan) : (d.onChan i g).ctrs = d.ctrs := rfl
@[simp] theorem Dev.onChan_live (d : Dev) (i : Nat) (g : Chan → Chan) : (d.onChan i g).live = d.live := rfl
@[simp] theorem Dev.onChan_due (d : Dev) (i : Nat) (g : Chan → Chan) : (d.onChan i g).due = d.due := rfl
@[simp] theorem Dev.onChan_round (d : Dev) (i : Nat) (g : Chan → Chan) : (d.onChan i g).round = d.round := rfl
@[simp] theorem Dev.onChan_daeLogged (d : Dev) (i : Nat) (g : Chan → Chan) : (d.onChan i g).daeLogged = d.daeLogged := rfl
@[simp] theorem Dev.onChan_data (d : Dev) (i : Nat) (g : Chan → Chan) : (d.onChan i g).data = d.data := rfl
@[simp] theorem Dev.onChan_red (d : Dev) (i : Nat) (g : Chan → Chan) : (d.onChan i g).red = d.red := rfl
@[simp] theorem Dev.onChan_mir (d : Dev) (i : Nat) (g : Chan → Chan) : (d.onChan i g).mir = d.mir := rfl
@[simp] theorem Dev.onChan_redch (d : Dev) (i : Nat) (g : Chan → Chan) : (d.onChan i g).redch = d.redch := rfl
@[simp] theorem Dev.onChan_meas (d : Dev) (i : Nat) (g : Chan → Chan) : (d.onChan i g).meas = d.meas := rfl
@[simp] theorem Dev.onChan_power (d : Dev) (i : Nat) (g : Chan → Chan) : (d.onChan i g).power = d.power := rfl
@[simp] theorem Dev.onChan_pav (d : Dev) (i : Nat) (g : Chan → Chan) : (d.onChan i g).pav = d.pav := rfl
@[simp] theorem Dev.onChan_otdr (d : Dev) (i : Nat) (g : Chan → Chan) : (d.onChan i g).otdr = d.otdr := rfl
@[simp] theorem Dev.onChan_upd (d : Dev) (i : Nat) (g : Chan → Chan) : (d.onChan i g).upd = d.upd := rfl
@[simp] theorem Dev.onRecv_draws (d : Dev) (i : Nat) (g : Recv → Recv) : (d.onRecv i g).draws = d.draws := rfl
@[simp] theorem Dev.onRecv_out (d : Dev) (i : Nat) (g : Recv → Recv) : (d.onRecv i g).out = d.out := rfl
@[simp] theorem Dev.onRecv_boot (d : Dev) (i : Nat) (g : Recv → Recv) : (d.onRecv i g).boot = d.boot := rfl
@[simp] theorem Dev.onRecv_fuses (d : Dev) (i : Nat) (g : Recv → Recv) : (d.onRecv i g).fuses = d.fuses := rfl
@[simp] theorem Dev.onRecv_image (d : Dev) (i : Nat) (g : Recv → Recv) : (d.onRecv i g).image = d.image := rfl
@[simp] theorem Dev.onRecv_pins (d : Dev) (i : Nat) (g : Recv → Recv) : (d.onRecv i g).pins = d.pins := rfl
@[simp] theorem Dev.onRecv_time (d : Dev) (i : Nat) (g : Recv → Recv) : (d.onRecv i g).time = d.time := rfl
@[simp] theorem Dev.onRecv_pcie (d : Dev) (i : Nat) (g : Recv → Recv) : (d.onRecv i g).pcie = d.pcie := rfl
@[simp] theorem Dev.onRecv_funcs (d : Dev) (i : Nat) (g : Recv → Recv) : (d.onRecv i g).funcs = d.funcs := rfl
@[simp] theorem Dev.onRecv_regs (d : Dev) (i : Nat) (g : Recv → Recv) : (d.onRecv i g).regs = d.regs := rfl
@[simp] theorem Dev.onRecv_ctrs (d : Dev) (i : Nat) (g : Recv → Recv) : (d.onRecv i g).ctrs = d.ctrs := rfl
@[simp] theorem Dev.onRecv_live (d : Dev) (i : Nat) (g : Recv → Recv) : (d.onRecv i g).live = d.live := rfl
@[simp] theorem Dev.onRecv_due (d : Dev) (i : Nat) (g : Recv → Recv) : (d.onRecv i g).due = d.due := rfl
@[simp] theorem Dev.onRecv_round (d : Dev) (i : Nat) (g : Recv → Recv) : (d.onRecv i g).round = d.round := rfl
@[simp] theorem Dev.onRecv_daeLogged (d : Dev) (i : Nat) (g : Recv → Recv) : (d.onRecv i g).daeLogged = d.daeLogged := rfl
@[simp] theorem Dev.onRecv_data (d : Dev) (i : Nat) (g : Recv → Recv) : (d.onRecv i g).data = d.data := rfl
@[simp] theorem Dev.onRecv_red (d : Dev) (i : Nat) (g : Recv → Recv) : (d.onRecv i g).red = d.red := rfl
@[simp] theorem Dev.onRecv_mir (d : Dev) (i : Nat) (g : Recv → Recv) : (d.onRecv i g).mir = d.mir := rfl
@[simp] theorem Dev.onRecv_redch (d : Dev) (i : Nat) (g : Recv → Recv) : (d.onRecv i g).redch = d.redch := rfl
@[simp] theorem Dev.onRecv_meas (d : Dev) (i : Nat) (g : Recv → Recv) : (d.onRecv i g).meas = d.meas := rfl
@[simp] theorem Dev.onRecv_power (d : Dev) (i : Nat) (g : Recv → Recv) : (d.onRecv i g).power = d.power := rfl
@[simp] theorem Dev.onRecv_pav (d : Dev) (i : Nat) (g : Recv → Recv) : (d.onRecv i g).pav = d.pav := rfl
@[simp] theorem Dev.onRecv_otdr (d : Dev) (i : Nat) (g : Recv → Recv) : (d.onRecv i g).otdr = d.otdr := rfl
@[simp] theorem Dev.onRecv_upd (d : Dev) (i : Nat) (g : Recv → Recv) : (d.onRecv i g).upd = d.upd := rfl
@[simp] theorem Dev.onOnu_draws (d : Dev) (i : Nat) (g : Onu → Onu) : (d.onOnu i g).draws = d.draws := rfl
@[simp] theorem Dev.onOnu_out (d : Dev) (i : Nat) (g : Onu → Onu) : (d.onOnu i g).out = d.out := rfl
@[simp] theorem Dev.onOnu_boot (d : Dev) (i : Nat) (g : Onu → Onu) : (d.onOnu i g).boot = d.boot := rfl
@[simp] theorem Dev.onOnu_fuses (d : Dev) (i : Nat) (g : Onu → Onu) : (d.onOnu i g).fuses = d.fuses := rfl
@[simp] theorem Dev.onOnu_image (d : Dev) (i : Nat) (g : Onu → Onu) : (d.onOnu i g).image = d.image := rfl
@[simp] theorem Dev.onOnu_pins (d : Dev) (i : Nat) (g : Onu → Onu) : (d.onOnu i g).pins = d.pins := rfl
@[simp] theorem Dev.onOnu_time (d : Dev) (i : Nat) (g : Onu → Onu) : (d.onOnu i g).time = d.time := rfl
@[simp] theorem Dev.onOnu_pcie (d : Dev) (i : Nat) (g : Onu → Onu) : (d.onOnu i g).pcie = d.pcie := rfl
@[simp] theorem Dev.onOnu_funcs (d : Dev) (i : Nat) (g : Onu → Onu) : (d.onOnu i g).funcs = d.funcs := rfl
@[simp] theorem Dev.onOnu_regs (d : Dev) (i : Nat) (g : Onu → Onu) : (d.onOnu i g).regs = d.regs := rfl
@[simp] theorem Dev.onOnu_ctrs (d : Dev) (i : Nat) (g : Onu → Onu) : (d.onOnu i g).ctrs = d.ctrs := rfl
@[simp] theorem Dev.onOnu_live (d : Dev) (i : Nat) (g : Onu → Onu) : (d.onOnu i g).live = d.live := rfl
@[simp] theorem Dev.onOnu_due (d : Dev) (i : Nat) (g : Onu → Onu) : (d.onOnu i g).due = d.due := rfl
@[simp] theorem Dev.onOnu_round (d : Dev) (i : Nat) (g : Onu → Onu) : (d.onOnu i g).round = d.round := rfl
@[simp] theorem Dev.onOnu_daeLogged (d : Dev) (i : Nat) (g : Onu → Onu) : (d.onOnu i g).daeLogged = d.daeLogged := rfl
@[simp] theorem Dev.onOnu_data (d : Dev) (i : Nat) (g : Onu → Onu) : (d.onOnu i g).data = d.data := rfl
@[simp] theorem Dev.onOnu_red (d : Dev) (i : Nat) (g : Onu → Onu) : (d.onOnu i g).red = d.red := rfl
@[simp] theorem Dev.onOnu_mir (d : Dev) (i : Nat) (g : Onu → Onu) : (d.onOnu i g).mir = d.mir := rfl
@[simp] theorem Dev.onOnu_redch (d : Dev) (i : Nat) (g : Onu → Onu) : (d.onOnu i g).redch = d.redch := rfl
@[simp] theorem Dev.onOnu_meas (d : Dev) (i : Nat) (g : Onu → Onu) : (d.onOnu i g).meas = d.meas := rfl
@[simp] theorem Dev.onOnu_power (d : Dev) (i : Nat) (g : Onu → Onu) : (d.onOnu i g).power = d.power := rfl
@[simp] theorem Dev.onOnu_pav (d : Dev) (i : Nat) (g : Onu → Onu) : (d.onOnu i g).pav = d.pav := rfl
@[simp] theorem Dev.onOnu_otdr (d : Dev) (i : Nat) (g : Onu → Onu) : (d.onOnu i g).otdr = d.otdr := rfl
@[simp] theorem Dev.onOnu_upd (d : Dev) (i : Nat) (g : Onu → Onu) : (d.onOnu i g).upd = d.upd := rfl
@[simp] theorem Dev.onTree_draws (d : Dev) (i : Nat) (g : Tree → Tree) : (d.onTree i g).draws = d.draws := rfl
@[simp] theorem Dev.onTree_out (d : Dev) (i : Nat) (g : Tree → Tree) : (d.onTree i g).out = d.out := rfl
@[simp] theorem Dev.onTree_boot (d : Dev) (i : Nat) (g : Tree → Tree) : (d.onTree i g).boot = d.boot := rfl
@[simp] theorem Dev.onTree_fuses (d : Dev) (i : Nat) (g : Tree → Tree) : (d.onTree i g).fuses = d.fuses := rfl
@[simp] theorem Dev.onTree_image (d : Dev) (i : Nat) (g : Tree → Tree) : (d.onTree i g).image = d.image := rfl
@[simp] theorem Dev.onTree_pins (d : Dev) (i : Nat) (g : Tree → Tree) : (d.onTree i g).pins = d.pins := rfl
@[simp] theorem Dev.onTree_time (d : Dev) (i : Nat) (g : Tree → Tree) : (d.onTree i g).time = d.time := rfl
@[simp] theorem Dev.onTree_pcie (d : Dev) (i : Nat) (g : Tree → Tree) : (d.onTree i g).pcie = d.pcie := rfl
@[simp] theorem Dev.onTree_funcs (d : Dev) (i : Nat) (g : Tree → Tree) : (d.onTree i g).funcs = d.funcs := rfl
@[simp] theorem Dev.onTree_regs (d : Dev) (i : Nat) (g : Tree → Tree) : (d.onTree i g).regs = d.regs := rfl
@[simp] theorem Dev.onTree_ctrs (d : Dev) (i : Nat) (g : Tree → Tree) : (d.onTree i g).ctrs = d.ctrs := rfl
@[simp] theorem Dev.onTree_live (d : Dev) (i : Nat) (g : Tree → Tree) : (d.onTree i g).live = d.live := rfl
@[simp] theorem Dev.onTree_due (d : Dev) (i : Nat) (g : Tree → Tree) : (d.onTree i g).due = d.due := rfl
@[simp] theorem Dev.onTree_round (d : Dev) (i : Nat) (g : Tree → Tree) : (d.onTree i g).round = d.round := rfl
@[simp] theorem Dev.onTree_daeLogged (d : Dev) (i : Nat) (g : Tree → Tree) : (d.onTree i g).daeLogged = d.daeLogged := rfl
@[simp] theorem Dev.onTree_data (d : Dev) (i : Nat) (g : Tree → Tree) : (d.onTree i g).data = d.data := rfl
@[simp] theorem Dev.onTree_red (d : Dev) (i : Nat) (g : Tree → Tree) : (d.onTree i g).red = d.red := rfl
@[simp] theorem Dev.onTree_mir (d : Dev) (i : Nat) (g : Tree → Tree) : (d.onTree i g).mir = d.mir := rfl
@[simp] theorem Dev.onTree_redch (d : Dev) (i : Nat) (g : Tree → Tree) : (d.onTree i g).redch = d.redch := rfl
@[simp] theorem Dev.onTree_meas (d : Dev) (i : Nat) (g : Tree → Tree) : (d.onTree i g).meas = d.meas := rfl
@[simp] theorem Dev.onTree_power (d : Dev) (i : Nat) (g : Tree → Tree) : (d.onTree i g).power = d.power := rfl
@[simp] theorem Dev.onTree_pav (d : Dev) (i : Nat) (g : Tree → Tree) : (d.onTree i g).pav = d.pav := rfl
@[simp] theorem Dev.onTree_otdr (d : Dev) (i : Nat) (g : Tree → Tree) : (d.onTree i g).otdr = d.otdr := rfl
@[simp] theorem Dev.onTree_upd (d : Dev) (i : Nat) (g : Tree → Tree) : (d.onTree i g).upd = d.upd := rfl
@[simp] theorem Dev.onAlloc_draws (d : Dev) (i : Nat) (g : Alloc → Alloc) : (d.onAlloc i g).draws = d.draws := rfl
@[simp] theorem Dev.onAlloc_out (d : Dev) (i : Nat) (g : Alloc → Alloc) : (d.onAlloc i g).out = d.out := rfl
@[simp] theorem Dev.onAlloc_boot (d : Dev) (i : Nat) (g : Alloc → Alloc) : (d.onAlloc i g).boot = d.boot := rfl
@[simp] theorem Dev.onAlloc_fuses (d : Dev) (i : Nat) (g : Alloc → Alloc) : (d.onAlloc i g).fuses = d.fuses := rfl
@[simp] theorem Dev.onAlloc_image (d : Dev) (i : Nat) (g : Alloc → Alloc) : (d.onAlloc i g).image = d.image := rfl
@[simp] theorem Dev.onAlloc_pins (d : Dev) (i : Nat) (g : Alloc → Alloc) : (d.onAlloc i g).pins = d.pins := rfl
@[simp] theorem Dev.onAlloc_time (d : Dev) (i : Nat) (g : Alloc → Alloc) : (d.onAlloc i g).time = d.time := rfl
@[simp] theorem Dev.onAlloc_pcie (d : Dev) (i : Nat) (g : Alloc → Alloc) : (d.onAlloc i g).pcie = d.pcie := rfl
@[simp] theorem Dev.onAlloc_funcs (d : Dev) (i : Nat) (g : Alloc → Alloc) : (d.onAlloc i g).funcs = d.funcs := rfl
@[simp] theorem Dev.onAlloc_regs (d : Dev) (i : Nat) (g : Alloc → Alloc) : (d.onAlloc i g).regs = d.regs := rfl
@[simp] theorem Dev.onAlloc_ctrs (d : Dev) (i : Nat) (g : Alloc → Alloc) : (d.onAlloc i g).ctrs = d.ctrs := rfl
@[simp] theorem Dev.onAlloc_live (d : Dev) (i : Nat) (g : Alloc → Alloc) : (d.onAlloc i g).live = d.live := rfl
@[simp] theorem Dev.onAlloc_due (d : Dev) (i : Nat) (g : Alloc → Alloc) : (d.onAlloc i g).due = d.due := rfl
@[simp] theorem Dev.onAlloc_round (d : Dev) (i : Nat) (g : Alloc → Alloc) : (d.onAlloc i g).round = d.round := rfl
@[simp] theorem Dev.onAlloc_daeLogged (d : Dev) (i : Nat) (g : Alloc → Alloc) : (d.onAlloc i g).daeLogged = d.daeLogged := rfl
@[simp] theorem Dev.onAlloc_data (d : Dev) (i : Nat) (g : Alloc → Alloc) : (d.onAlloc i g).data = d.data := rfl
@[simp] theorem Dev.onAlloc_red (d : Dev) (i : Nat) (g : Alloc → Alloc) : (d.onAlloc i g).red = d.red := rfl
@[simp] theorem Dev.onAlloc_mir (d : Dev) (i : Nat) (g : Alloc → Alloc) : (d.onAlloc i g).mir = d.mir := rfl
@[simp] theorem Dev.onAlloc_redch (d : Dev) (i : Nat) (g : Alloc → Alloc) : (d.onAlloc i g).redch = d.redch := rfl
@[simp] theorem Dev.onAlloc_meas (d : Dev) (i : Nat) (g : Alloc → Alloc) : (d.onAlloc i g).meas = d.meas := rfl
@[simp] theorem Dev.onAlloc_power (d : Dev) (i : Nat) (g : Alloc → Alloc) : (d.onAlloc i g).power = d.power := rfl
@[simp] theorem Dev.onAlloc_pav (d : Dev) (i : Nat) (g : Alloc → Alloc) : (d.onAlloc i g).pav = d.pav := rfl
@[simp] theorem Dev.onAlloc_otdr (d : Dev) (i : Nat) (g : Alloc → Alloc) : (d.onAlloc i g).otdr = d.otdr := rfl
@[simp] theorem Dev.onAlloc_upd (d : Dev) (i : Nat) (g : Alloc → Alloc) : (d.onAlloc i g).upd = d.upd := rfl
@[simp] theorem Dev.onFlow_draws (d : Dev) (i : Nat) (g : Flow → Flow) : (d.onFlow i g).draws = d.draws := rfl
@[simp] theorem Dev.onFlow_out (d : Dev) (i : Nat) (g : Flow → Flow) : (d.onFlow i g).out = d.out := rfl
@[simp] theorem Dev.onFlow_boot (d : Dev) (i : Nat) (g : Flow → Flow) : (d.onFlow i g).boot = d.boot := rfl
@[simp] theorem Dev.onFlow_fuses (d : Dev) (i : Nat) (g : Flow → Flow) : (d.onFlow i g).fuses = d.fuses := rfl
@[simp] theorem Dev.onFlow_image (d : Dev) (i : Nat) (g : Flow → Flow) : (d.onFlow i g).image = d.image := rfl
@[simp] theorem Dev.onFlow_pins (d : Dev) (i : Nat) (g : Flow → Flow) : (d.onFlow i g).pins = d.pins := rfl
@[simp] theorem Dev.onFlow_time (d : Dev) (i : Nat) (g : Flow → Flow) : (d.onFlow i g).time = d.time := rfl
@[simp] theorem Dev.onFlow_pcie (d : Dev) (i : Nat) (g : Flow → Flow) : (d.onFlow i g).pcie = d.pcie := rfl
@[simp] theorem Dev.onFlow_funcs (d : Dev) (i : Nat) (g : Flow → Flow) : (d.onFlow i g).funcs = d.funcs := rfl
@[simp] theorem Dev.onFlow_regs (d : Dev) (i : Nat) (g : Flow → Flow) : (d.onFlow i g).regs = d.regs := rfl
@[simp] theorem Dev.onFlow_ctrs (d : Dev) (i : Nat) (g : Flow → Flow) : (d.onFlow i g).ctrs = d.ctrs := rfl
@[simp] theorem Dev.onFlow_live (d : Dev) (i : Nat) (g : Flow → Flow) : (d.onFlow i g).live = d.live := rfl
@[simp] theorem Dev.onFlow_due (d : Dev) (i : Nat) (g : Flow → Flow) : (d.onFlow i g).due = d.due := rfl
@[simp] theorem Dev.onFlow_round (d : Dev) (i : Nat) (g : Flow → Flow) : (d.onFlow i g).round = d.round := rfl
@[simp] theorem Dev.onFlow_daeLogged (d : Dev) (i : Nat) (g : Flow → Flow) : (d.onFlow i g).daeLogged = d.daeLogged := rfl
@[simp] theorem Dev.onFlow_data (d : Dev) (i : Nat) (g : Flow → Flow) : (d.onFlow i g).data = d.data := rfl
@[simp] theorem Dev.onFlow_red (d : Dev) (i : Nat) (g : Flow → Flow) : (d.onFlow i g).red = d.red := rfl
@[simp] theorem Dev.onFlow_mir (d : Dev) (i : Nat) (g : Flow → Flow) : (d.onFlow i g).mir = d.mir := rfl
@[simp] theorem Dev.onFlow_redch (d : Dev) (i : Nat) (g : Flow → Flow) : (d.onFlow i g).redch = d.redch := rfl
@[simp] theorem Dev.onFlow_meas (d : Dev) (i : Nat) (g : Flow → Flow) : (d.onFlow i g).meas = d.meas := rfl
@[simp] theorem Dev.onFlow_power (d : Dev) (i : Nat) (g : Flow → Flow) : (d.onFlow i g).power = d.power := rfl
@[simp] theorem Dev.onFlow_pav (d : Dev) (i : Nat) (g : Flow → Flow) : (d.onFlow i g).pav = d.pav := rfl
@[simp] theorem Dev.onFlow_otdr (d : Dev) (i : Nat) (g : Flow → Flow) : (d.onFlow i g).otdr = d.otdr := rfl
@[simp] theorem Dev.onFlow_upd (d : Dev) (i : Nat) (g : Flow → Flow) : (d.onFlow i g).upd = d.upd := rfl
@[simp] theorem Dev.onEng_draws (d : Dev) (i : Nat) (g : Engine → Engine) : (d.onEng i g).draws = d.draws := rfl
@[simp] theorem Dev.onEng_out (d : Dev) (i : Nat) (g : Engine → Engine) : (d.onEng i g).out = d.out := rfl
@[simp] theorem Dev.onEng_boot (d : Dev) (i : Nat) (g : Engine → Engine) : (d.onEng i g).boot = d.boot := rfl
@[simp] theorem Dev.onEng_fuses (d : Dev) (i : Nat) (g : Engine → Engine) : (d.onEng i g).fuses = d.fuses := rfl
@[simp] theorem Dev.onEng_image (d : Dev) (i : Nat) (g : Engine → Engine) : (d.onEng i g).image = d.image := rfl
@[simp] theorem Dev.onEng_pins (d : Dev) (i : Nat) (g : Engine → Engine) : (d.onEng i g).pins = d.pins := rfl
@[simp] theorem Dev.onEng_time (d : Dev) (i : Nat) (g : Engine → Engine) : (d.onEng i g).time = d.time := rfl
@[simp] theorem Dev.onEng_pcie (d : Dev) (i : Nat) (g : Engine → Engine) : (d.onEng i g).pcie = d.pcie := rfl
@[simp] theorem Dev.onEng_funcs (d : Dev) (i : Nat) (g : Engine → Engine) : (d.onEng i g).funcs = d.funcs := rfl
@[simp] theorem Dev.onEng_regs (d : Dev) (i : Nat) (g : Engine → Engine) : (d.onEng i g).regs = d.regs := rfl
@[simp] theorem Dev.onEng_ctrs (d : Dev) (i : Nat) (g : Engine → Engine) : (d.onEng i g).ctrs = d.ctrs := rfl
@[simp] theorem Dev.onEng_live (d : Dev) (i : Nat) (g : Engine → Engine) : (d.onEng i g).live = d.live := rfl
@[simp] theorem Dev.onEng_due (d : Dev) (i : Nat) (g : Engine → Engine) : (d.onEng i g).due = d.due := rfl
@[simp] theorem Dev.onEng_round (d : Dev) (i : Nat) (g : Engine → Engine) : (d.onEng i g).round = d.round := rfl
@[simp] theorem Dev.onEng_daeLogged (d : Dev) (i : Nat) (g : Engine → Engine) : (d.onEng i g).daeLogged = d.daeLogged := rfl
@[simp] theorem Dev.onEng_data (d : Dev) (i : Nat) (g : Engine → Engine) : (d.onEng i g).data = d.data := rfl
@[simp] theorem Dev.onEng_red (d : Dev) (i : Nat) (g : Engine → Engine) : (d.onEng i g).red = d.red := rfl
@[simp] theorem Dev.onEng_mir (d : Dev) (i : Nat) (g : Engine → Engine) : (d.onEng i g).mir = d.mir := rfl
@[simp] theorem Dev.onEng_redch (d : Dev) (i : Nat) (g : Engine → Engine) : (d.onEng i g).redch = d.redch := rfl
@[simp] theorem Dev.onEng_meas (d : Dev) (i : Nat) (g : Engine → Engine) : (d.onEng i g).meas = d.meas := rfl
@[simp] theorem Dev.onEng_power (d : Dev) (i : Nat) (g : Engine → Engine) : (d.onEng i g).power = d.power := rfl
@[simp] theorem Dev.onEng_pav (d : Dev) (i : Nat) (g : Engine → Engine) : (d.onEng i g).pav = d.pav := rfl
@[simp] theorem Dev.onEng_otdr (d : Dev) (i : Nat) (g : Engine → Engine) : (d.onEng i g).otdr = d.otdr := rfl
@[simp] theorem Dev.onEng_upd (d : Dev) (i : Nat) (g : Engine → Engine) : (d.onEng i g).upd = d.upd := rfl
@[simp] theorem Dev.onTenant_draws (d : Dev) (i : Nat) (g : Tenant → Tenant) : (d.onTenant i g).draws = d.draws := rfl
@[simp] theorem Dev.onTenant_out (d : Dev) (i : Nat) (g : Tenant → Tenant) : (d.onTenant i g).out = d.out := rfl
@[simp] theorem Dev.onTenant_boot (d : Dev) (i : Nat) (g : Tenant → Tenant) : (d.onTenant i g).boot = d.boot := rfl
@[simp] theorem Dev.onTenant_fuses (d : Dev) (i : Nat) (g : Tenant → Tenant) : (d.onTenant i g).fuses = d.fuses := rfl
@[simp] theorem Dev.onTenant_image (d : Dev) (i : Nat) (g : Tenant → Tenant) : (d.onTenant i g).image = d.image := rfl
@[simp] theorem Dev.onTenant_pins (d : Dev) (i : Nat) (g : Tenant → Tenant) : (d.onTenant i g).pins = d.pins := rfl
@[simp] theorem Dev.onTenant_time (d : Dev) (i : Nat) (g : Tenant → Tenant) : (d.onTenant i g).time = d.time := rfl
@[simp] theorem Dev.onTenant_pcie (d : Dev) (i : Nat) (g : Tenant → Tenant) : (d.onTenant i g).pcie = d.pcie := rfl
@[simp] theorem Dev.onTenant_funcs (d : Dev) (i : Nat) (g : Tenant → Tenant) : (d.onTenant i g).funcs = d.funcs := rfl
@[simp] theorem Dev.onTenant_regs (d : Dev) (i : Nat) (g : Tenant → Tenant) : (d.onTenant i g).regs = d.regs := rfl
@[simp] theorem Dev.onTenant_ctrs (d : Dev) (i : Nat) (g : Tenant → Tenant) : (d.onTenant i g).ctrs = d.ctrs := rfl
@[simp] theorem Dev.onTenant_live (d : Dev) (i : Nat) (g : Tenant → Tenant) : (d.onTenant i g).live = d.live := rfl
@[simp] theorem Dev.onTenant_due (d : Dev) (i : Nat) (g : Tenant → Tenant) : (d.onTenant i g).due = d.due := rfl
@[simp] theorem Dev.onTenant_round (d : Dev) (i : Nat) (g : Tenant → Tenant) : (d.onTenant i g).round = d.round := rfl
@[simp] theorem Dev.onTenant_daeLogged (d : Dev) (i : Nat) (g : Tenant → Tenant) : (d.onTenant i g).daeLogged = d.daeLogged := rfl
@[simp] theorem Dev.onTenant_data (d : Dev) (i : Nat) (g : Tenant → Tenant) : (d.onTenant i g).data = d.data := rfl
@[simp] theorem Dev.onTenant_red (d : Dev) (i : Nat) (g : Tenant → Tenant) : (d.onTenant i g).red = d.red := rfl
@[simp] theorem Dev.onTenant_mir (d : Dev) (i : Nat) (g : Tenant → Tenant) : (d.onTenant i g).mir = d.mir := rfl
@[simp] theorem Dev.onTenant_redch (d : Dev) (i : Nat) (g : Tenant → Tenant) : (d.onTenant i g).redch = d.redch := rfl
@[simp] theorem Dev.onTenant_meas (d : Dev) (i : Nat) (g : Tenant → Tenant) : (d.onTenant i g).meas = d.meas := rfl
@[simp] theorem Dev.onTenant_power (d : Dev) (i : Nat) (g : Tenant → Tenant) : (d.onTenant i g).power = d.power := rfl
@[simp] theorem Dev.onTenant_pav (d : Dev) (i : Nat) (g : Tenant → Tenant) : (d.onTenant i g).pav = d.pav := rfl
@[simp] theorem Dev.onTenant_otdr (d : Dev) (i : Nat) (g : Tenant → Tenant) : (d.onTenant i g).otdr = d.otdr := rfl
@[simp] theorem Dev.onTenant_upd (d : Dev) (i : Nat) (g : Tenant → Tenant) : (d.onTenant i g).upd = d.upd := rfl
@[simp] theorem Dev.onDie_draws (d : Dev) (i : Nat) (g : Die → Die) : (d.onDie i g).draws = d.draws := rfl
@[simp] theorem Dev.onDie_out (d : Dev) (i : Nat) (g : Die → Die) : (d.onDie i g).out = d.out := rfl
@[simp] theorem Dev.onDie_boot (d : Dev) (i : Nat) (g : Die → Die) : (d.onDie i g).boot = d.boot := rfl
@[simp] theorem Dev.onDie_fuses (d : Dev) (i : Nat) (g : Die → Die) : (d.onDie i g).fuses = d.fuses := rfl
@[simp] theorem Dev.onDie_image (d : Dev) (i : Nat) (g : Die → Die) : (d.onDie i g).image = d.image := rfl
@[simp] theorem Dev.onDie_pins (d : Dev) (i : Nat) (g : Die → Die) : (d.onDie i g).pins = d.pins := rfl
@[simp] theorem Dev.onDie_time (d : Dev) (i : Nat) (g : Die → Die) : (d.onDie i g).time = d.time := rfl
@[simp] theorem Dev.onDie_pcie (d : Dev) (i : Nat) (g : Die → Die) : (d.onDie i g).pcie = d.pcie := rfl
@[simp] theorem Dev.onDie_funcs (d : Dev) (i : Nat) (g : Die → Die) : (d.onDie i g).funcs = d.funcs := rfl
@[simp] theorem Dev.onDie_regs (d : Dev) (i : Nat) (g : Die → Die) : (d.onDie i g).regs = d.regs := rfl
@[simp] theorem Dev.onDie_ctrs (d : Dev) (i : Nat) (g : Die → Die) : (d.onDie i g).ctrs = d.ctrs := rfl
@[simp] theorem Dev.onDie_live (d : Dev) (i : Nat) (g : Die → Die) : (d.onDie i g).live = d.live := rfl
@[simp] theorem Dev.onDie_due (d : Dev) (i : Nat) (g : Die → Die) : (d.onDie i g).due = d.due := rfl
@[simp] theorem Dev.onDie_round (d : Dev) (i : Nat) (g : Die → Die) : (d.onDie i g).round = d.round := rfl
@[simp] theorem Dev.onDie_daeLogged (d : Dev) (i : Nat) (g : Die → Die) : (d.onDie i g).daeLogged = d.daeLogged := rfl
@[simp] theorem Dev.onDie_pon (d : Dev) (i : Nat) (g : Die → Die) : (d.onDie i g).pon = d.pon := rfl
@[simp] theorem Dev.onDie_red (d : Dev) (i : Nat) (g : Die → Die) : (d.onDie i g).red = d.red := rfl
@[simp] theorem Dev.onDie_mir (d : Dev) (i : Nat) (g : Die → Die) : (d.onDie i g).mir = d.mir := rfl
@[simp] theorem Dev.onDie_redch (d : Dev) (i : Nat) (g : Die → Die) : (d.onDie i g).redch = d.redch := rfl
@[simp] theorem Dev.onDie_meas (d : Dev) (i : Nat) (g : Die → Die) : (d.onDie i g).meas = d.meas := rfl
@[simp] theorem Dev.onDie_power (d : Dev) (i : Nat) (g : Die → Die) : (d.onDie i g).power = d.power := rfl
@[simp] theorem Dev.onDie_pav (d : Dev) (i : Nat) (g : Die → Die) : (d.onDie i g).pav = d.pav := rfl
@[simp] theorem Dev.onDie_otdr (d : Dev) (i : Nat) (g : Die → Die) : (d.onDie i g).otdr = d.otdr := rfl
@[simp] theorem Dev.onDie_upd (d : Dev) (i : Nat) (g : Die → Die) : (d.onDie i g).upd = d.upd := rfl
@[simp] theorem Dev.onSub_draws (d : Dev) (i : Nat) (g : Sub → Sub) : (d.onSub i g).draws = d.draws := rfl
@[simp] theorem Dev.onSub_out (d : Dev) (i : Nat) (g : Sub → Sub) : (d.onSub i g).out = d.out := rfl
@[simp] theorem Dev.onSub_boot (d : Dev) (i : Nat) (g : Sub → Sub) : (d.onSub i g).boot = d.boot := rfl
@[simp] theorem Dev.onSub_fuses (d : Dev) (i : Nat) (g : Sub → Sub) : (d.onSub i g).fuses = d.fuses := rfl
@[simp] theorem Dev.onSub_image (d : Dev) (i : Nat) (g : Sub → Sub) : (d.onSub i g).image = d.image := rfl
@[simp] theorem Dev.onSub_pins (d : Dev) (i : Nat) (g : Sub → Sub) : (d.onSub i g).pins = d.pins := rfl
@[simp] theorem Dev.onSub_time (d : Dev) (i : Nat) (g : Sub → Sub) : (d.onSub i g).time = d.time := rfl
@[simp] theorem Dev.onSub_pcie (d : Dev) (i : Nat) (g : Sub → Sub) : (d.onSub i g).pcie = d.pcie := rfl
@[simp] theorem Dev.onSub_funcs (d : Dev) (i : Nat) (g : Sub → Sub) : (d.onSub i g).funcs = d.funcs := rfl
@[simp] theorem Dev.onSub_regs (d : Dev) (i : Nat) (g : Sub → Sub) : (d.onSub i g).regs = d.regs := rfl
@[simp] theorem Dev.onSub_ctrs (d : Dev) (i : Nat) (g : Sub → Sub) : (d.onSub i g).ctrs = d.ctrs := rfl
@[simp] theorem Dev.onSub_live (d : Dev) (i : Nat) (g : Sub → Sub) : (d.onSub i g).live = d.live := rfl
@[simp] theorem Dev.onSub_due (d : Dev) (i : Nat) (g : Sub → Sub) : (d.onSub i g).due = d.due := rfl
@[simp] theorem Dev.onSub_round (d : Dev) (i : Nat) (g : Sub → Sub) : (d.onSub i g).round = d.round := rfl
@[simp] theorem Dev.onSub_daeLogged (d : Dev) (i : Nat) (g : Sub → Sub) : (d.onSub i g).daeLogged = d.daeLogged := rfl
@[simp] theorem Dev.onSub_pon (d : Dev) (i : Nat) (g : Sub → Sub) : (d.onSub i g).pon = d.pon := rfl
@[simp] theorem Dev.onSub_red (d : Dev) (i : Nat) (g : Sub → Sub) : (d.onSub i g).red = d.red := rfl
@[simp] theorem Dev.onSub_mir (d : Dev) (i : Nat) (g : Sub → Sub) : (d.onSub i g).mir = d.mir := rfl
@[simp] theorem Dev.onSub_redch (d : Dev) (i : Nat) (g : Sub → Sub) : (d.onSub i g).redch = d.redch := rfl
@[simp] theorem Dev.onSub_meas (d : Dev) (i : Nat) (g : Sub → Sub) : (d.onSub i g).meas = d.meas := rfl
@[simp] theorem Dev.onSub_power (d : Dev) (i : Nat) (g : Sub → Sub) : (d.onSub i g).power = d.power := rfl
@[simp] theorem Dev.onSub_pav (d : Dev) (i : Nat) (g : Sub → Sub) : (d.onSub i g).pav = d.pav := rfl
@[simp] theorem Dev.onSub_otdr (d : Dev) (i : Nat) (g : Sub → Sub) : (d.onSub i g).otdr = d.otdr := rfl
@[simp] theorem Dev.onSub_upd (d : Dev) (i : Nat) (g : Sub → Sub) : (d.onSub i g).upd = d.upd := rfl
@[simp] theorem Dev.onLane_draws (d : Dev) (i : Nat) (g : Lane → Lane) : (d.onLane i g).draws = d.draws := rfl
@[simp] theorem Dev.onLane_out (d : Dev) (i : Nat) (g : Lane → Lane) : (d.onLane i g).out = d.out := rfl
@[simp] theorem Dev.onLane_boot (d : Dev) (i : Nat) (g : Lane → Lane) : (d.onLane i g).boot = d.boot := rfl
@[simp] theorem Dev.onLane_fuses (d : Dev) (i : Nat) (g : Lane → Lane) : (d.onLane i g).fuses = d.fuses := rfl
@[simp] theorem Dev.onLane_image (d : Dev) (i : Nat) (g : Lane → Lane) : (d.onLane i g).image = d.image := rfl
@[simp] theorem Dev.onLane_pins (d : Dev) (i : Nat) (g : Lane → Lane) : (d.onLane i g).pins = d.pins := rfl
@[simp] theorem Dev.onLane_time (d : Dev) (i : Nat) (g : Lane → Lane) : (d.onLane i g).time = d.time := rfl
@[simp] theorem Dev.onLane_pcie (d : Dev) (i : Nat) (g : Lane → Lane) : (d.onLane i g).pcie = d.pcie := rfl
@[simp] theorem Dev.onLane_funcs (d : Dev) (i : Nat) (g : Lane → Lane) : (d.onLane i g).funcs = d.funcs := rfl
@[simp] theorem Dev.onLane_regs (d : Dev) (i : Nat) (g : Lane → Lane) : (d.onLane i g).regs = d.regs := rfl
@[simp] theorem Dev.onLane_ctrs (d : Dev) (i : Nat) (g : Lane → Lane) : (d.onLane i g).ctrs = d.ctrs := rfl
@[simp] theorem Dev.onLane_live (d : Dev) (i : Nat) (g : Lane → Lane) : (d.onLane i g).live = d.live := rfl
@[simp] theorem Dev.onLane_due (d : Dev) (i : Nat) (g : Lane → Lane) : (d.onLane i g).due = d.due := rfl
@[simp] theorem Dev.onLane_round (d : Dev) (i : Nat) (g : Lane → Lane) : (d.onLane i g).round = d.round := rfl
@[simp] theorem Dev.onLane_daeLogged (d : Dev) (i : Nat) (g : Lane → Lane) : (d.onLane i g).daeLogged = d.daeLogged := rfl
@[simp] theorem Dev.onLane_pon (d : Dev) (i : Nat) (g : Lane → Lane) : (d.onLane i g).pon = d.pon := rfl
@[simp] theorem Dev.onLane_red (d : Dev) (i : Nat) (g : Lane → Lane) : (d.onLane i g).red = d.red := rfl
@[simp] theorem Dev.onLane_mir (d : Dev) (i : Nat) (g : Lane → Lane) : (d.onLane i g).mir = d.mir := rfl
@[simp] theorem Dev.onLane_redch (d : Dev) (i : Nat) (g : Lane → Lane) : (d.onLane i g).redch = d.redch := rfl
@[simp] theorem Dev.onLane_meas (d : Dev) (i : Nat) (g : Lane → Lane) : (d.onLane i g).meas = d.meas := rfl
@[simp] theorem Dev.onLane_power (d : Dev) (i : Nat) (g : Lane → Lane) : (d.onLane i g).power = d.power := rfl
@[simp] theorem Dev.onLane_pav (d : Dev) (i : Nat) (g : Lane → Lane) : (d.onLane i g).pav = d.pav := rfl
@[simp] theorem Dev.onLane_otdr (d : Dev) (i : Nat) (g : Lane → Lane) : (d.onLane i g).otdr = d.otdr := rfl
@[simp] theorem Dev.onLane_upd (d : Dev) (i : Nat) (g : Lane → Lane) : (d.onLane i g).upd = d.upd := rfl
@[simp] theorem Dev.onSynce_draws (d : Dev) (i : Nat) (g : SyncE → SyncE) : (d.onSynce i g).draws = d.draws := rfl
@[simp] theorem Dev.onSynce_out (d : Dev) (i : Nat) (g : SyncE → SyncE) : (d.onSynce i g).out = d.out := rfl
@[simp] theorem Dev.onSynce_boot (d : Dev) (i : Nat) (g : SyncE → SyncE) : (d.onSynce i g).boot = d.boot := rfl
@[simp] theorem Dev.onSynce_fuses (d : Dev) (i : Nat) (g : SyncE → SyncE) : (d.onSynce i g).fuses = d.fuses := rfl
@[simp] theorem Dev.onSynce_image (d : Dev) (i : Nat) (g : SyncE → SyncE) : (d.onSynce i g).image = d.image := rfl
@[simp] theorem Dev.onSynce_pins (d : Dev) (i : Nat) (g : SyncE → SyncE) : (d.onSynce i g).pins = d.pins := rfl
@[simp] theorem Dev.onSynce_time (d : Dev) (i : Nat) (g : SyncE → SyncE) : (d.onSynce i g).time = d.time := rfl
@[simp] theorem Dev.onSynce_pcie (d : Dev) (i : Nat) (g : SyncE → SyncE) : (d.onSynce i g).pcie = d.pcie := rfl
@[simp] theorem Dev.onSynce_funcs (d : Dev) (i : Nat) (g : SyncE → SyncE) : (d.onSynce i g).funcs = d.funcs := rfl
@[simp] theorem Dev.onSynce_regs (d : Dev) (i : Nat) (g : SyncE → SyncE) : (d.onSynce i g).regs = d.regs := rfl
@[simp] theorem Dev.onSynce_ctrs (d : Dev) (i : Nat) (g : SyncE → SyncE) : (d.onSynce i g).ctrs = d.ctrs := rfl
@[simp] theorem Dev.onSynce_live (d : Dev) (i : Nat) (g : SyncE → SyncE) : (d.onSynce i g).live = d.live := rfl
@[simp] theorem Dev.onSynce_due (d : Dev) (i : Nat) (g : SyncE → SyncE) : (d.onSynce i g).due = d.due := rfl
@[simp] theorem Dev.onSynce_round (d : Dev) (i : Nat) (g : SyncE → SyncE) : (d.onSynce i g).round = d.round := rfl
@[simp] theorem Dev.onSynce_daeLogged (d : Dev) (i : Nat) (g : SyncE → SyncE) : (d.onSynce i g).daeLogged = d.daeLogged := rfl
@[simp] theorem Dev.onSynce_pon (d : Dev) (i : Nat) (g : SyncE → SyncE) : (d.onSynce i g).pon = d.pon := rfl
@[simp] theorem Dev.onSynce_red (d : Dev) (i : Nat) (g : SyncE → SyncE) : (d.onSynce i g).red = d.red := rfl
@[simp] theorem Dev.onSynce_mir (d : Dev) (i : Nat) (g : SyncE → SyncE) : (d.onSynce i g).mir = d.mir := rfl
@[simp] theorem Dev.onSynce_redch (d : Dev) (i : Nat) (g : SyncE → SyncE) : (d.onSynce i g).redch = d.redch := rfl
@[simp] theorem Dev.onSynce_meas (d : Dev) (i : Nat) (g : SyncE → SyncE) : (d.onSynce i g).meas = d.meas := rfl
@[simp] theorem Dev.onSynce_power (d : Dev) (i : Nat) (g : SyncE → SyncE) : (d.onSynce i g).power = d.power := rfl
@[simp] theorem Dev.onSynce_pav (d : Dev) (i : Nat) (g : SyncE → SyncE) : (d.onSynce i g).pav = d.pav := rfl
@[simp] theorem Dev.onSynce_otdr (d : Dev) (i : Nat) (g : SyncE → SyncE) : (d.onSynce i g).otdr = d.otdr := rfl
@[simp] theorem Dev.onSynce_upd (d : Dev) (i : Nat) (g : SyncE → SyncE) : (d.onSynce i g).upd = d.upd := rfl
@[simp] theorem Dev.onDma_draws (d : Dev) (i : Nat) (g : Dma → Dma) : (d.onDma i g).draws = d.draws := rfl
@[simp] theorem Dev.onDma_out (d : Dev) (i : Nat) (g : Dma → Dma) : (d.onDma i g).out = d.out := rfl
@[simp] theorem Dev.onDma_boot (d : Dev) (i : Nat) (g : Dma → Dma) : (d.onDma i g).boot = d.boot := rfl
@[simp] theorem Dev.onDma_fuses (d : Dev) (i : Nat) (g : Dma → Dma) : (d.onDma i g).fuses = d.fuses := rfl
@[simp] theorem Dev.onDma_image (d : Dev) (i : Nat) (g : Dma → Dma) : (d.onDma i g).image = d.image := rfl
@[simp] theorem Dev.onDma_pins (d : Dev) (i : Nat) (g : Dma → Dma) : (d.onDma i g).pins = d.pins := rfl
@[simp] theorem Dev.onDma_time (d : Dev) (i : Nat) (g : Dma → Dma) : (d.onDma i g).time = d.time := rfl
@[simp] theorem Dev.onDma_pcie (d : Dev) (i : Nat) (g : Dma → Dma) : (d.onDma i g).pcie = d.pcie := rfl
@[simp] theorem Dev.onDma_funcs (d : Dev) (i : Nat) (g : Dma → Dma) : (d.onDma i g).funcs = d.funcs := rfl
@[simp] theorem Dev.onDma_regs (d : Dev) (i : Nat) (g : Dma → Dma) : (d.onDma i g).regs = d.regs := rfl
@[simp] theorem Dev.onDma_ctrs (d : Dev) (i : Nat) (g : Dma → Dma) : (d.onDma i g).ctrs = d.ctrs := rfl
@[simp] theorem Dev.onDma_live (d : Dev) (i : Nat) (g : Dma → Dma) : (d.onDma i g).live = d.live := rfl
@[simp] theorem Dev.onDma_due (d : Dev) (i : Nat) (g : Dma → Dma) : (d.onDma i g).due = d.due := rfl
@[simp] theorem Dev.onDma_round (d : Dev) (i : Nat) (g : Dma → Dma) : (d.onDma i g).round = d.round := rfl
@[simp] theorem Dev.onDma_daeLogged (d : Dev) (i : Nat) (g : Dma → Dma) : (d.onDma i g).daeLogged = d.daeLogged := rfl
@[simp] theorem Dev.onDma_pon (d : Dev) (i : Nat) (g : Dma → Dma) : (d.onDma i g).pon = d.pon := rfl
@[simp] theorem Dev.onDma_red (d : Dev) (i : Nat) (g : Dma → Dma) : (d.onDma i g).red = d.red := rfl
@[simp] theorem Dev.onDma_mir (d : Dev) (i : Nat) (g : Dma → Dma) : (d.onDma i g).mir = d.mir := rfl
@[simp] theorem Dev.onDma_redch (d : Dev) (i : Nat) (g : Dma → Dma) : (d.onDma i g).redch = d.redch := rfl
@[simp] theorem Dev.onDma_meas (d : Dev) (i : Nat) (g : Dma → Dma) : (d.onDma i g).meas = d.meas := rfl
@[simp] theorem Dev.onDma_power (d : Dev) (i : Nat) (g : Dma → Dma) : (d.onDma i g).power = d.power := rfl
@[simp] theorem Dev.onDma_pav (d : Dev) (i : Nat) (g : Dma → Dma) : (d.onDma i g).pav = d.pav := rfl
@[simp] theorem Dev.onDma_otdr (d : Dev) (i : Nat) (g : Dma → Dma) : (d.onDma i g).otdr = d.otdr := rfl
@[simp] theorem Dev.onDma_upd (d : Dev) (i : Nat) (g : Dma → Dma) : (d.onDma i g).upd = d.upd := rfl
@[simp] theorem Dev.onDlink_draws (d : Dev) (i : Nat) (g : DLink → DLink) : (d.onDlink i g).draws = d.draws := rfl
@[simp] theorem Dev.onDlink_out (d : Dev) (i : Nat) (g : DLink → DLink) : (d.onDlink i g).out = d.out := rfl
@[simp] theorem Dev.onDlink_boot (d : Dev) (i : Nat) (g : DLink → DLink) : (d.onDlink i g).boot = d.boot := rfl
@[simp] theorem Dev.onDlink_fuses (d : Dev) (i : Nat) (g : DLink → DLink) : (d.onDlink i g).fuses = d.fuses := rfl
@[simp] theorem Dev.onDlink_image (d : Dev) (i : Nat) (g : DLink → DLink) : (d.onDlink i g).image = d.image := rfl
@[simp] theorem Dev.onDlink_pins (d : Dev) (i : Nat) (g : DLink → DLink) : (d.onDlink i g).pins = d.pins := rfl
@[simp] theorem Dev.onDlink_time (d : Dev) (i : Nat) (g : DLink → DLink) : (d.onDlink i g).time = d.time := rfl
@[simp] theorem Dev.onDlink_pcie (d : Dev) (i : Nat) (g : DLink → DLink) : (d.onDlink i g).pcie = d.pcie := rfl
@[simp] theorem Dev.onDlink_funcs (d : Dev) (i : Nat) (g : DLink → DLink) : (d.onDlink i g).funcs = d.funcs := rfl
@[simp] theorem Dev.onDlink_regs (d : Dev) (i : Nat) (g : DLink → DLink) : (d.onDlink i g).regs = d.regs := rfl
@[simp] theorem Dev.onDlink_ctrs (d : Dev) (i : Nat) (g : DLink → DLink) : (d.onDlink i g).ctrs = d.ctrs := rfl
@[simp] theorem Dev.onDlink_live (d : Dev) (i : Nat) (g : DLink → DLink) : (d.onDlink i g).live = d.live := rfl
@[simp] theorem Dev.onDlink_due (d : Dev) (i : Nat) (g : DLink → DLink) : (d.onDlink i g).due = d.due := rfl
@[simp] theorem Dev.onDlink_round (d : Dev) (i : Nat) (g : DLink → DLink) : (d.onDlink i g).round = d.round := rfl
@[simp] theorem Dev.onDlink_daeLogged (d : Dev) (i : Nat) (g : DLink → DLink) : (d.onDlink i g).daeLogged = d.daeLogged := rfl
@[simp] theorem Dev.onDlink_pon (d : Dev) (i : Nat) (g : DLink → DLink) : (d.onDlink i g).pon = d.pon := rfl
@[simp] theorem Dev.onDlink_red (d : Dev) (i : Nat) (g : DLink → DLink) : (d.onDlink i g).red = d.red := rfl
@[simp] theorem Dev.onDlink_mir (d : Dev) (i : Nat) (g : DLink → DLink) : (d.onDlink i g).mir = d.mir := rfl
@[simp] theorem Dev.onDlink_redch (d : Dev) (i : Nat) (g : DLink → DLink) : (d.onDlink i g).redch = d.redch := rfl
@[simp] theorem Dev.onDlink_meas (d : Dev) (i : Nat) (g : DLink → DLink) : (d.onDlink i g).meas = d.meas := rfl
@[simp] theorem Dev.onDlink_power (d : Dev) (i : Nat) (g : DLink → DLink) : (d.onDlink i g).power = d.power := rfl
@[simp] theorem Dev.onDlink_pav (d : Dev) (i : Nat) (g : DLink → DLink) : (d.onDlink i g).pav = d.pav := rfl
@[simp] theorem Dev.onDlink_otdr (d : Dev) (i : Nat) (g : DLink → DLink) : (d.onDlink i g).otdr = d.otdr := rfl
@[simp] theorem Dev.onDlink_upd (d : Dev) (i : Nat) (g : DLink → DLink) : (d.onDlink i g).upd = d.upd := rfl
@[simp] theorem Dev.onNode_draws (d : Dev) (i : Nat) (g : Node → Node) : (d.onNode i g).draws = d.draws := rfl
@[simp] theorem Dev.onNode_out (d : Dev) (i : Nat) (g : Node → Node) : (d.onNode i g).out = d.out := rfl
@[simp] theorem Dev.onNode_boot (d : Dev) (i : Nat) (g : Node → Node) : (d.onNode i g).boot = d.boot := rfl
@[simp] theorem Dev.onNode_fuses (d : Dev) (i : Nat) (g : Node → Node) : (d.onNode i g).fuses = d.fuses := rfl
@[simp] theorem Dev.onNode_image (d : Dev) (i : Nat) (g : Node → Node) : (d.onNode i g).image = d.image := rfl
@[simp] theorem Dev.onNode_pins (d : Dev) (i : Nat) (g : Node → Node) : (d.onNode i g).pins = d.pins := rfl
@[simp] theorem Dev.onNode_time (d : Dev) (i : Nat) (g : Node → Node) : (d.onNode i g).time = d.time := rfl
@[simp] theorem Dev.onNode_pcie (d : Dev) (i : Nat) (g : Node → Node) : (d.onNode i g).pcie = d.pcie := rfl
@[simp] theorem Dev.onNode_funcs (d : Dev) (i : Nat) (g : Node → Node) : (d.onNode i g).funcs = d.funcs := rfl
@[simp] theorem Dev.onNode_regs (d : Dev) (i : Nat) (g : Node → Node) : (d.onNode i g).regs = d.regs := rfl
@[simp] theorem Dev.onNode_ctrs (d : Dev) (i : Nat) (g : Node → Node) : (d.onNode i g).ctrs = d.ctrs := rfl
@[simp] theorem Dev.onNode_live (d : Dev) (i : Nat) (g : Node → Node) : (d.onNode i g).live = d.live := rfl
@[simp] theorem Dev.onNode_due (d : Dev) (i : Nat) (g : Node → Node) : (d.onNode i g).due = d.due := rfl
@[simp] theorem Dev.onNode_round (d : Dev) (i : Nat) (g : Node → Node) : (d.onNode i g).round = d.round := rfl
@[simp] theorem Dev.onNode_daeLogged (d : Dev) (i : Nat) (g : Node → Node) : (d.onNode i g).daeLogged = d.daeLogged := rfl
@[simp] theorem Dev.onNode_pon (d : Dev) (i : Nat) (g : Node → Node) : (d.onNode i g).pon = d.pon := rfl
@[simp] theorem Dev.onNode_red (d : Dev) (i : Nat) (g : Node → Node) : (d.onNode i g).red = d.red := rfl
@[simp] theorem Dev.onNode_mir (d : Dev) (i : Nat) (g : Node → Node) : (d.onNode i g).mir = d.mir := rfl
@[simp] theorem Dev.onNode_redch (d : Dev) (i : Nat) (g : Node → Node) : (d.onNode i g).redch = d.redch := rfl
@[simp] theorem Dev.onNode_meas (d : Dev) (i : Nat) (g : Node → Node) : (d.onNode i g).meas = d.meas := rfl
@[simp] theorem Dev.onNode_power (d : Dev) (i : Nat) (g : Node → Node) : (d.onNode i g).power = d.power := rfl
@[simp] theorem Dev.onNode_pav (d : Dev) (i : Nat) (g : Node → Node) : (d.onNode i g).pav = d.pav := rfl
@[simp] theorem Dev.onNode_otdr (d : Dev) (i : Nat) (g : Node → Node) : (d.onNode i g).otdr = d.otdr := rfl
@[simp] theorem Dev.onNode_upd (d : Dev) (i : Nat) (g : Node → Node) : (d.onNode i g).upd = d.upd := rfl
@[simp] theorem Dev.onPol_draws (d : Dev) (i : Nat) (g : Policer → Policer) : (d.onPol i g).draws = d.draws := rfl
@[simp] theorem Dev.onPol_out (d : Dev) (i : Nat) (g : Policer → Policer) : (d.onPol i g).out = d.out := rfl
@[simp] theorem Dev.onPol_boot (d : Dev) (i : Nat) (g : Policer → Policer) : (d.onPol i g).boot = d.boot := rfl
@[simp] theorem Dev.onPol_fuses (d : Dev) (i : Nat) (g : Policer → Policer) : (d.onPol i g).fuses = d.fuses := rfl
@[simp] theorem Dev.onPol_image (d : Dev) (i : Nat) (g : Policer → Policer) : (d.onPol i g).image = d.image := rfl
@[simp] theorem Dev.onPol_pins (d : Dev) (i : Nat) (g : Policer → Policer) : (d.onPol i g).pins = d.pins := rfl
@[simp] theorem Dev.onPol_time (d : Dev) (i : Nat) (g : Policer → Policer) : (d.onPol i g).time = d.time := rfl
@[simp] theorem Dev.onPol_pcie (d : Dev) (i : Nat) (g : Policer → Policer) : (d.onPol i g).pcie = d.pcie := rfl
@[simp] theorem Dev.onPol_funcs (d : Dev) (i : Nat) (g : Policer → Policer) : (d.onPol i g).funcs = d.funcs := rfl
@[simp] theorem Dev.onPol_regs (d : Dev) (i : Nat) (g : Policer → Policer) : (d.onPol i g).regs = d.regs := rfl
@[simp] theorem Dev.onPol_ctrs (d : Dev) (i : Nat) (g : Policer → Policer) : (d.onPol i g).ctrs = d.ctrs := rfl
@[simp] theorem Dev.onPol_live (d : Dev) (i : Nat) (g : Policer → Policer) : (d.onPol i g).live = d.live := rfl
@[simp] theorem Dev.onPol_due (d : Dev) (i : Nat) (g : Policer → Policer) : (d.onPol i g).due = d.due := rfl
@[simp] theorem Dev.onPol_round (d : Dev) (i : Nat) (g : Policer → Policer) : (d.onPol i g).round = d.round := rfl
@[simp] theorem Dev.onPol_daeLogged (d : Dev) (i : Nat) (g : Policer → Policer) : (d.onPol i g).daeLogged = d.daeLogged := rfl
@[simp] theorem Dev.onPol_pon (d : Dev) (i : Nat) (g : Policer → Policer) : (d.onPol i g).pon = d.pon := rfl
@[simp] theorem Dev.onPol_red (d : Dev) (i : Nat) (g : Policer → Policer) : (d.onPol i g).red = d.red := rfl
@[simp] theorem Dev.onPol_mir (d : Dev) (i : Nat) (g : Policer → Policer) : (d.onPol i g).mir = d.mir := rfl
@[simp] theorem Dev.onPol_redch (d : Dev) (i : Nat) (g : Policer → Policer) : (d.onPol i g).redch = d.redch := rfl
@[simp] theorem Dev.onPol_meas (d : Dev) (i : Nat) (g : Policer → Policer) : (d.onPol i g).meas = d.meas := rfl
@[simp] theorem Dev.onPol_power (d : Dev) (i : Nat) (g : Policer → Policer) : (d.onPol i g).power = d.power := rfl
@[simp] theorem Dev.onPol_pav (d : Dev) (i : Nat) (g : Policer → Policer) : (d.onPol i g).pav = d.pav := rfl
@[simp] theorem Dev.onPol_otdr (d : Dev) (i : Nat) (g : Policer → Policer) : (d.onPol i g).otdr = d.otdr := rfl
@[simp] theorem Dev.onPol_upd (d : Dev) (i : Nat) (g : Policer → Policer) : (d.onPol i g).upd = d.upd := rfl
@[simp] theorem Dev.onExc_draws (d : Dev) (i : Nat) (g : ExcBucket → ExcBucket) : (d.onExc i g).draws = d.draws := rfl
@[simp] theorem Dev.onExc_out (d : Dev) (i : Nat) (g : ExcBucket → ExcBucket) : (d.onExc i g).out = d.out := rfl
@[simp] theorem Dev.onExc_boot (d : Dev) (i : Nat) (g : ExcBucket → ExcBucket) : (d.onExc i g).boot = d.boot := rfl
@[simp] theorem Dev.onExc_fuses (d : Dev) (i : Nat) (g : ExcBucket → ExcBucket) : (d.onExc i g).fuses = d.fuses := rfl
@[simp] theorem Dev.onExc_image (d : Dev) (i : Nat) (g : ExcBucket → ExcBucket) : (d.onExc i g).image = d.image := rfl
@[simp] theorem Dev.onExc_pins (d : Dev) (i : Nat) (g : ExcBucket → ExcBucket) : (d.onExc i g).pins = d.pins := rfl
@[simp] theorem Dev.onExc_time (d : Dev) (i : Nat) (g : ExcBucket → ExcBucket) : (d.onExc i g).time = d.time := rfl
@[simp] theorem Dev.onExc_pcie (d : Dev) (i : Nat) (g : ExcBucket → ExcBucket) : (d.onExc i g).pcie = d.pcie := rfl
@[simp] theorem Dev.onExc_funcs (d : Dev) (i : Nat) (g : ExcBucket → ExcBucket) : (d.onExc i g).funcs = d.funcs := rfl
@[simp] theorem Dev.onExc_regs (d : Dev) (i : Nat) (g : ExcBucket → ExcBucket) : (d.onExc i g).regs = d.regs := rfl
@[simp] theorem Dev.onExc_ctrs (d : Dev) (i : Nat) (g : ExcBucket → ExcBucket) : (d.onExc i g).ctrs = d.ctrs := rfl
@[simp] theorem Dev.onExc_live (d : Dev) (i : Nat) (g : ExcBucket → ExcBucket) : (d.onExc i g).live = d.live := rfl
@[simp] theorem Dev.onExc_due (d : Dev) (i : Nat) (g : ExcBucket → ExcBucket) : (d.onExc i g).due = d.due := rfl
@[simp] theorem Dev.onExc_round (d : Dev) (i : Nat) (g : ExcBucket → ExcBucket) : (d.onExc i g).round = d.round := rfl
@[simp] theorem Dev.onExc_daeLogged (d : Dev) (i : Nat) (g : ExcBucket → ExcBucket) : (d.onExc i g).daeLogged = d.daeLogged := rfl
@[simp] theorem Dev.onExc_pon (d : Dev) (i : Nat) (g : ExcBucket → ExcBucket) : (d.onExc i g).pon = d.pon := rfl
@[simp] theorem Dev.onExc_red (d : Dev) (i : Nat) (g : ExcBucket → ExcBucket) : (d.onExc i g).red = d.red := rfl
@[simp] theorem Dev.onExc_mir (d : Dev) (i : Nat) (g : ExcBucket → ExcBucket) : (d.onExc i g).mir = d.mir := rfl
@[simp] theorem Dev.onExc_redch (d : Dev) (i : Nat) (g : ExcBucket → ExcBucket) : (d.onExc i g).redch = d.redch := rfl
@[simp] theorem Dev.onExc_meas (d : Dev) (i : Nat) (g : ExcBucket → ExcBucket) : (d.onExc i g).meas = d.meas := rfl
@[simp] theorem Dev.onExc_power (d : Dev) (i : Nat) (g : ExcBucket → ExcBucket) : (d.onExc i g).power = d.power := rfl
@[simp] theorem Dev.onExc_pav (d : Dev) (i : Nat) (g : ExcBucket → ExcBucket) : (d.onExc i g).pav = d.pav := rfl
@[simp] theorem Dev.onExc_otdr (d : Dev) (i : Nat) (g : ExcBucket → ExcBucket) : (d.onExc i g).otdr = d.otdr := rfl
@[simp] theorem Dev.onExc_upd (d : Dev) (i : Nat) (g : ExcBucket → ExcBucket) : (d.onExc i g).upd = d.upd := rfl
@[simp] theorem Dev.onOwner_draws (d : Dev) (i : Nat) (g : Owner → Owner) : (d.onOwner i g).draws = d.draws := rfl
@[simp] theorem Dev.onOwner_out (d : Dev) (i : Nat) (g : Owner → Owner) : (d.onOwner i g).out = d.out := rfl
@[simp] theorem Dev.onOwner_boot (d : Dev) (i : Nat) (g : Owner → Owner) : (d.onOwner i g).boot = d.boot := rfl
@[simp] theorem Dev.onOwner_fuses (d : Dev) (i : Nat) (g : Owner → Owner) : (d.onOwner i g).fuses = d.fuses := rfl
@[simp] theorem Dev.onOwner_image (d : Dev) (i : Nat) (g : Owner → Owner) : (d.onOwner i g).image = d.image := rfl
@[simp] theorem Dev.onOwner_pins (d : Dev) (i : Nat) (g : Owner → Owner) : (d.onOwner i g).pins = d.pins := rfl
@[simp] theorem Dev.onOwner_time (d : Dev) (i : Nat) (g : Owner → Owner) : (d.onOwner i g).time = d.time := rfl
@[simp] theorem Dev.onOwner_pcie (d : Dev) (i : Nat) (g : Owner → Owner) : (d.onOwner i g).pcie = d.pcie := rfl
@[simp] theorem Dev.onOwner_funcs (d : Dev) (i : Nat) (g : Owner → Owner) : (d.onOwner i g).funcs = d.funcs := rfl
@[simp] theorem Dev.onOwner_regs (d : Dev) (i : Nat) (g : Owner → Owner) : (d.onOwner i g).regs = d.regs := rfl
@[simp] theorem Dev.onOwner_ctrs (d : Dev) (i : Nat) (g : Owner → Owner) : (d.onOwner i g).ctrs = d.ctrs := rfl
@[simp] theorem Dev.onOwner_live (d : Dev) (i : Nat) (g : Owner → Owner) : (d.onOwner i g).live = d.live := rfl
@[simp] theorem Dev.onOwner_due (d : Dev) (i : Nat) (g : Owner → Owner) : (d.onOwner i g).due = d.due := rfl
@[simp] theorem Dev.onOwner_round (d : Dev) (i : Nat) (g : Owner → Owner) : (d.onOwner i g).round = d.round := rfl
@[simp] theorem Dev.onOwner_daeLogged (d : Dev) (i : Nat) (g : Owner → Owner) : (d.onOwner i g).daeLogged = d.daeLogged := rfl
@[simp] theorem Dev.onOwner_pon (d : Dev) (i : Nat) (g : Owner → Owner) : (d.onOwner i g).pon = d.pon := rfl
@[simp] theorem Dev.onOwner_red (d : Dev) (i : Nat) (g : Owner → Owner) : (d.onOwner i g).red = d.red := rfl
@[simp] theorem Dev.onOwner_mir (d : Dev) (i : Nat) (g : Owner → Owner) : (d.onOwner i g).mir = d.mir := rfl
@[simp] theorem Dev.onOwner_redch (d : Dev) (i : Nat) (g : Owner → Owner) : (d.onOwner i g).redch = d.redch := rfl
@[simp] theorem Dev.onOwner_meas (d : Dev) (i : Nat) (g : Owner → Owner) : (d.onOwner i g).meas = d.meas := rfl
@[simp] theorem Dev.onOwner_power (d : Dev) (i : Nat) (g : Owner → Owner) : (d.onOwner i g).power = d.power := rfl
@[simp] theorem Dev.onOwner_pav (d : Dev) (i : Nat) (g : Owner → Owner) : (d.onOwner i g).pav = d.pav := rfl
@[simp] theorem Dev.onOwner_otdr (d : Dev) (i : Nat) (g : Owner → Owner) : (d.onOwner i g).otdr = d.otdr := rfl
@[simp] theorem Dev.onOwner_upd (d : Dev) (i : Nat) (g : Owner → Owner) : (d.onOwner i g).upd = d.upd := rfl
@[simp] theorem Dev.onRedCh_draws (d : Dev) (i : Nat) (g : RedCh → RedCh) : (d.onRedCh i g).draws = d.draws := rfl
@[simp] theorem Dev.onRedCh_out (d : Dev) (i : Nat) (g : RedCh → RedCh) : (d.onRedCh i g).out = d.out := rfl
@[simp] theorem Dev.onRedCh_boot (d : Dev) (i : Nat) (g : RedCh → RedCh) : (d.onRedCh i g).boot = d.boot := rfl
@[simp] theorem Dev.onRedCh_fuses (d : Dev) (i : Nat) (g : RedCh → RedCh) : (d.onRedCh i g).fuses = d.fuses := rfl
@[simp] theorem Dev.onRedCh_image (d : Dev) (i : Nat) (g : RedCh → RedCh) : (d.onRedCh i g).image = d.image := rfl
@[simp] theorem Dev.onRedCh_pins (d : Dev) (i : Nat) (g : RedCh → RedCh) : (d.onRedCh i g).pins = d.pins := rfl
@[simp] theorem Dev.onRedCh_time (d : Dev) (i : Nat) (g : RedCh → RedCh) : (d.onRedCh i g).time = d.time := rfl
@[simp] theorem Dev.onRedCh_pcie (d : Dev) (i : Nat) (g : RedCh → RedCh) : (d.onRedCh i g).pcie = d.pcie := rfl
@[simp] theorem Dev.onRedCh_funcs (d : Dev) (i : Nat) (g : RedCh → RedCh) : (d.onRedCh i g).funcs = d.funcs := rfl
@[simp] theorem Dev.onRedCh_regs (d : Dev) (i : Nat) (g : RedCh → RedCh) : (d.onRedCh i g).regs = d.regs := rfl
@[simp] theorem Dev.onRedCh_ctrs (d : Dev) (i : Nat) (g : RedCh → RedCh) : (d.onRedCh i g).ctrs = d.ctrs := rfl
@[simp] theorem Dev.onRedCh_live (d : Dev) (i : Nat) (g : RedCh → RedCh) : (d.onRedCh i g).live = d.live := rfl
@[simp] theorem Dev.onRedCh_due (d : Dev) (i : Nat) (g : RedCh → RedCh) : (d.onRedCh i g).due = d.due := rfl
@[simp] theorem Dev.onRedCh_round (d : Dev) (i : Nat) (g : RedCh → RedCh) : (d.onRedCh i g).round = d.round := rfl
@[simp] theorem Dev.onRedCh_daeLogged (d : Dev) (i : Nat) (g : RedCh → RedCh) : (d.onRedCh i g).daeLogged = d.daeLogged := rfl
@[simp] theorem Dev.onRedCh_pon (d : Dev) (i : Nat) (g : RedCh → RedCh) : (d.onRedCh i g).pon = d.pon := rfl
@[simp] theorem Dev.onRedCh_data (d : Dev) (i : Nat) (g : RedCh → RedCh) : (d.onRedCh i g).data = d.data := rfl
@[simp] theorem Dev.onRedCh_red (d : Dev) (i : Nat) (g : RedCh → RedCh) : (d.onRedCh i g).red = d.red := rfl
@[simp] theorem Dev.onRedCh_mir (d : Dev) (i : Nat) (g : RedCh → RedCh) : (d.onRedCh i g).mir = d.mir := rfl
@[simp] theorem Dev.onRedCh_meas (d : Dev) (i : Nat) (g : RedCh → RedCh) : (d.onRedCh i g).meas = d.meas := rfl
@[simp] theorem Dev.onRedCh_power (d : Dev) (i : Nat) (g : RedCh → RedCh) : (d.onRedCh i g).power = d.power := rfl
@[simp] theorem Dev.onRedCh_pav (d : Dev) (i : Nat) (g : RedCh → RedCh) : (d.onRedCh i g).pav = d.pav := rfl
@[simp] theorem Dev.onRedCh_otdr (d : Dev) (i : Nat) (g : RedCh → RedCh) : (d.onRedCh i g).otdr = d.otdr := rfl
@[simp] theorem Dev.onRedCh_upd (d : Dev) (i : Nat) (g : RedCh → RedCh) : (d.onRedCh i g).upd = d.upd := rfl
@[simp] theorem Dev.onOtdr_draws (d : Dev) (i : Nat) (g : Otdr → Otdr) : (d.onOtdr i g).draws = d.draws := rfl
@[simp] theorem Dev.onOtdr_out (d : Dev) (i : Nat) (g : Otdr → Otdr) : (d.onOtdr i g).out = d.out := rfl
@[simp] theorem Dev.onOtdr_boot (d : Dev) (i : Nat) (g : Otdr → Otdr) : (d.onOtdr i g).boot = d.boot := rfl
@[simp] theorem Dev.onOtdr_fuses (d : Dev) (i : Nat) (g : Otdr → Otdr) : (d.onOtdr i g).fuses = d.fuses := rfl
@[simp] theorem Dev.onOtdr_image (d : Dev) (i : Nat) (g : Otdr → Otdr) : (d.onOtdr i g).image = d.image := rfl
@[simp] theorem Dev.onOtdr_pins (d : Dev) (i : Nat) (g : Otdr → Otdr) : (d.onOtdr i g).pins = d.pins := rfl
@[simp] theorem Dev.onOtdr_time (d : Dev) (i : Nat) (g : Otdr → Otdr) : (d.onOtdr i g).time = d.time := rfl
@[simp] theorem Dev.onOtdr_pcie (d : Dev) (i : Nat) (g : Otdr → Otdr) : (d.onOtdr i g).pcie = d.pcie := rfl
@[simp] theorem Dev.onOtdr_funcs (d : Dev) (i : Nat) (g : Otdr → Otdr) : (d.onOtdr i g).funcs = d.funcs := rfl
@[simp] theorem Dev.onOtdr_regs (d : Dev) (i : Nat) (g : Otdr → Otdr) : (d.onOtdr i g).regs = d.regs := rfl
@[simp] theorem Dev.onOtdr_ctrs (d : Dev) (i : Nat) (g : Otdr → Otdr) : (d.onOtdr i g).ctrs = d.ctrs := rfl
@[simp] theorem Dev.onOtdr_live (d : Dev) (i : Nat) (g : Otdr → Otdr) : (d.onOtdr i g).live = d.live := rfl
@[simp] theorem Dev.onOtdr_due (d : Dev) (i : Nat) (g : Otdr → Otdr) : (d.onOtdr i g).due = d.due := rfl
@[simp] theorem Dev.onOtdr_round (d : Dev) (i : Nat) (g : Otdr → Otdr) : (d.onOtdr i g).round = d.round := rfl
@[simp] theorem Dev.onOtdr_daeLogged (d : Dev) (i : Nat) (g : Otdr → Otdr) : (d.onOtdr i g).daeLogged = d.daeLogged := rfl
@[simp] theorem Dev.onOtdr_pon (d : Dev) (i : Nat) (g : Otdr → Otdr) : (d.onOtdr i g).pon = d.pon := rfl
@[simp] theorem Dev.onOtdr_data (d : Dev) (i : Nat) (g : Otdr → Otdr) : (d.onOtdr i g).data = d.data := rfl
@[simp] theorem Dev.onOtdr_red (d : Dev) (i : Nat) (g : Otdr → Otdr) : (d.onOtdr i g).red = d.red := rfl
@[simp] theorem Dev.onOtdr_mir (d : Dev) (i : Nat) (g : Otdr → Otdr) : (d.onOtdr i g).mir = d.mir := rfl
@[simp] theorem Dev.onOtdr_redch (d : Dev) (i : Nat) (g : Otdr → Otdr) : (d.onOtdr i g).redch = d.redch := rfl
@[simp] theorem Dev.onOtdr_meas (d : Dev) (i : Nat) (g : Otdr → Otdr) : (d.onOtdr i g).meas = d.meas := rfl
@[simp] theorem Dev.onOtdr_power (d : Dev) (i : Nat) (g : Otdr → Otdr) : (d.onOtdr i g).power = d.power := rfl
@[simp] theorem Dev.onOtdr_pav (d : Dev) (i : Nat) (g : Otdr → Otdr) : (d.onOtdr i g).pav = d.pav := rfl
@[simp] theorem Dev.onOtdr_upd (d : Dev) (i : Nat) (g : Otdr → Otdr) : (d.onOtdr i g).upd = d.upd := rfl
@[simp] theorem Dev.onPtp_draws (d : Dev) (i : Nat) (g : Ptp → Ptp) : (d.onPtp i g).draws = d.draws := rfl
@[simp] theorem Dev.onPtp_out (d : Dev) (i : Nat) (g : Ptp → Ptp) : (d.onPtp i g).out = d.out := rfl
@[simp] theorem Dev.onPtp_boot (d : Dev) (i : Nat) (g : Ptp → Ptp) : (d.onPtp i g).boot = d.boot := rfl
@[simp] theorem Dev.onPtp_fuses (d : Dev) (i : Nat) (g : Ptp → Ptp) : (d.onPtp i g).fuses = d.fuses := rfl
@[simp] theorem Dev.onPtp_image (d : Dev) (i : Nat) (g : Ptp → Ptp) : (d.onPtp i g).image = d.image := rfl
@[simp] theorem Dev.onPtp_pins (d : Dev) (i : Nat) (g : Ptp → Ptp) : (d.onPtp i g).pins = d.pins := rfl
@[simp] theorem Dev.onPtp_pcie (d : Dev) (i : Nat) (g : Ptp → Ptp) : (d.onPtp i g).pcie = d.pcie := rfl
@[simp] theorem Dev.onPtp_funcs (d : Dev) (i : Nat) (g : Ptp → Ptp) : (d.onPtp i g).funcs = d.funcs := rfl
@[simp] theorem Dev.onPtp_regs (d : Dev) (i : Nat) (g : Ptp → Ptp) : (d.onPtp i g).regs = d.regs := rfl
@[simp] theorem Dev.onPtp_ctrs (d : Dev) (i : Nat) (g : Ptp → Ptp) : (d.onPtp i g).ctrs = d.ctrs := rfl
@[simp] theorem Dev.onPtp_live (d : Dev) (i : Nat) (g : Ptp → Ptp) : (d.onPtp i g).live = d.live := rfl
@[simp] theorem Dev.onPtp_due (d : Dev) (i : Nat) (g : Ptp → Ptp) : (d.onPtp i g).due = d.due := rfl
@[simp] theorem Dev.onPtp_round (d : Dev) (i : Nat) (g : Ptp → Ptp) : (d.onPtp i g).round = d.round := rfl
@[simp] theorem Dev.onPtp_daeLogged (d : Dev) (i : Nat) (g : Ptp → Ptp) : (d.onPtp i g).daeLogged = d.daeLogged := rfl
@[simp] theorem Dev.onPtp_pon (d : Dev) (i : Nat) (g : Ptp → Ptp) : (d.onPtp i g).pon = d.pon := rfl
@[simp] theorem Dev.onPtp_data (d : Dev) (i : Nat) (g : Ptp → Ptp) : (d.onPtp i g).data = d.data := rfl
@[simp] theorem Dev.onPtp_red (d : Dev) (i : Nat) (g : Ptp → Ptp) : (d.onPtp i g).red = d.red := rfl
@[simp] theorem Dev.onPtp_mir (d : Dev) (i : Nat) (g : Ptp → Ptp) : (d.onPtp i g).mir = d.mir := rfl
@[simp] theorem Dev.onPtp_redch (d : Dev) (i : Nat) (g : Ptp → Ptp) : (d.onPtp i g).redch = d.redch := rfl
@[simp] theorem Dev.onPtp_meas (d : Dev) (i : Nat) (g : Ptp → Ptp) : (d.onPtp i g).meas = d.meas := rfl
@[simp] theorem Dev.onPtp_power (d : Dev) (i : Nat) (g : Ptp → Ptp) : (d.onPtp i g).power = d.power := rfl
@[simp] theorem Dev.onPtp_pav (d : Dev) (i : Nat) (g : Ptp → Ptp) : (d.onPtp i g).pav = d.pav := rfl
@[simp] theorem Dev.onPtp_otdr (d : Dev) (i : Nat) (g : Ptp → Ptp) : (d.onPtp i g).otdr = d.otdr := rfl
@[simp] theorem Dev.onPtp_upd (d : Dev) (i : Nat) (g : Ptp → Ptp) : (d.onPtp i g).upd = d.upd := rfl
@[simp] theorem Dev.onCmp_draws (d : Dev) (i : Nat) (g : Cmp → Cmp) : (d.onCmp i g).draws = d.draws := rfl
@[simp] theorem Dev.onCmp_out (d : Dev) (i : Nat) (g : Cmp → Cmp) : (d.onCmp i g).out = d.out := rfl
@[simp] theorem Dev.onCmp_boot (d : Dev) (i : Nat) (g : Cmp → Cmp) : (d.onCmp i g).boot = d.boot := rfl
@[simp] theorem Dev.onCmp_fuses (d : Dev) (i : Nat) (g : Cmp → Cmp) : (d.onCmp i g).fuses = d.fuses := rfl
@[simp] theorem Dev.onCmp_image (d : Dev) (i : Nat) (g : Cmp → Cmp) : (d.onCmp i g).image = d.image := rfl
@[simp] theorem Dev.onCmp_pins (d : Dev) (i : Nat) (g : Cmp → Cmp) : (d.onCmp i g).pins = d.pins := rfl
@[simp] theorem Dev.onCmp_pcie (d : Dev) (i : Nat) (g : Cmp → Cmp) : (d.onCmp i g).pcie = d.pcie := rfl
@[simp] theorem Dev.onCmp_funcs (d : Dev) (i : Nat) (g : Cmp → Cmp) : (d.onCmp i g).funcs = d.funcs := rfl
@[simp] theorem Dev.onCmp_regs (d : Dev) (i : Nat) (g : Cmp → Cmp) : (d.onCmp i g).regs = d.regs := rfl
@[simp] theorem Dev.onCmp_ctrs (d : Dev) (i : Nat) (g : Cmp → Cmp) : (d.onCmp i g).ctrs = d.ctrs := rfl
@[simp] theorem Dev.onCmp_live (d : Dev) (i : Nat) (g : Cmp → Cmp) : (d.onCmp i g).live = d.live := rfl
@[simp] theorem Dev.onCmp_due (d : Dev) (i : Nat) (g : Cmp → Cmp) : (d.onCmp i g).due = d.due := rfl
@[simp] theorem Dev.onCmp_round (d : Dev) (i : Nat) (g : Cmp → Cmp) : (d.onCmp i g).round = d.round := rfl
@[simp] theorem Dev.onCmp_daeLogged (d : Dev) (i : Nat) (g : Cmp → Cmp) : (d.onCmp i g).daeLogged = d.daeLogged := rfl
@[simp] theorem Dev.onCmp_pon (d : Dev) (i : Nat) (g : Cmp → Cmp) : (d.onCmp i g).pon = d.pon := rfl
@[simp] theorem Dev.onCmp_data (d : Dev) (i : Nat) (g : Cmp → Cmp) : (d.onCmp i g).data = d.data := rfl
@[simp] theorem Dev.onCmp_red (d : Dev) (i : Nat) (g : Cmp → Cmp) : (d.onCmp i g).red = d.red := rfl
@[simp] theorem Dev.onCmp_mir (d : Dev) (i : Nat) (g : Cmp → Cmp) : (d.onCmp i g).mir = d.mir := rfl
@[simp] theorem Dev.onCmp_redch (d : Dev) (i : Nat) (g : Cmp → Cmp) : (d.onCmp i g).redch = d.redch := rfl
@[simp] theorem Dev.onCmp_meas (d : Dev) (i : Nat) (g : Cmp → Cmp) : (d.onCmp i g).meas = d.meas := rfl
@[simp] theorem Dev.onCmp_power (d : Dev) (i : Nat) (g : Cmp → Cmp) : (d.onCmp i g).power = d.power := rfl
@[simp] theorem Dev.onCmp_pav (d : Dev) (i : Nat) (g : Cmp → Cmp) : (d.onCmp i g).pav = d.pav := rfl
@[simp] theorem Dev.onCmp_otdr (d : Dev) (i : Nat) (g : Cmp → Cmp) : (d.onCmp i g).otdr = d.otdr := rfl
@[simp] theorem Dev.onCmp_upd (d : Dev) (i : Nat) (g : Cmp → Cmp) : (d.onCmp i g).upd = d.upd := rfl
@[simp] theorem Dev.setQueue_draws (d : Dev) (i : Nat) (q : List Pkt) : (d.setQueue i q).draws = d.draws := rfl
@[simp] theorem Dev.setQueue_out (d : Dev) (i : Nat) (q : List Pkt) : (d.setQueue i q).out = d.out := rfl
@[simp] theorem Dev.setQueue_boot (d : Dev) (i : Nat) (q : List Pkt) : (d.setQueue i q).boot = d.boot := rfl
@[simp] theorem Dev.setQueue_fuses (d : Dev) (i : Nat) (q : List Pkt) : (d.setQueue i q).fuses = d.fuses := rfl
@[simp] theorem Dev.setQueue_image (d : Dev) (i : Nat) (q : List Pkt) : (d.setQueue i q).image = d.image := rfl
@[simp] theorem Dev.setQueue_pins (d : Dev) (i : Nat) (q : List Pkt) : (d.setQueue i q).pins = d.pins := rfl
@[simp] theorem Dev.setQueue_time (d : Dev) (i : Nat) (q : List Pkt) : (d.setQueue i q).time = d.time := rfl
@[simp] theorem Dev.setQueue_pcie (d : Dev) (i : Nat) (q : List Pkt) : (d.setQueue i q).pcie = d.pcie := rfl
@[simp] theorem Dev.setQueue_funcs (d : Dev) (i : Nat) (q : List Pkt) : (d.setQueue i q).funcs = d.funcs := rfl
@[simp] theorem Dev.setQueue_regs (d : Dev) (i : Nat) (q : List Pkt) : (d.setQueue i q).regs = d.regs := rfl
@[simp] theorem Dev.setQueue_ctrs (d : Dev) (i : Nat) (q : List Pkt) : (d.setQueue i q).ctrs = d.ctrs := rfl
@[simp] theorem Dev.setQueue_live (d : Dev) (i : Nat) (q : List Pkt) : (d.setQueue i q).live = d.live := rfl
@[simp] theorem Dev.setQueue_due (d : Dev) (i : Nat) (q : List Pkt) : (d.setQueue i q).due = d.due := rfl
@[simp] theorem Dev.setQueue_round (d : Dev) (i : Nat) (q : List Pkt) : (d.setQueue i q).round = d.round := rfl
@[simp] theorem Dev.setQueue_daeLogged (d : Dev) (i : Nat) (q : List Pkt) : (d.setQueue i q).daeLogged = d.daeLogged := rfl
@[simp] theorem Dev.setQueue_data (d : Dev) (i : Nat) (q : List Pkt) : (d.setQueue i q).data = d.data := rfl
@[simp] theorem Dev.setQueue_red (d : Dev) (i : Nat) (q : List Pkt) : (d.setQueue i q).red = d.red := rfl
@[simp] theorem Dev.setQueue_mir (d : Dev) (i : Nat) (q : List Pkt) : (d.setQueue i q).mir = d.mir := rfl
@[simp] theorem Dev.setQueue_redch (d : Dev) (i : Nat) (q : List Pkt) : (d.setQueue i q).redch = d.redch := rfl
@[simp] theorem Dev.setQueue_meas (d : Dev) (i : Nat) (q : List Pkt) : (d.setQueue i q).meas = d.meas := rfl
@[simp] theorem Dev.setQueue_power (d : Dev) (i : Nat) (q : List Pkt) : (d.setQueue i q).power = d.power := rfl
@[simp] theorem Dev.setQueue_pav (d : Dev) (i : Nat) (q : List Pkt) : (d.setQueue i q).pav = d.pav := rfl
@[simp] theorem Dev.setQueue_otdr (d : Dev) (i : Nat) (q : List Pkt) : (d.setQueue i q).otdr = d.otdr := rfl
@[simp] theorem Dev.setQueue_upd (d : Dev) (i : Nat) (q : List Pkt) : (d.setQueue i q).upd = d.upd := rfl
@[simp] theorem Dev.setReg_draws (d : Dev) (a v : Nat) : (d.setReg a v).draws = d.draws := rfl
@[simp] theorem Dev.setReg_out (d : Dev) (a v : Nat) : (d.setReg a v).out = d.out := rfl
@[simp] theorem Dev.setReg_boot (d : Dev) (a v : Nat) : (d.setReg a v).boot = d.boot := rfl
@[simp] theorem Dev.setReg_fuses (d : Dev) (a v : Nat) : (d.setReg a v).fuses = d.fuses := rfl
@[simp] theorem Dev.setReg_image (d : Dev) (a v : Nat) : (d.setReg a v).image = d.image := rfl
@[simp] theorem Dev.setReg_pins (d : Dev) (a v : Nat) : (d.setReg a v).pins = d.pins := rfl
@[simp] theorem Dev.setReg_time (d : Dev) (a v : Nat) : (d.setReg a v).time = d.time := rfl
@[simp] theorem Dev.setReg_pcie (d : Dev) (a v : Nat) : (d.setReg a v).pcie = d.pcie := rfl
@[simp] theorem Dev.setReg_funcs (d : Dev) (a v : Nat) : (d.setReg a v).funcs = d.funcs := rfl
@[simp] theorem Dev.setReg_ctrs (d : Dev) (a v : Nat) : (d.setReg a v).ctrs = d.ctrs := rfl
@[simp] theorem Dev.setReg_live (d : Dev) (a v : Nat) : (d.setReg a v).live = d.live := rfl
@[simp] theorem Dev.setReg_due (d : Dev) (a v : Nat) : (d.setReg a v).due = d.due := rfl
@[simp] theorem Dev.setReg_round (d : Dev) (a v : Nat) : (d.setReg a v).round = d.round := rfl
@[simp] theorem Dev.setReg_daeLogged (d : Dev) (a v : Nat) : (d.setReg a v).daeLogged = d.daeLogged := rfl
@[simp] theorem Dev.setReg_pon (d : Dev) (a v : Nat) : (d.setReg a v).pon = d.pon := rfl
@[simp] theorem Dev.setReg_data (d : Dev) (a v : Nat) : (d.setReg a v).data = d.data := rfl
@[simp] theorem Dev.setReg_red (d : Dev) (a v : Nat) : (d.setReg a v).red = d.red := rfl
@[simp] theorem Dev.setReg_mir (d : Dev) (a v : Nat) : (d.setReg a v).mir = d.mir := rfl
@[simp] theorem Dev.setReg_redch (d : Dev) (a v : Nat) : (d.setReg a v).redch = d.redch := rfl
@[simp] theorem Dev.setReg_meas (d : Dev) (a v : Nat) : (d.setReg a v).meas = d.meas := rfl
@[simp] theorem Dev.setReg_power (d : Dev) (a v : Nat) : (d.setReg a v).power = d.power := rfl
@[simp] theorem Dev.setReg_pav (d : Dev) (a v : Nat) : (d.setReg a v).pav = d.pav := rfl
@[simp] theorem Dev.setReg_otdr (d : Dev) (a v : Nat) : (d.setReg a v).otdr = d.otdr := rfl
@[simp] theorem Dev.setReg_upd (d : Dev) (a v : Nat) : (d.setReg a v).upd = d.upd := rfl
@[simp] theorem Dev.setLive_draws (d : Dev) (a v : Nat) : (d.setLive a v).draws = d.draws := rfl
@[simp] theorem Dev.setLive_out (d : Dev) (a v : Nat) : (d.setLive a v).out = d.out := rfl
@[simp] theorem Dev.setLive_boot (d : Dev) (a v : Nat) : (d.setLive a v).boot = d.boot := rfl
@[simp] theorem Dev.setLive_fuses (d : Dev) (a v : Nat) : (d.setLive a v).fuses = d.fuses := rfl
@[simp] theorem Dev.setLive_image (d : Dev) (a v : Nat) : (d.setLive a v).image = d.image := rfl
@[simp] theorem Dev.setLive_pins (d : Dev) (a v : Nat) : (d.setLive a v).pins = d.pins := rfl
@[simp] theorem Dev.setLive_time (d : Dev) (a v : Nat) : (d.setLive a v).time = d.time := rfl
@[simp] theorem Dev.setLive_pcie (d : Dev) (a v : Nat) : (d.setLive a v).pcie = d.pcie := rfl
@[simp] theorem Dev.setLive_funcs (d : Dev) (a v : Nat) : (d.setLive a v).funcs = d.funcs := rfl
@[simp] theorem Dev.setLive_regs (d : Dev) (a v : Nat) : (d.setLive a v).regs = d.regs := rfl
@[simp] theorem Dev.setLive_ctrs (d : Dev) (a v : Nat) : (d.setLive a v).ctrs = d.ctrs := rfl
@[simp] theorem Dev.setLive_due (d : Dev) (a v : Nat) : (d.setLive a v).due = d.due := rfl
@[simp] theorem Dev.setLive_round (d : Dev) (a v : Nat) : (d.setLive a v).round = d.round := rfl
@[simp] theorem Dev.setLive_daeLogged (d : Dev) (a v : Nat) : (d.setLive a v).daeLogged = d.daeLogged := rfl
@[simp] theorem Dev.setLive_pon (d : Dev) (a v : Nat) : (d.setLive a v).pon = d.pon := rfl
@[simp] theorem Dev.setLive_data (d : Dev) (a v : Nat) : (d.setLive a v).data = d.data := rfl
@[simp] theorem Dev.setLive_red (d : Dev) (a v : Nat) : (d.setLive a v).red = d.red := rfl
@[simp] theorem Dev.setLive_mir (d : Dev) (a v : Nat) : (d.setLive a v).mir = d.mir := rfl
@[simp] theorem Dev.setLive_redch (d : Dev) (a v : Nat) : (d.setLive a v).redch = d.redch := rfl
@[simp] theorem Dev.setLive_meas (d : Dev) (a v : Nat) : (d.setLive a v).meas = d.meas := rfl
@[simp] theorem Dev.setLive_power (d : Dev) (a v : Nat) : (d.setLive a v).power = d.power := rfl
@[simp] theorem Dev.setLive_pav (d : Dev) (a v : Nat) : (d.setLive a v).pav = d.pav := rfl
@[simp] theorem Dev.setLive_otdr (d : Dev) (a v : Nat) : (d.setLive a v).otdr = d.otdr := rfl
@[simp] theorem Dev.setLive_upd (d : Dev) (a v : Nat) : (d.setLive a v).upd = d.upd := rfl
@[simp] theorem Dev.setCtr_draws (d : Dev) (a v : Nat) : (d.setCtr a v).draws = d.draws := rfl
@[simp] theorem Dev.setCtr_out (d : Dev) (a v : Nat) : (d.setCtr a v).out = d.out := rfl
@[simp] theorem Dev.setCtr_boot (d : Dev) (a v : Nat) : (d.setCtr a v).boot = d.boot := rfl
@[simp] theorem Dev.setCtr_fuses (d : Dev) (a v : Nat) : (d.setCtr a v).fuses = d.fuses := rfl
@[simp] theorem Dev.setCtr_image (d : Dev) (a v : Nat) : (d.setCtr a v).image = d.image := rfl
@[simp] theorem Dev.setCtr_pins (d : Dev) (a v : Nat) : (d.setCtr a v).pins = d.pins := rfl
@[simp] theorem Dev.setCtr_time (d : Dev) (a v : Nat) : (d.setCtr a v).time = d.time := rfl
@[simp] theorem Dev.setCtr_pcie (d : Dev) (a v : Nat) : (d.setCtr a v).pcie = d.pcie := rfl
@[simp] theorem Dev.setCtr_funcs (d : Dev) (a v : Nat) : (d.setCtr a v).funcs = d.funcs := rfl
@[simp] theorem Dev.setCtr_regs (d : Dev) (a v : Nat) : (d.setCtr a v).regs = d.regs := rfl
@[simp] theorem Dev.setCtr_live (d : Dev) (a v : Nat) : (d.setCtr a v).live = d.live := rfl
@[simp] theorem Dev.setCtr_due (d : Dev) (a v : Nat) : (d.setCtr a v).due = d.due := rfl
@[simp] theorem Dev.setCtr_round (d : Dev) (a v : Nat) : (d.setCtr a v).round = d.round := rfl
@[simp] theorem Dev.setCtr_daeLogged (d : Dev) (a v : Nat) : (d.setCtr a v).daeLogged = d.daeLogged := rfl
@[simp] theorem Dev.setCtr_pon (d : Dev) (a v : Nat) : (d.setCtr a v).pon = d.pon := rfl
@[simp] theorem Dev.setCtr_data (d : Dev) (a v : Nat) : (d.setCtr a v).data = d.data := rfl
@[simp] theorem Dev.setCtr_red (d : Dev) (a v : Nat) : (d.setCtr a v).red = d.red := rfl
@[simp] theorem Dev.setCtr_mir (d : Dev) (a v : Nat) : (d.setCtr a v).mir = d.mir := rfl
@[simp] theorem Dev.setCtr_redch (d : Dev) (a v : Nat) : (d.setCtr a v).redch = d.redch := rfl
@[simp] theorem Dev.setCtr_meas (d : Dev) (a v : Nat) : (d.setCtr a v).meas = d.meas := rfl
@[simp] theorem Dev.setCtr_power (d : Dev) (a v : Nat) : (d.setCtr a v).power = d.power := rfl
@[simp] theorem Dev.setCtr_pav (d : Dev) (a v : Nat) : (d.setCtr a v).pav = d.pav := rfl
@[simp] theorem Dev.setCtr_otdr (d : Dev) (a v : Nat) : (d.setCtr a v).otdr = d.otdr := rfl
@[simp] theorem Dev.setCtr_upd (d : Dev) (a v : Nat) : (d.setCtr a v).upd = d.upd := rfl
@[simp] theorem Dev.bump_draws (d : Dev) (a v : Nat) : (d.bump a v).draws = d.draws := rfl
@[simp] theorem Dev.bump_out (d : Dev) (a v : Nat) : (d.bump a v).out = d.out := rfl
@[simp] theorem Dev.bump_boot (d : Dev) (a v : Nat) : (d.bump a v).boot = d.boot := rfl
@[simp] theorem Dev.bump_fuses (d : Dev) (a v : Nat) : (d.bump a v).fuses = d.fuses := rfl
@[simp] theorem Dev.bump_image (d : Dev) (a v : Nat) : (d.bump a v).image = d.image := rfl
@[simp] theorem Dev.bump_pins (d : Dev) (a v : Nat) : (d.bump a v).pins = d.pins := rfl
@[simp] theorem Dev.bump_time (d : Dev) (a v : Nat) : (d.bump a v).time = d.time := rfl
@[simp] theorem Dev.bump_pcie (d : Dev) (a v : Nat) : (d.bump a v).pcie = d.pcie := rfl
@[simp] theorem Dev.bump_funcs (d : Dev) (a v : Nat) : (d.bump a v).funcs = d.funcs := rfl
@[simp] theorem Dev.bump_regs (d : Dev) (a v : Nat) : (d.bump a v).regs = d.regs := rfl
@[simp] theorem Dev.bump_live (d : Dev) (a v : Nat) : (d.bump a v).live = d.live := rfl
@[simp] theorem Dev.bump_due (d : Dev) (a v : Nat) : (d.bump a v).due = d.due := rfl
@[simp] theorem Dev.bump_round (d : Dev) (a v : Nat) : (d.bump a v).round = d.round := rfl
@[simp] theorem Dev.bump_daeLogged (d : Dev) (a v : Nat) : (d.bump a v).daeLogged = d.daeLogged := rfl
@[simp] theorem Dev.bump_pon (d : Dev) (a v : Nat) : (d.bump a v).pon = d.pon := rfl
@[simp] theorem Dev.bump_data (d : Dev) (a v : Nat) : (d.bump a v).data = d.data := rfl
@[simp] theorem Dev.bump_red (d : Dev) (a v : Nat) : (d.bump a v).red = d.red := rfl
@[simp] theorem Dev.bump_mir (d : Dev) (a v : Nat) : (d.bump a v).mir = d.mir := rfl
@[simp] theorem Dev.bump_redch (d : Dev) (a v : Nat) : (d.bump a v).redch = d.redch := rfl
@[simp] theorem Dev.bump_meas (d : Dev) (a v : Nat) : (d.bump a v).meas = d.meas := rfl
@[simp] theorem Dev.bump_power (d : Dev) (a v : Nat) : (d.bump a v).power = d.power := rfl
@[simp] theorem Dev.bump_pav (d : Dev) (a v : Nat) : (d.bump a v).pav = d.pav := rfl
@[simp] theorem Dev.bump_otdr (d : Dev) (a v : Nat) : (d.bump a v).otdr = d.otdr := rfl
@[simp] theorem Dev.bump_upd (d : Dev) (a v : Nat) : (d.bump a v).upd = d.upd := rfl
@[simp] theorem Dev.bumpSat_draws (d : Dev) (a v : Nat) : (d.bumpSat a v).draws = d.draws := rfl
@[simp] theorem Dev.bumpSat_out (d : Dev) (a v : Nat) : (d.bumpSat a v).out = d.out := rfl
@[simp] theorem Dev.bumpSat_boot (d : Dev) (a v : Nat) : (d.bumpSat a v).boot = d.boot := rfl
@[simp] theorem Dev.bumpSat_fuses (d : Dev) (a v : Nat) : (d.bumpSat a v).fuses = d.fuses := rfl
@[simp] theorem Dev.bumpSat_image (d : Dev) (a v : Nat) : (d.bumpSat a v).image = d.image := rfl
@[simp] theorem Dev.bumpSat_pins (d : Dev) (a v : Nat) : (d.bumpSat a v).pins = d.pins := rfl
@[simp] theorem Dev.bumpSat_time (d : Dev) (a v : Nat) : (d.bumpSat a v).time = d.time := rfl
@[simp] theorem Dev.bumpSat_pcie (d : Dev) (a v : Nat) : (d.bumpSat a v).pcie = d.pcie := rfl
@[simp] theorem Dev.bumpSat_funcs (d : Dev) (a v : Nat) : (d.bumpSat a v).funcs = d.funcs := rfl
@[simp] theorem Dev.bumpSat_ctrs (d : Dev) (a v : Nat) : (d.bumpSat a v).ctrs = d.ctrs := rfl
@[simp] theorem Dev.bumpSat_live (d : Dev) (a v : Nat) : (d.bumpSat a v).live = d.live := rfl
@[simp] theorem Dev.bumpSat_due (d : Dev) (a v : Nat) : (d.bumpSat a v).due = d.due := rfl
@[simp] theorem Dev.bumpSat_round (d : Dev) (a v : Nat) : (d.bumpSat a v).round = d.round := rfl
@[simp] theorem Dev.bumpSat_daeLogged (d : Dev) (a v : Nat) : (d.bumpSat a v).daeLogged = d.daeLogged := rfl
@[simp] theorem Dev.bumpSat_pon (d : Dev) (a v : Nat) : (d.bumpSat a v).pon = d.pon := rfl
@[simp] theorem Dev.bumpSat_data (d : Dev) (a v : Nat) : (d.bumpSat a v).data = d.data := rfl
@[simp] theorem Dev.bumpSat_red (d : Dev) (a v : Nat) : (d.bumpSat a v).red = d.red := rfl
@[simp] theorem Dev.bumpSat_mir (d : Dev) (a v : Nat) : (d.bumpSat a v).mir = d.mir := rfl
@[simp] theorem Dev.bumpSat_redch (d : Dev) (a v : Nat) : (d.bumpSat a v).redch = d.redch := rfl
@[simp] theorem Dev.bumpSat_meas (d : Dev) (a v : Nat) : (d.bumpSat a v).meas = d.meas := rfl
@[simp] theorem Dev.bumpSat_power (d : Dev) (a v : Nat) : (d.bumpSat a v).power = d.power := rfl
@[simp] theorem Dev.bumpSat_pav (d : Dev) (a v : Nat) : (d.bumpSat a v).pav = d.pav := rfl
@[simp] theorem Dev.bumpSat_otdr (d : Dev) (a v : Nat) : (d.bumpSat a v).otdr = d.otdr := rfl
@[simp] theorem Dev.bumpSat_upd (d : Dev) (a v : Nat) : (d.bumpSat a v).upd = d.upd := rfl
@[simp] theorem Dev.setBit_draws (d : Dev) (a i : Nat) (b : Bool) : (d.setBit a i b).draws = d.draws := rfl
@[simp] theorem Dev.setBit_out (d : Dev) (a i : Nat) (b : Bool) : (d.setBit a i b).out = d.out := rfl
@[simp] theorem Dev.setBit_boot (d : Dev) (a i : Nat) (b : Bool) : (d.setBit a i b).boot = d.boot := rfl
@[simp] theorem Dev.setBit_fuses (d : Dev) (a i : Nat) (b : Bool) : (d.setBit a i b).fuses = d.fuses := rfl
@[simp] theorem Dev.setBit_image (d : Dev) (a i : Nat) (b : Bool) : (d.setBit a i b).image = d.image := rfl
@[simp] theorem Dev.setBit_pins (d : Dev) (a i : Nat) (b : Bool) : (d.setBit a i b).pins = d.pins := rfl
@[simp] theorem Dev.setBit_time (d : Dev) (a i : Nat) (b : Bool) : (d.setBit a i b).time = d.time := rfl
@[simp] theorem Dev.setBit_pcie (d : Dev) (a i : Nat) (b : Bool) : (d.setBit a i b).pcie = d.pcie := rfl
@[simp] theorem Dev.setBit_funcs (d : Dev) (a i : Nat) (b : Bool) : (d.setBit a i b).funcs = d.funcs := rfl
@[simp] theorem Dev.setBit_ctrs (d : Dev) (a i : Nat) (b : Bool) : (d.setBit a i b).ctrs = d.ctrs := rfl
@[simp] theorem Dev.setBit_live (d : Dev) (a i : Nat) (b : Bool) : (d.setBit a i b).live = d.live := rfl
@[simp] theorem Dev.setBit_due (d : Dev) (a i : Nat) (b : Bool) : (d.setBit a i b).due = d.due := rfl
@[simp] theorem Dev.setBit_round (d : Dev) (a i : Nat) (b : Bool) : (d.setBit a i b).round = d.round := rfl
@[simp] theorem Dev.setBit_daeLogged (d : Dev) (a i : Nat) (b : Bool) : (d.setBit a i b).daeLogged = d.daeLogged := rfl
@[simp] theorem Dev.setBit_pon (d : Dev) (a i : Nat) (b : Bool) : (d.setBit a i b).pon = d.pon := rfl
@[simp] theorem Dev.setBit_data (d : Dev) (a i : Nat) (b : Bool) : (d.setBit a i b).data = d.data := rfl
@[simp] theorem Dev.setBit_red (d : Dev) (a i : Nat) (b : Bool) : (d.setBit a i b).red = d.red := rfl
@[simp] theorem Dev.setBit_mir (d : Dev) (a i : Nat) (b : Bool) : (d.setBit a i b).mir = d.mir := rfl
@[simp] theorem Dev.setBit_redch (d : Dev) (a i : Nat) (b : Bool) : (d.setBit a i b).redch = d.redch := rfl
@[simp] theorem Dev.setBit_meas (d : Dev) (a i : Nat) (b : Bool) : (d.setBit a i b).meas = d.meas := rfl
@[simp] theorem Dev.setBit_power (d : Dev) (a i : Nat) (b : Bool) : (d.setBit a i b).power = d.power := rfl
@[simp] theorem Dev.setBit_pav (d : Dev) (a i : Nat) (b : Bool) : (d.setBit a i b).pav = d.pav := rfl
@[simp] theorem Dev.setBit_otdr (d : Dev) (a i : Nat) (b : Bool) : (d.setBit a i b).otdr = d.otdr := rfl
@[simp] theorem Dev.setBit_upd (d : Dev) (a i : Nat) (b : Bool) : (d.setBit a i b).upd = d.upd := rfl
@[simp] theorem Dev.emit_out (d : Dev) (o : Out) : (d.emit o).out = o :: d.out := rfl
@[simp] theorem Dev.onBoot_boot (d : Dev) (g : Boot → Boot) : (d.onBoot g).boot = g d.boot := rfl
@[simp] theorem Dev.onTime_time (d : Dev) (g : Time → Time) : (d.onTime g).time = g d.time := rfl
@[simp] theorem Dev.onPcie_pcie (d : Dev) (g : Pcie → Pcie) : (d.onPcie g).pcie = g d.pcie := rfl
@[simp] theorem Dev.onPins_pins (d : Dev) (g : Pins → Pins) : (d.onPins g).pins = g d.pins := rfl
@[simp] theorem Dev.onPon_pon (d : Dev) (g : Pon → Pon) : (d.onPon g).pon = g d.pon := rfl
@[simp] theorem Dev.onData_data (d : Dev) (g : Data → Data) : (d.onData g).data = g d.data := rfl
@[simp] theorem Dev.onRed_red (d : Dev) (g : Red → Red) : (d.onRed g).red = g d.red := rfl
@[simp] theorem Dev.onMir_mir (d : Dev) (g : Mir → Mir) : (d.onMir g).mir = g d.mir := rfl
@[simp] theorem Dev.onMeas_meas (d : Dev) (g : Meas → Meas) : (d.onMeas g).meas = g d.meas := rfl
@[simp] theorem Dev.onPower_power (d : Dev) (g : Power → Power) : (d.onPower g).power = g d.power := rfl
@[simp] theorem Dev.onPav_pav (d : Dev) (g : Pav → Pav) : (d.onPav g).pav = g d.pav := rfl
@[simp] theorem Dev.onUpd_upd (d : Dev) (g : Upd → Upd) : (d.onUpd g).upd = g d.upd := rfl
@[simp] theorem Dev.onCls_data_dies (d : Dev) (g : Cls → Cls) : (d.onCls g).data.dies = d.data.dies := rfl
@[simp] theorem Dev.onCls_data_trie (d : Dev) (g : Cls → Cls) : (d.onCls g).data.trie = d.data.trie := rfl
@[simp] theorem Dev.onCls_data_exc (d : Dev) (g : Cls → Cls) : (d.onCls g).data.exc = d.data.exc := rfl
@[simp] theorem Dev.onCls_data_excWait (d : Dev) (g : Cls → Cls) : (d.onCls g).data.excWait = d.data.excWait := rfl
@[simp] theorem Dev.onCls_data_buf (d : Dev) (g : Cls → Cls) : (d.onCls g).data.buf = d.data.buf := rfl
@[simp] theorem Dev.onCls_data_nodes (d : Dev) (g : Cls → Cls) : (d.onCls g).data.nodes = d.data.nodes := rfl
@[simp] theorem Dev.onCls_data_policers (d : Dev) (g : Cls → Cls) : (d.onCls g).data.policers = d.data.policers := rfl
@[simp] theorem Dev.onCls_data_subs (d : Dev) (g : Cls → Cls) : (d.onCls g).data.subs = d.data.subs := rfl
@[simp] theorem Dev.onCls_data_lanes (d : Dev) (g : Cls → Cls) : (d.onCls g).data.lanes = d.data.lanes := rfl
@[simp] theorem Dev.onCls_data_synce (d : Dev) (g : Cls → Cls) : (d.onCls g).data.synce = d.data.synce := rfl
@[simp] theorem Dev.onCls_data_dma (d : Dev) (g : Cls → Cls) : (d.onCls g).data.dma = d.data.dma := rfl
@[simp] theorem Dev.onCls_data_units (d : Dev) (g : Cls → Cls) : (d.onCls g).data.units = d.data.units := rfl
@[simp] theorem Dev.onCls_data_offered (d : Dev) (g : Cls → Cls) : (d.onCls g).data.offered = d.data.offered := rfl
@[simp] theorem Dev.onCls_data_sending (d : Dev) (g : Cls → Cls) : (d.onCls g).data.sending = d.data.sending := rfl
@[simp] theorem Dev.onCls_data_descRam (d : Dev) (g : Cls → Cls) : (d.onCls g).data.descRam = d.data.descRam := rfl
@[simp] theorem Dev.onCls_data_dlinks (d : Dev) (g : Cls → Cls) : (d.onCls g).data.dlinks = d.data.dlinks := rfl
@[simp] theorem Dev.onBuf_data_cls (d : Dev) (g : Buf → Buf) : (d.onBuf g).data.cls = d.data.cls := rfl
@[simp] theorem Dev.onBuf_data_dies (d : Dev) (g : Buf → Buf) : (d.onBuf g).data.dies = d.data.dies := rfl
@[simp] theorem Dev.onBuf_data_trie (d : Dev) (g : Buf → Buf) : (d.onBuf g).data.trie = d.data.trie := rfl
@[simp] theorem Dev.onBuf_data_exc (d : Dev) (g : Buf → Buf) : (d.onBuf g).data.exc = d.data.exc := rfl
@[simp] theorem Dev.onBuf_data_excWait (d : Dev) (g : Buf → Buf) : (d.onBuf g).data.excWait = d.data.excWait := rfl
@[simp] theorem Dev.onBuf_data_nodes (d : Dev) (g : Buf → Buf) : (d.onBuf g).data.nodes = d.data.nodes := rfl
@[simp] theorem Dev.onBuf_data_policers (d : Dev) (g : Buf → Buf) : (d.onBuf g).data.policers = d.data.policers := rfl
@[simp] theorem Dev.onBuf_data_subs (d : Dev) (g : Buf → Buf) : (d.onBuf g).data.subs = d.data.subs := rfl
@[simp] theorem Dev.onBuf_data_lanes (d : Dev) (g : Buf → Buf) : (d.onBuf g).data.lanes = d.data.lanes := rfl
@[simp] theorem Dev.onBuf_data_synce (d : Dev) (g : Buf → Buf) : (d.onBuf g).data.synce = d.data.synce := rfl
@[simp] theorem Dev.onBuf_data_dma (d : Dev) (g : Buf → Buf) : (d.onBuf g).data.dma = d.data.dma := rfl
@[simp] theorem Dev.onBuf_data_units (d : Dev) (g : Buf → Buf) : (d.onBuf g).data.units = d.data.units := rfl
@[simp] theorem Dev.onBuf_data_offered (d : Dev) (g : Buf → Buf) : (d.onBuf g).data.offered = d.data.offered := rfl
@[simp] theorem Dev.onBuf_data_sending (d : Dev) (g : Buf → Buf) : (d.onBuf g).data.sending = d.data.sending := rfl
@[simp] theorem Dev.onBuf_data_descRam (d : Dev) (g : Buf → Buf) : (d.onBuf g).data.descRam = d.data.descRam := rfl
@[simp] theorem Dev.onBuf_data_dlinks (d : Dev) (g : Buf → Buf) : (d.onBuf g).data.dlinks = d.data.dlinks := rfl
@[simp] theorem Dev.onTrie_data_cls (d : Dev) (g : Trie → Trie) : (d.onTrie g).data.cls = d.data.cls := rfl
@[simp] theorem Dev.onTrie_data_dies (d : Dev) (g : Trie → Trie) : (d.onTrie g).data.dies = d.data.dies := rfl
@[simp] theorem Dev.onTrie_data_exc (d : Dev) (g : Trie → Trie) : (d.onTrie g).data.exc = d.data.exc := rfl
@[simp] theorem Dev.onTrie_data_excWait (d : Dev) (g : Trie → Trie) : (d.onTrie g).data.excWait = d.data.excWait := rfl
@[simp] theorem Dev.onTrie_data_buf (d : Dev) (g : Trie → Trie) : (d.onTrie g).data.buf = d.data.buf := rfl
@[simp] theorem Dev.onTrie_data_nodes (d : Dev) (g : Trie → Trie) : (d.onTrie g).data.nodes = d.data.nodes := rfl
@[simp] theorem Dev.onTrie_data_policers (d : Dev) (g : Trie → Trie) : (d.onTrie g).data.policers = d.data.policers := rfl
@[simp] theorem Dev.onTrie_data_subs (d : Dev) (g : Trie → Trie) : (d.onTrie g).data.subs = d.data.subs := rfl
@[simp] theorem Dev.onTrie_data_lanes (d : Dev) (g : Trie → Trie) : (d.onTrie g).data.lanes = d.data.lanes := rfl
@[simp] theorem Dev.onTrie_data_synce (d : Dev) (g : Trie → Trie) : (d.onTrie g).data.synce = d.data.synce := rfl
@[simp] theorem Dev.onTrie_data_dma (d : Dev) (g : Trie → Trie) : (d.onTrie g).data.dma = d.data.dma := rfl
@[simp] theorem Dev.onTrie_data_units (d : Dev) (g : Trie → Trie) : (d.onTrie g).data.units = d.data.units := rfl
@[simp] theorem Dev.onTrie_data_offered (d : Dev) (g : Trie → Trie) : (d.onTrie g).data.offered = d.data.offered := rfl
@[simp] theorem Dev.onTrie_data_sending (d : Dev) (g : Trie → Trie) : (d.onTrie g).data.sending = d.data.sending := rfl
@[simp] theorem Dev.onTrie_data_descRam (d : Dev) (g : Trie → Trie) : (d.onTrie g).data.descRam = d.data.descRam := rfl
@[simp] theorem Dev.onTrie_data_dlinks (d : Dev) (g : Trie → Trie) : (d.onTrie g).data.dlinks = d.data.dlinks := rfl
@[simp] theorem Dev.onChan_pon_recv (d : Dev) (i : Nat) (g : Chan → Chan) : (d.onChan i g).pon.recv = d.pon.recv := rfl
@[simp] theorem Dev.onChan_pon_trees (d : Dev) (i : Nat) (g : Chan → Chan) : (d.onChan i g).pon.trees = d.pon.trees := rfl
@[simp] theorem Dev.onChan_pon_onus (d : Dev) (i : Nat) (g : Chan → Chan) : (d.onChan i g).pon.onus = d.pon.onus := rfl
@[simp] theorem Dev.onChan_pon_allocs (d : Dev) (i : Nat) (g : Chan → Chan) : (d.onChan i g).pon.allocs = d.pon.allocs := rfl
@[simp] theorem Dev.onChan_pon_flows (d : Dev) (i : Nat) (g : Chan → Chan) : (d.onChan i g).pon.flows = d.pon.flows := rfl
@[simp] theorem Dev.onChan_pon_queues (d : Dev) (i : Nat) (g : Chan → Chan) : (d.onChan i g).pon.queues = d.pon.queues := rfl
@[simp] theorem Dev.onChan_pon_engines (d : Dev) (i : Nat) (g : Chan → Chan) : (d.onChan i g).pon.engines = d.pon.engines := rfl
@[simp] theorem Dev.onChan_pon_tenants (d : Dev) (i : Nat) (g : Chan → Chan) : (d.onChan i g).pon.tenants = d.pon.tenants := rfl
@[simp] theorem Dev.onChan_pon_omci (d : Dev) (i : Nat) (g : Chan → Chan) : (d.onChan i g).pon.omci = d.pon.omci := rfl
@[simp] theorem Dev.onChan_pon_omciNext (d : Dev) (i : Nat) (g : Chan → Chan) : (d.onChan i g).pon.omciNext = d.pon.omciNext := rfl
@[simp] theorem Dev.onChan_pon_commits (d : Dev) (i : Nat) (g : Chan → Chan) : (d.onChan i g).pon.commits = d.pon.commits := rfl
@[simp] theorem Dev.onChan_pon_linesOff (d : Dev) (i : Nat) (g : Chan → Chan) : (d.onChan i g).pon.linesOff = d.pon.linesOff := rfl
@[simp] theorem Dev.onRecv_pon_chans (d : Dev) (i : Nat) (g : Recv → Recv) : (d.onRecv i g).pon.chans = d.pon.chans := rfl
@[simp] theorem Dev.onRecv_pon_trees (d : Dev) (i : Nat) (g : Recv → Recv) : (d.onRecv i g).pon.trees = d.pon.trees := rfl
@[simp] theorem Dev.onRecv_pon_onus (d : Dev) (i : Nat) (g : Recv → Recv) : (d.onRecv i g).pon.onus = d.pon.onus := rfl
@[simp] theorem Dev.onRecv_pon_allocs (d : Dev) (i : Nat) (g : Recv → Recv) : (d.onRecv i g).pon.allocs = d.pon.allocs := rfl
@[simp] theorem Dev.onRecv_pon_flows (d : Dev) (i : Nat) (g : Recv → Recv) : (d.onRecv i g).pon.flows = d.pon.flows := rfl
@[simp] theorem Dev.onRecv_pon_queues (d : Dev) (i : Nat) (g : Recv → Recv) : (d.onRecv i g).pon.queues = d.pon.queues := rfl
@[simp] theorem Dev.onRecv_pon_engines (d : Dev) (i : Nat) (g : Recv → Recv) : (d.onRecv i g).pon.engines = d.pon.engines := rfl
@[simp] theorem Dev.onRecv_pon_tenants (d : Dev) (i : Nat) (g : Recv → Recv) : (d.onRecv i g).pon.tenants = d.pon.tenants := rfl
@[simp] theorem Dev.onRecv_pon_omci (d : Dev) (i : Nat) (g : Recv → Recv) : (d.onRecv i g).pon.omci = d.pon.omci := rfl
@[simp] theorem Dev.onRecv_pon_omciNext (d : Dev) (i : Nat) (g : Recv → Recv) : (d.onRecv i g).pon.omciNext = d.pon.omciNext := rfl
@[simp] theorem Dev.onRecv_pon_commits (d : Dev) (i : Nat) (g : Recv → Recv) : (d.onRecv i g).pon.commits = d.pon.commits := rfl
@[simp] theorem Dev.onRecv_pon_linesOff (d : Dev) (i : Nat) (g : Recv → Recv) : (d.onRecv i g).pon.linesOff = d.pon.linesOff := rfl
@[simp] theorem Dev.onOnu_pon_chans (d : Dev) (i : Nat) (g : Onu → Onu) : (d.onOnu i g).pon.chans = d.pon.chans := rfl
@[simp] theorem Dev.onOnu_pon_recv (d : Dev) (i : Nat) (g : Onu → Onu) : (d.onOnu i g).pon.recv = d.pon.recv := rfl
@[simp] theorem Dev.onOnu_pon_trees (d : Dev) (i : Nat) (g : Onu → Onu) : (d.onOnu i g).pon.trees = d.pon.trees := rfl
@[simp] theorem Dev.onOnu_pon_allocs (d : Dev) (i : Nat) (g : Onu → Onu) : (d.onOnu i g).pon.allocs = d.pon.allocs := rfl
@[simp] theorem Dev.onOnu_pon_flows (d : Dev) (i : Nat) (g : Onu → Onu) : (d.onOnu i g).pon.flows = d.pon.flows := rfl
@[simp] theorem Dev.onOnu_pon_queues (d : Dev) (i : Nat) (g : Onu → Onu) : (d.onOnu i g).pon.queues = d.pon.queues := rfl
@[simp] theorem Dev.onOnu_pon_engines (d : Dev) (i : Nat) (g : Onu → Onu) : (d.onOnu i g).pon.engines = d.pon.engines := rfl
@[simp] theorem Dev.onOnu_pon_tenants (d : Dev) (i : Nat) (g : Onu → Onu) : (d.onOnu i g).pon.tenants = d.pon.tenants := rfl
@[simp] theorem Dev.onOnu_pon_omci (d : Dev) (i : Nat) (g : Onu → Onu) : (d.onOnu i g).pon.omci = d.pon.omci := rfl
@[simp] theorem Dev.onOnu_pon_omciNext (d : Dev) (i : Nat) (g : Onu → Onu) : (d.onOnu i g).pon.omciNext = d.pon.omciNext := rfl
@[simp] theorem Dev.onOnu_pon_commits (d : Dev) (i : Nat) (g : Onu → Onu) : (d.onOnu i g).pon.commits = d.pon.commits := rfl
@[simp] theorem Dev.onOnu_pon_linesOff (d : Dev) (i : Nat) (g : Onu → Onu) : (d.onOnu i g).pon.linesOff = d.pon.linesOff := rfl
@[simp] theorem Dev.onTree_pon_chans (d : Dev) (i : Nat) (g : Tree → Tree) : (d.onTree i g).pon.chans = d.pon.chans := rfl
@[simp] theorem Dev.onTree_pon_recv (d : Dev) (i : Nat) (g : Tree → Tree) : (d.onTree i g).pon.recv = d.pon.recv := rfl
@[simp] theorem Dev.onTree_pon_onus (d : Dev) (i : Nat) (g : Tree → Tree) : (d.onTree i g).pon.onus = d.pon.onus := rfl
@[simp] theorem Dev.onTree_pon_allocs (d : Dev) (i : Nat) (g : Tree → Tree) : (d.onTree i g).pon.allocs = d.pon.allocs := rfl
@[simp] theorem Dev.onTree_pon_flows (d : Dev) (i : Nat) (g : Tree → Tree) : (d.onTree i g).pon.flows = d.pon.flows := rfl
@[simp] theorem Dev.onTree_pon_queues (d : Dev) (i : Nat) (g : Tree → Tree) : (d.onTree i g).pon.queues = d.pon.queues := rfl
@[simp] theorem Dev.onTree_pon_engines (d : Dev) (i : Nat) (g : Tree → Tree) : (d.onTree i g).pon.engines = d.pon.engines := rfl
@[simp] theorem Dev.onTree_pon_tenants (d : Dev) (i : Nat) (g : Tree → Tree) : (d.onTree i g).pon.tenants = d.pon.tenants := rfl
@[simp] theorem Dev.onTree_pon_omci (d : Dev) (i : Nat) (g : Tree → Tree) : (d.onTree i g).pon.omci = d.pon.omci := rfl
@[simp] theorem Dev.onTree_pon_omciNext (d : Dev) (i : Nat) (g : Tree → Tree) : (d.onTree i g).pon.omciNext = d.pon.omciNext := rfl
@[simp] theorem Dev.onTree_pon_commits (d : Dev) (i : Nat) (g : Tree → Tree) : (d.onTree i g).pon.commits = d.pon.commits := rfl
@[simp] theorem Dev.onTree_pon_linesOff (d : Dev) (i : Nat) (g : Tree → Tree) : (d.onTree i g).pon.linesOff = d.pon.linesOff := rfl
@[simp] theorem Dev.onAlloc_pon_chans (d : Dev) (i : Nat) (g : Alloc → Alloc) : (d.onAlloc i g).pon.chans = d.pon.chans := rfl
@[simp] theorem Dev.onAlloc_pon_recv (d : Dev) (i : Nat) (g : Alloc → Alloc) : (d.onAlloc i g).pon.recv = d.pon.recv := rfl
@[simp] theorem Dev.onAlloc_pon_trees (d : Dev) (i : Nat) (g : Alloc → Alloc) : (d.onAlloc i g).pon.trees = d.pon.trees := rfl
@[simp] theorem Dev.onAlloc_pon_onus (d : Dev) (i : Nat) (g : Alloc → Alloc) : (d.onAlloc i g).pon.onus = d.pon.onus := rfl
@[simp] theorem Dev.onAlloc_pon_flows (d : Dev) (i : Nat) (g : Alloc → Alloc) : (d.onAlloc i g).pon.flows = d.pon.flows := rfl
@[simp] theorem Dev.onAlloc_pon_queues (d : Dev) (i : Nat) (g : Alloc → Alloc) : (d.onAlloc i g).pon.queues = d.pon.queues := rfl
@[simp] theorem Dev.onAlloc_pon_engines (d : Dev) (i : Nat) (g : Alloc → Alloc) : (d.onAlloc i g).pon.engines = d.pon.engines := rfl
@[simp] theorem Dev.onAlloc_pon_tenants (d : Dev) (i : Nat) (g : Alloc → Alloc) : (d.onAlloc i g).pon.tenants = d.pon.tenants := rfl
@[simp] theorem Dev.onAlloc_pon_omci (d : Dev) (i : Nat) (g : Alloc → Alloc) : (d.onAlloc i g).pon.omci = d.pon.omci := rfl
@[simp] theorem Dev.onAlloc_pon_omciNext (d : Dev) (i : Nat) (g : Alloc → Alloc) : (d.onAlloc i g).pon.omciNext = d.pon.omciNext := rfl
@[simp] theorem Dev.onAlloc_pon_commits (d : Dev) (i : Nat) (g : Alloc → Alloc) : (d.onAlloc i g).pon.commits = d.pon.commits := rfl
@[simp] theorem Dev.onAlloc_pon_linesOff (d : Dev) (i : Nat) (g : Alloc → Alloc) : (d.onAlloc i g).pon.linesOff = d.pon.linesOff := rfl
@[simp] theorem Dev.onFlow_pon_chans (d : Dev) (i : Nat) (g : Flow → Flow) : (d.onFlow i g).pon.chans = d.pon.chans := rfl
@[simp] theorem Dev.onFlow_pon_recv (d : Dev) (i : Nat) (g : Flow → Flow) : (d.onFlow i g).pon.recv = d.pon.recv := rfl
@[simp] theorem Dev.onFlow_pon_trees (d : Dev) (i : Nat) (g : Flow → Flow) : (d.onFlow i g).pon.trees = d.pon.trees := rfl
@[simp] theorem Dev.onFlow_pon_onus (d : Dev) (i : Nat) (g : Flow → Flow) : (d.onFlow i g).pon.onus = d.pon.onus := rfl
@[simp] theorem Dev.onFlow_pon_allocs (d : Dev) (i : Nat) (g : Flow → Flow) : (d.onFlow i g).pon.allocs = d.pon.allocs := rfl
@[simp] theorem Dev.onFlow_pon_queues (d : Dev) (i : Nat) (g : Flow → Flow) : (d.onFlow i g).pon.queues = d.pon.queues := rfl
@[simp] theorem Dev.onFlow_pon_engines (d : Dev) (i : Nat) (g : Flow → Flow) : (d.onFlow i g).pon.engines = d.pon.engines := rfl
@[simp] theorem Dev.onFlow_pon_tenants (d : Dev) (i : Nat) (g : Flow → Flow) : (d.onFlow i g).pon.tenants = d.pon.tenants := rfl
@[simp] theorem Dev.onFlow_pon_omci (d : Dev) (i : Nat) (g : Flow → Flow) : (d.onFlow i g).pon.omci = d.pon.omci := rfl
@[simp] theorem Dev.onFlow_pon_omciNext (d : Dev) (i : Nat) (g : Flow → Flow) : (d.onFlow i g).pon.omciNext = d.pon.omciNext := rfl
@[simp] theorem Dev.onFlow_pon_commits (d : Dev) (i : Nat) (g : Flow → Flow) : (d.onFlow i g).pon.commits = d.pon.commits := rfl
@[simp] theorem Dev.onFlow_pon_linesOff (d : Dev) (i : Nat) (g : Flow → Flow) : (d.onFlow i g).pon.linesOff = d.pon.linesOff := rfl
@[simp] theorem Dev.onEng_pon_chans (d : Dev) (i : Nat) (g : Engine → Engine) : (d.onEng i g).pon.chans = d.pon.chans := rfl
@[simp] theorem Dev.onEng_pon_recv (d : Dev) (i : Nat) (g : Engine → Engine) : (d.onEng i g).pon.recv = d.pon.recv := rfl
@[simp] theorem Dev.onEng_pon_trees (d : Dev) (i : Nat) (g : Engine → Engine) : (d.onEng i g).pon.trees = d.pon.trees := rfl
@[simp] theorem Dev.onEng_pon_onus (d : Dev) (i : Nat) (g : Engine → Engine) : (d.onEng i g).pon.onus = d.pon.onus := rfl
@[simp] theorem Dev.onEng_pon_allocs (d : Dev) (i : Nat) (g : Engine → Engine) : (d.onEng i g).pon.allocs = d.pon.allocs := rfl
@[simp] theorem Dev.onEng_pon_flows (d : Dev) (i : Nat) (g : Engine → Engine) : (d.onEng i g).pon.flows = d.pon.flows := rfl
@[simp] theorem Dev.onEng_pon_queues (d : Dev) (i : Nat) (g : Engine → Engine) : (d.onEng i g).pon.queues = d.pon.queues := rfl
@[simp] theorem Dev.onEng_pon_tenants (d : Dev) (i : Nat) (g : Engine → Engine) : (d.onEng i g).pon.tenants = d.pon.tenants := rfl
@[simp] theorem Dev.onEng_pon_omci (d : Dev) (i : Nat) (g : Engine → Engine) : (d.onEng i g).pon.omci = d.pon.omci := rfl
@[simp] theorem Dev.onEng_pon_omciNext (d : Dev) (i : Nat) (g : Engine → Engine) : (d.onEng i g).pon.omciNext = d.pon.omciNext := rfl
@[simp] theorem Dev.onEng_pon_commits (d : Dev) (i : Nat) (g : Engine → Engine) : (d.onEng i g).pon.commits = d.pon.commits := rfl
@[simp] theorem Dev.onEng_pon_linesOff (d : Dev) (i : Nat) (g : Engine → Engine) : (d.onEng i g).pon.linesOff = d.pon.linesOff := rfl
@[simp] theorem Dev.onTenant_pon_chans (d : Dev) (i : Nat) (g : Tenant → Tenant) : (d.onTenant i g).pon.chans = d.pon.chans := rfl
@[simp] theorem Dev.onTenant_pon_recv (d : Dev) (i : Nat) (g : Tenant → Tenant) : (d.onTenant i g).pon.recv = d.pon.recv := rfl
@[simp] theorem Dev.onTenant_pon_trees (d : Dev) (i : Nat) (g : Tenant → Tenant) : (d.onTenant i g).pon.trees = d.pon.trees := rfl
@[simp] theorem Dev.onTenant_pon_onus (d : Dev) (i : Nat) (g : Tenant → Tenant) : (d.onTenant i g).pon.onus = d.pon.onus := rfl
@[simp] theorem Dev.onTenant_pon_allocs (d : Dev) (i : Nat) (g : Tenant → Tenant) : (d.onTenant i g).pon.allocs = d.pon.allocs := rfl
@[simp] theorem Dev.onTenant_pon_flows (d : Dev) (i : Nat) (g : Tenant → Tenant) : (d.onTenant i g).pon.flows = d.pon.flows := rfl
@[simp] theorem Dev.onTenant_pon_queues (d : Dev) (i : Nat) (g : Tenant → Tenant) : (d.onTenant i g).pon.queues = d.pon.queues := rfl
@[simp] theorem Dev.onTenant_pon_engines (d : Dev) (i : Nat) (g : Tenant → Tenant) : (d.onTenant i g).pon.engines = d.pon.engines := rfl
@[simp] theorem Dev.onTenant_pon_omci (d : Dev) (i : Nat) (g : Tenant → Tenant) : (d.onTenant i g).pon.omci = d.pon.omci := rfl
@[simp] theorem Dev.onTenant_pon_omciNext (d : Dev) (i : Nat) (g : Tenant → Tenant) : (d.onTenant i g).pon.omciNext = d.pon.omciNext := rfl
@[simp] theorem Dev.onTenant_pon_commits (d : Dev) (i : Nat) (g : Tenant → Tenant) : (d.onTenant i g).pon.commits = d.pon.commits := rfl
@[simp] theorem Dev.onTenant_pon_linesOff (d : Dev) (i : Nat) (g : Tenant → Tenant) : (d.onTenant i g).pon.linesOff = d.pon.linesOff := rfl
@[simp] theorem Dev.onDie_data_cls (d : Dev) (i : Nat) (g : Die → Die) : (d.onDie i g).data.cls = d.data.cls := rfl
@[simp] theorem Dev.onDie_data_trie (d : Dev) (i : Nat) (g : Die → Die) : (d.onDie i g).data.trie = d.data.trie := rfl
@[simp] theorem Dev.onDie_data_exc (d : Dev) (i : Nat) (g : Die → Die) : (d.onDie i g).data.exc = d.data.exc := rfl
@[simp] theorem Dev.onDie_data_excWait (d : Dev) (i : Nat) (g : Die → Die) : (d.onDie i g).data.excWait = d.data.excWait := rfl
@[simp] theorem Dev.onDie_data_buf (d : Dev) (i : Nat) (g : Die → Die) : (d.onDie i g).data.buf = d.data.buf := rfl
@[simp] theorem Dev.onDie_data_nodes (d : Dev) (i : Nat) (g : Die → Die) : (d.onDie i g).data.nodes = d.data.nodes := rfl
@[simp] theorem Dev.onDie_data_policers (d : Dev) (i : Nat) (g : Die → Die) : (d.onDie i g).data.policers = d.data.policers := rfl
@[simp] theorem Dev.onDie_data_subs (d : Dev) (i : Nat) (g : Die → Die) : (d.onDie i g).data.subs = d.data.subs := rfl
@[simp] theorem Dev.onDie_data_lanes (d : Dev) (i : Nat) (g : Die → Die) : (d.onDie i g).data.lanes = d.data.lanes := rfl
@[simp] theorem Dev.onDie_data_synce (d : Dev) (i : Nat) (g : Die → Die) : (d.onDie i g).data.synce = d.data.synce := rfl
@[simp] theorem Dev.onDie_data_dma (d : Dev) (i : Nat) (g : Die → Die) : (d.onDie i g).data.dma = d.data.dma := rfl
@[simp] theorem Dev.onDie_data_units (d : Dev) (i : Nat) (g : Die → Die) : (d.onDie i g).data.units = d.data.units := rfl
@[simp] theorem Dev.onDie_data_offered (d : Dev) (i : Nat) (g : Die → Die) : (d.onDie i g).data.offered = d.data.offered := rfl
@[simp] theorem Dev.onDie_data_sending (d : Dev) (i : Nat) (g : Die → Die) : (d.onDie i g).data.sending = d.data.sending := rfl
@[simp] theorem Dev.onDie_data_descRam (d : Dev) (i : Nat) (g : Die → Die) : (d.onDie i g).data.descRam = d.data.descRam := rfl
@[simp] theorem Dev.onDie_data_dlinks (d : Dev) (i : Nat) (g : Die → Die) : (d.onDie i g).data.dlinks = d.data.dlinks := rfl
@[simp] theorem Dev.onSub_data_cls (d : Dev) (i : Nat) (g : Sub → Sub) : (d.onSub i g).data.cls = d.data.cls := rfl
@[simp] theorem Dev.onSub_data_dies (d : Dev) (i : Nat) (g : Sub → Sub) : (d.onSub i g).data.dies = d.data.dies := rfl
@[simp] theorem Dev.onSub_data_trie (d : Dev) (i : Nat) (g : Sub → Sub) : (d.onSub i g).data.trie = d.data.trie := rfl
@[simp] theorem Dev.onSub_data_exc (d : Dev) (i : Nat) (g : Sub → Sub) : (d.onSub i g).data.exc = d.data.exc := rfl
@[simp] theorem Dev.onSub_data_excWait (d : Dev) (i : Nat) (g : Sub → Sub) : (d.onSub i g).data.excWait = d.data.excWait := rfl
@[simp] theorem Dev.onSub_data_buf (d : Dev) (i : Nat) (g : Sub → Sub) : (d.onSub i g).data.buf = d.data.buf := rfl
@[simp] theorem Dev.onSub_data_nodes (d : Dev) (i : Nat) (g : Sub → Sub) : (d.onSub i g).data.nodes = d.data.nodes := rfl
@[simp] theorem Dev.onSub_data_policers (d : Dev) (i : Nat) (g : Sub → Sub) : (d.onSub i g).data.policers = d.data.policers := rfl
@[simp] theorem Dev.onSub_data_lanes (d : Dev) (i : Nat) (g : Sub → Sub) : (d.onSub i g).data.lanes = d.data.lanes := rfl
@[simp] theorem Dev.onSub_data_synce (d : Dev) (i : Nat) (g : Sub → Sub) : (d.onSub i g).data.synce = d.data.synce := rfl
@[simp] theorem Dev.onSub_data_dma (d : Dev) (i : Nat) (g : Sub → Sub) : (d.onSub i g).data.dma = d.data.dma := rfl
@[simp] theorem Dev.onSub_data_units (d : Dev) (i : Nat) (g : Sub → Sub) : (d.onSub i g).data.units = d.data.units := rfl
@[simp] theorem Dev.onSub_data_offered (d : Dev) (i : Nat) (g : Sub → Sub) : (d.onSub i g).data.offered = d.data.offered := rfl
@[simp] theorem Dev.onSub_data_sending (d : Dev) (i : Nat) (g : Sub → Sub) : (d.onSub i g).data.sending = d.data.sending := rfl
@[simp] theorem Dev.onSub_data_descRam (d : Dev) (i : Nat) (g : Sub → Sub) : (d.onSub i g).data.descRam = d.data.descRam := rfl
@[simp] theorem Dev.onSub_data_dlinks (d : Dev) (i : Nat) (g : Sub → Sub) : (d.onSub i g).data.dlinks = d.data.dlinks := rfl
@[simp] theorem Dev.onLane_data_cls (d : Dev) (i : Nat) (g : Lane → Lane) : (d.onLane i g).data.cls = d.data.cls := rfl
@[simp] theorem Dev.onLane_data_dies (d : Dev) (i : Nat) (g : Lane → Lane) : (d.onLane i g).data.dies = d.data.dies := rfl
@[simp] theorem Dev.onLane_data_trie (d : Dev) (i : Nat) (g : Lane → Lane) : (d.onLane i g).data.trie = d.data.trie := rfl
@[simp] theorem Dev.onLane_data_exc (d : Dev) (i : Nat) (g : Lane → Lane) : (d.onLane i g).data.exc = d.data.exc := rfl
@[simp] theorem Dev.onLane_data_excWait (d : Dev) (i : Nat) (g : Lane → Lane) : (d.onLane i g).data.excWait = d.data.excWait := rfl
@[simp] theorem Dev.onLane_data_buf (d : Dev) (i : Nat) (g : Lane → Lane) : (d.onLane i g).data.buf = d.data.buf := rfl
@[simp] theorem Dev.onLane_data_nodes (d : Dev) (i : Nat) (g : Lane → Lane) : (d.onLane i g).data.nodes = d.data.nodes := rfl
@[simp] theorem Dev.onLane_data_policers (d : Dev) (i : Nat) (g : Lane → Lane) : (d.onLane i g).data.policers = d.data.policers := rfl
@[simp] theorem Dev.onLane_data_subs (d : Dev) (i : Nat) (g : Lane → Lane) : (d.onLane i g).data.subs = d.data.subs := rfl
@[simp] theorem Dev.onLane_data_synce (d : Dev) (i : Nat) (g : Lane → Lane) : (d.onLane i g).data.synce = d.data.synce := rfl
@[simp] theorem Dev.onLane_data_dma (d : Dev) (i : Nat) (g : Lane → Lane) : (d.onLane i g).data.dma = d.data.dma := rfl
@[simp] theorem Dev.onLane_data_units (d : Dev) (i : Nat) (g : Lane → Lane) : (d.onLane i g).data.units = d.data.units := rfl
@[simp] theorem Dev.onLane_data_offered (d : Dev) (i : Nat) (g : Lane → Lane) : (d.onLane i g).data.offered = d.data.offered := rfl
@[simp] theorem Dev.onLane_data_sending (d : Dev) (i : Nat) (g : Lane → Lane) : (d.onLane i g).data.sending = d.data.sending := rfl
@[simp] theorem Dev.onLane_data_descRam (d : Dev) (i : Nat) (g : Lane → Lane) : (d.onLane i g).data.descRam = d.data.descRam := rfl
@[simp] theorem Dev.onLane_data_dlinks (d : Dev) (i : Nat) (g : Lane → Lane) : (d.onLane i g).data.dlinks = d.data.dlinks := rfl
@[simp] theorem Dev.onSynce_data_cls (d : Dev) (i : Nat) (g : SyncE → SyncE) : (d.onSynce i g).data.cls = d.data.cls := rfl
@[simp] theorem Dev.onSynce_data_dies (d : Dev) (i : Nat) (g : SyncE → SyncE) : (d.onSynce i g).data.dies = d.data.dies := rfl
@[simp] theorem Dev.onSynce_data_trie (d : Dev) (i : Nat) (g : SyncE → SyncE) : (d.onSynce i g).data.trie = d.data.trie := rfl
@[simp] theorem Dev.onSynce_data_exc (d : Dev) (i : Nat) (g : SyncE → SyncE) : (d.onSynce i g).data.exc = d.data.exc := rfl
@[simp] theorem Dev.onSynce_data_excWait (d : Dev) (i : Nat) (g : SyncE → SyncE) : (d.onSynce i g).data.excWait = d.data.excWait := rfl
@[simp] theorem Dev.onSynce_data_buf (d : Dev) (i : Nat) (g : SyncE → SyncE) : (d.onSynce i g).data.buf = d.data.buf := rfl
@[simp] theorem Dev.onSynce_data_nodes (d : Dev) (i : Nat) (g : SyncE → SyncE) : (d.onSynce i g).data.nodes = d.data.nodes := rfl
@[simp] theorem Dev.onSynce_data_policers (d : Dev) (i : Nat) (g : SyncE → SyncE) : (d.onSynce i g).data.policers = d.data.policers := rfl
@[simp] theorem Dev.onSynce_data_subs (d : Dev) (i : Nat) (g : SyncE → SyncE) : (d.onSynce i g).data.subs = d.data.subs := rfl
@[simp] theorem Dev.onSynce_data_lanes (d : Dev) (i : Nat) (g : SyncE → SyncE) : (d.onSynce i g).data.lanes = d.data.lanes := rfl
@[simp] theorem Dev.onSynce_data_dma (d : Dev) (i : Nat) (g : SyncE → SyncE) : (d.onSynce i g).data.dma = d.data.dma := rfl
@[simp] theorem Dev.onSynce_data_units (d : Dev) (i : Nat) (g : SyncE → SyncE) : (d.onSynce i g).data.units = d.data.units := rfl
@[simp] theorem Dev.onSynce_data_offered (d : Dev) (i : Nat) (g : SyncE → SyncE) : (d.onSynce i g).data.offered = d.data.offered := rfl
@[simp] theorem Dev.onSynce_data_sending (d : Dev) (i : Nat) (g : SyncE → SyncE) : (d.onSynce i g).data.sending = d.data.sending := rfl
@[simp] theorem Dev.onSynce_data_descRam (d : Dev) (i : Nat) (g : SyncE → SyncE) : (d.onSynce i g).data.descRam = d.data.descRam := rfl
@[simp] theorem Dev.onSynce_data_dlinks (d : Dev) (i : Nat) (g : SyncE → SyncE) : (d.onSynce i g).data.dlinks = d.data.dlinks := rfl
@[simp] theorem Dev.onDma_data_cls (d : Dev) (i : Nat) (g : Dma → Dma) : (d.onDma i g).data.cls = d.data.cls := rfl
@[simp] theorem Dev.onDma_data_dies (d : Dev) (i : Nat) (g : Dma → Dma) : (d.onDma i g).data.dies = d.data.dies := rfl
@[simp] theorem Dev.onDma_data_trie (d : Dev) (i : Nat) (g : Dma → Dma) : (d.onDma i g).data.trie = d.data.trie := rfl
@[simp] theorem Dev.onDma_data_exc (d : Dev) (i : Nat) (g : Dma → Dma) : (d.onDma i g).data.exc = d.data.exc := rfl
@[simp] theorem Dev.onDma_data_excWait (d : Dev) (i : Nat) (g : Dma → Dma) : (d.onDma i g).data.excWait = d.data.excWait := rfl
@[simp] theorem Dev.onDma_data_buf (d : Dev) (i : Nat) (g : Dma → Dma) : (d.onDma i g).data.buf = d.data.buf := rfl
@[simp] theorem Dev.onDma_data_nodes (d : Dev) (i : Nat) (g : Dma → Dma) : (d.onDma i g).data.nodes = d.data.nodes := rfl
@[simp] theorem Dev.onDma_data_policers (d : Dev) (i : Nat) (g : Dma → Dma) : (d.onDma i g).data.policers = d.data.policers := rfl
@[simp] theorem Dev.onDma_data_subs (d : Dev) (i : Nat) (g : Dma → Dma) : (d.onDma i g).data.subs = d.data.subs := rfl
@[simp] theorem Dev.onDma_data_lanes (d : Dev) (i : Nat) (g : Dma → Dma) : (d.onDma i g).data.lanes = d.data.lanes := rfl
@[simp] theorem Dev.onDma_data_synce (d : Dev) (i : Nat) (g : Dma → Dma) : (d.onDma i g).data.synce = d.data.synce := rfl
@[simp] theorem Dev.onDma_data_units (d : Dev) (i : Nat) (g : Dma → Dma) : (d.onDma i g).data.units = d.data.units := rfl
@[simp] theorem Dev.onDma_data_offered (d : Dev) (i : Nat) (g : Dma → Dma) : (d.onDma i g).data.offered = d.data.offered := rfl
@[simp] theorem Dev.onDma_data_sending (d : Dev) (i : Nat) (g : Dma → Dma) : (d.onDma i g).data.sending = d.data.sending := rfl
@[simp] theorem Dev.onDma_data_descRam (d : Dev) (i : Nat) (g : Dma → Dma) : (d.onDma i g).data.descRam = d.data.descRam := rfl
@[simp] theorem Dev.onDma_data_dlinks (d : Dev) (i : Nat) (g : Dma → Dma) : (d.onDma i g).data.dlinks = d.data.dlinks := rfl
@[simp] theorem Dev.onDlink_data_cls (d : Dev) (i : Nat) (g : DLink → DLink) : (d.onDlink i g).data.cls = d.data.cls := rfl
@[simp] theorem Dev.onDlink_data_dies (d : Dev) (i : Nat) (g : DLink → DLink) : (d.onDlink i g).data.dies = d.data.dies := rfl
@[simp] theorem Dev.onDlink_data_trie (d : Dev) (i : Nat) (g : DLink → DLink) : (d.onDlink i g).data.trie = d.data.trie := rfl
@[simp] theorem Dev.onDlink_data_exc (d : Dev) (i : Nat) (g : DLink → DLink) : (d.onDlink i g).data.exc = d.data.exc := rfl
@[simp] theorem Dev.onDlink_data_excWait (d : Dev) (i : Nat) (g : DLink → DLink) : (d.onDlink i g).data.excWait = d.data.excWait := rfl
@[simp] theorem Dev.onDlink_data_buf (d : Dev) (i : Nat) (g : DLink → DLink) : (d.onDlink i g).data.buf = d.data.buf := rfl
@[simp] theorem Dev.onDlink_data_nodes (d : Dev) (i : Nat) (g : DLink → DLink) : (d.onDlink i g).data.nodes = d.data.nodes := rfl
@[simp] theorem Dev.onDlink_data_policers (d : Dev) (i : Nat) (g : DLink → DLink) : (d.onDlink i g).data.policers = d.data.policers := rfl
@[simp] theorem Dev.onDlink_data_subs (d : Dev) (i : Nat) (g : DLink → DLink) : (d.onDlink i g).data.subs = d.data.subs := rfl
@[simp] theorem Dev.onDlink_data_lanes (d : Dev) (i : Nat) (g : DLink → DLink) : (d.onDlink i g).data.lanes = d.data.lanes := rfl
@[simp] theorem Dev.onDlink_data_synce (d : Dev) (i : Nat) (g : DLink → DLink) : (d.onDlink i g).data.synce = d.data.synce := rfl
@[simp] theorem Dev.onDlink_data_dma (d : Dev) (i : Nat) (g : DLink → DLink) : (d.onDlink i g).data.dma = d.data.dma := rfl
@[simp] theorem Dev.onDlink_data_units (d : Dev) (i : Nat) (g : DLink → DLink) : (d.onDlink i g).data.units = d.data.units := rfl
@[simp] theorem Dev.onDlink_data_offered (d : Dev) (i : Nat) (g : DLink → DLink) : (d.onDlink i g).data.offered = d.data.offered := rfl
@[simp] theorem Dev.onDlink_data_sending (d : Dev) (i : Nat) (g : DLink → DLink) : (d.onDlink i g).data.sending = d.data.sending := rfl
@[simp] theorem Dev.onDlink_data_descRam (d : Dev) (i : Nat) (g : DLink → DLink) : (d.onDlink i g).data.descRam = d.data.descRam := rfl
@[simp] theorem Dev.onNode_data_cls (d : Dev) (i : Nat) (g : Node → Node) : (d.onNode i g).data.cls = d.data.cls := rfl
@[simp] theorem Dev.onNode_data_dies (d : Dev) (i : Nat) (g : Node → Node) : (d.onNode i g).data.dies = d.data.dies := rfl
@[simp] theorem Dev.onNode_data_trie (d : Dev) (i : Nat) (g : Node → Node) : (d.onNode i g).data.trie = d.data.trie := rfl
@[simp] theorem Dev.onNode_data_exc (d : Dev) (i : Nat) (g : Node → Node) : (d.onNode i g).data.exc = d.data.exc := rfl
@[simp] theorem Dev.onNode_data_excWait (d : Dev) (i : Nat) (g : Node → Node) : (d.onNode i g).data.excWait = d.data.excWait := rfl
@[simp] theorem Dev.onNode_data_buf (d : Dev) (i : Nat) (g : Node → Node) : (d.onNode i g).data.buf = d.data.buf := rfl
@[simp] theorem Dev.onNode_data_policers (d : Dev) (i : Nat) (g : Node → Node) : (d.onNode i g).data.policers = d.data.policers := rfl
@[simp] theorem Dev.onNode_data_subs (d : Dev) (i : Nat) (g : Node → Node) : (d.onNode i g).data.subs = d.data.subs := rfl
@[simp] theorem Dev.onNode_data_lanes (d : Dev) (i : Nat) (g : Node → Node) : (d.onNode i g).data.lanes = d.data.lanes := rfl
@[simp] theorem Dev.onNode_data_synce (d : Dev) (i : Nat) (g : Node → Node) : (d.onNode i g).data.synce = d.data.synce := rfl
@[simp] theorem Dev.onNode_data_dma (d : Dev) (i : Nat) (g : Node → Node) : (d.onNode i g).data.dma = d.data.dma := rfl
@[simp] theorem Dev.onNode_data_units (d : Dev) (i : Nat) (g : Node → Node) : (d.onNode i g).data.units = d.data.units := rfl
@[simp] theorem Dev.onNode_data_offered (d : Dev) (i : Nat) (g : Node → Node) : (d.onNode i g).data.offered = d.data.offered := rfl
@[simp] theorem Dev.onNode_data_sending (d : Dev) (i : Nat) (g : Node → Node) : (d.onNode i g).data.sending = d.data.sending := rfl
@[simp] theorem Dev.onNode_data_descRam (d : Dev) (i : Nat) (g : Node → Node) : (d.onNode i g).data.descRam = d.data.descRam := rfl
@[simp] theorem Dev.onNode_data_dlinks (d : Dev) (i : Nat) (g : Node → Node) : (d.onNode i g).data.dlinks = d.data.dlinks := rfl
@[simp] theorem Dev.onPol_data_cls (d : Dev) (i : Nat) (g : Policer → Policer) : (d.onPol i g).data.cls = d.data.cls := rfl
@[simp] theorem Dev.onPol_data_dies (d : Dev) (i : Nat) (g : Policer → Policer) : (d.onPol i g).data.dies = d.data.dies := rfl
@[simp] theorem Dev.onPol_data_trie (d : Dev) (i : Nat) (g : Policer → Policer) : (d.onPol i g).data.trie = d.data.trie := rfl
@[simp] theorem Dev.onPol_data_exc (d : Dev) (i : Nat) (g : Policer → Policer) : (d.onPol i g).data.exc = d.data.exc := rfl
@[simp] theorem Dev.onPol_data_excWait (d : Dev) (i : Nat) (g : Policer → Policer) : (d.onPol i g).data.excWait = d.data.excWait := rfl
@[simp] theorem Dev.onPol_data_buf (d : Dev) (i : Nat) (g : Policer → Policer) : (d.onPol i g).data.buf = d.data.buf := rfl
@[simp] theorem Dev.onPol_data_nodes (d : Dev) (i : Nat) (g : Policer → Policer) : (d.onPol i g).data.nodes = d.data.nodes := rfl
@[simp] theorem Dev.onPol_data_subs (d : Dev) (i : Nat) (g : Policer → Policer) : (d.onPol i g).data.subs = d.data.subs := rfl
@[simp] theorem Dev.onPol_data_lanes (d : Dev) (i : Nat) (g : Policer → Policer) : (d.onPol i g).data.lanes = d.data.lanes := rfl
@[simp] theorem Dev.onPol_data_synce (d : Dev) (i : Nat) (g : Policer → Policer) : (d.onPol i g).data.synce = d.data.synce := rfl
@[simp] theorem Dev.onPol_data_dma (d : Dev) (i : Nat) (g : Policer → Policer) : (d.onPol i g).data.dma = d.data.dma := rfl
@[simp] theorem Dev.onPol_data_units (d : Dev) (i : Nat) (g : Policer → Policer) : (d.onPol i g).data.units = d.data.units := rfl
@[simp] theorem Dev.onPol_data_offered (d : Dev) (i : Nat) (g : Policer → Policer) : (d.onPol i g).data.offered = d.data.offered := rfl
@[simp] theorem Dev.onPol_data_sending (d : Dev) (i : Nat) (g : Policer → Policer) : (d.onPol i g).data.sending = d.data.sending := rfl
@[simp] theorem Dev.onPol_data_descRam (d : Dev) (i : Nat) (g : Policer → Policer) : (d.onPol i g).data.descRam = d.data.descRam := rfl
@[simp] theorem Dev.onPol_data_dlinks (d : Dev) (i : Nat) (g : Policer → Policer) : (d.onPol i g).data.dlinks = d.data.dlinks := rfl
@[simp] theorem Dev.onExc_data_cls (d : Dev) (i : Nat) (g : ExcBucket → ExcBucket) : (d.onExc i g).data.cls = d.data.cls := rfl
@[simp] theorem Dev.onExc_data_dies (d : Dev) (i : Nat) (g : ExcBucket → ExcBucket) : (d.onExc i g).data.dies = d.data.dies := rfl
@[simp] theorem Dev.onExc_data_trie (d : Dev) (i : Nat) (g : ExcBucket → ExcBucket) : (d.onExc i g).data.trie = d.data.trie := rfl
@[simp] theorem Dev.onExc_data_excWait (d : Dev) (i : Nat) (g : ExcBucket → ExcBucket) : (d.onExc i g).data.excWait = d.data.excWait := rfl
@[simp] theorem Dev.onExc_data_buf (d : Dev) (i : Nat) (g : ExcBucket → ExcBucket) : (d.onExc i g).data.buf = d.data.buf := rfl
@[simp] theorem Dev.onExc_data_nodes (d : Dev) (i : Nat) (g : ExcBucket → ExcBucket) : (d.onExc i g).data.nodes = d.data.nodes := rfl
@[simp] theorem Dev.onExc_data_policers (d : Dev) (i : Nat) (g : ExcBucket → ExcBucket) : (d.onExc i g).data.policers = d.data.policers := rfl
@[simp] theorem Dev.onExc_data_subs (d : Dev) (i : Nat) (g : ExcBucket → ExcBucket) : (d.onExc i g).data.subs = d.data.subs := rfl
@[simp] theorem Dev.onExc_data_lanes (d : Dev) (i : Nat) (g : ExcBucket → ExcBucket) : (d.onExc i g).data.lanes = d.data.lanes := rfl
@[simp] theorem Dev.onExc_data_synce (d : Dev) (i : Nat) (g : ExcBucket → ExcBucket) : (d.onExc i g).data.synce = d.data.synce := rfl
@[simp] theorem Dev.onExc_data_dma (d : Dev) (i : Nat) (g : ExcBucket → ExcBucket) : (d.onExc i g).data.dma = d.data.dma := rfl
@[simp] theorem Dev.onExc_data_units (d : Dev) (i : Nat) (g : ExcBucket → ExcBucket) : (d.onExc i g).data.units = d.data.units := rfl
@[simp] theorem Dev.onExc_data_offered (d : Dev) (i : Nat) (g : ExcBucket → ExcBucket) : (d.onExc i g).data.offered = d.data.offered := rfl
@[simp] theorem Dev.onExc_data_sending (d : Dev) (i : Nat) (g : ExcBucket → ExcBucket) : (d.onExc i g).data.sending = d.data.sending := rfl
@[simp] theorem Dev.onExc_data_descRam (d : Dev) (i : Nat) (g : ExcBucket → ExcBucket) : (d.onExc i g).data.descRam = d.data.descRam := rfl
@[simp] theorem Dev.onExc_data_dlinks (d : Dev) (i : Nat) (g : ExcBucket → ExcBucket) : (d.onExc i g).data.dlinks = d.data.dlinks := rfl
@[simp] theorem Dev.onOwner_data_cls (d : Dev) (i : Nat) (g : Owner → Owner) : (d.onOwner i g).data.cls = d.data.cls := rfl
@[simp] theorem Dev.onOwner_data_dies (d : Dev) (i : Nat) (g : Owner → Owner) : (d.onOwner i g).data.dies = d.data.dies := rfl
@[simp] theorem Dev.onOwner_data_trie (d : Dev) (i : Nat) (g : Owner → Owner) : (d.onOwner i g).data.trie = d.data.trie := rfl
@[simp] theorem Dev.onOwner_data_exc (d : Dev) (i : Nat) (g : Owner → Owner) : (d.onOwner i g).data.exc = d.data.exc := rfl
@[simp] theorem Dev.onOwner_data_excWait (d : Dev) (i : Nat) (g : Owner → Owner) : (d.onOwner i g).data.excWait = d.data.excWait := rfl
@[simp] theorem Dev.onOwner_data_nodes (d : Dev) (i : Nat) (g : Owner → Owner) : (d.onOwner i g).data.nodes = d.data.nodes := rfl
@[simp] theorem Dev.onOwner_data_policers (d : Dev) (i : Nat) (g : Owner → Owner) : (d.onOwner i g).data.policers = d.data.policers := rfl
@[simp] theorem Dev.onOwner_data_subs (d : Dev) (i : Nat) (g : Owner → Owner) : (d.onOwner i g).data.subs = d.data.subs := rfl
@[simp] theorem Dev.onOwner_data_lanes (d : Dev) (i : Nat) (g : Owner → Owner) : (d.onOwner i g).data.lanes = d.data.lanes := rfl
@[simp] theorem Dev.onOwner_data_synce (d : Dev) (i : Nat) (g : Owner → Owner) : (d.onOwner i g).data.synce = d.data.synce := rfl
@[simp] theorem Dev.onOwner_data_dma (d : Dev) (i : Nat) (g : Owner → Owner) : (d.onOwner i g).data.dma = d.data.dma := rfl
@[simp] theorem Dev.onOwner_data_units (d : Dev) (i : Nat) (g : Owner → Owner) : (d.onOwner i g).data.units = d.data.units := rfl
@[simp] theorem Dev.onOwner_data_offered (d : Dev) (i : Nat) (g : Owner → Owner) : (d.onOwner i g).data.offered = d.data.offered := rfl
@[simp] theorem Dev.onOwner_data_sending (d : Dev) (i : Nat) (g : Owner → Owner) : (d.onOwner i g).data.sending = d.data.sending := rfl
@[simp] theorem Dev.onOwner_data_descRam (d : Dev) (i : Nat) (g : Owner → Owner) : (d.onOwner i g).data.descRam = d.data.descRam := rfl
@[simp] theorem Dev.onOwner_data_dlinks (d : Dev) (i : Nat) (g : Owner → Owner) : (d.onOwner i g).data.dlinks = d.data.dlinks := rfl
@[simp] theorem Dev.setQueue_pon_chans (d : Dev) (i : Nat) (q : List Pkt) : (d.setQueue i q).pon.chans = d.pon.chans := rfl
@[simp] theorem Dev.setQueue_pon_recv (d : Dev) (i : Nat) (q : List Pkt) : (d.setQueue i q).pon.recv = d.pon.recv := rfl
@[simp] theorem Dev.setQueue_pon_trees (d : Dev) (i : Nat) (q : List Pkt) : (d.setQueue i q).pon.trees = d.pon.trees := rfl
@[simp] theorem Dev.setQueue_pon_onus (d : Dev) (i : Nat) (q : List Pkt) : (d.setQueue i q).pon.onus = d.pon.onus := rfl
@[simp] theorem Dev.setQueue_pon_allocs (d : Dev) (i : Nat) (q : List Pkt) : (d.setQueue i q).pon.allocs = d.pon.allocs := rfl
@[simp] theorem Dev.setQueue_pon_flows (d : Dev) (i : Nat) (q : List Pkt) : (d.setQueue i q).pon.flows = d.pon.flows := rfl
@[simp] theorem Dev.setQueue_pon_engines (d : Dev) (i : Nat) (q : List Pkt) : (d.setQueue i q).pon.engines = d.pon.engines := rfl
@[simp] theorem Dev.setQueue_pon_tenants (d : Dev) (i : Nat) (q : List Pkt) : (d.setQueue i q).pon.tenants = d.pon.tenants := rfl
@[simp] theorem Dev.setQueue_pon_omci (d : Dev) (i : Nat) (q : List Pkt) : (d.setQueue i q).pon.omci = d.pon.omci := rfl
@[simp] theorem Dev.setQueue_pon_omciNext (d : Dev) (i : Nat) (q : List Pkt) : (d.setQueue i q).pon.omciNext = d.pon.omciNext := rfl
@[simp] theorem Dev.setQueue_pon_commits (d : Dev) (i : Nat) (q : List Pkt) : (d.setQueue i q).pon.commits = d.pon.commits := rfl
@[simp] theorem Dev.setQueue_pon_linesOff (d : Dev) (i : Nat) (q : List Pkt) : (d.setQueue i q).pon.linesOff = d.pon.linesOff := rfl
@[simp] theorem Dev.onCls_data_cls (d : Dev) (g : Cls → Cls) : (d.onCls g).data.cls = g d.data.cls := rfl
@[simp] theorem Dev.onBuf_data_buf (d : Dev) (g : Buf → Buf) : (d.onBuf g).data.buf = g d.data.buf := rfl
@[simp] theorem Dev.onTrie_data_trie (d : Dev) (g : Trie → Trie) : (d.onTrie g).data.trie = g d.data.trie := rfl

end Sys2Proof.Machine
end

