-- ==== Sys2Proof/Laws/Tables.lean ====
section
/-! SUPPORT. Sparse tables and memories: what reading after a write gives, that a write leaves every other key alone, and that every
operation keeps the canonical form. -/

namespace Sys2Proof.Machine

/-! ## Reading after a write -/

section tables
variable {α : Type}

@[simp] theorem Tbl.get?_nil (k : Nat) : Tbl.get? ([] : Tbl α) k = none := rfl

theorem Tbl.get?_cons (e : Nat × α) (t : Tbl α) (k : Nat) :
    Tbl.get? (e :: t) k = if e.1 = k then some e.2 else Tbl.get? t k := rfl

@[simp] theorem Tbl.look_nil (x : α) (k : Nat) : Tbl.look x ([] : Tbl α) k = x := rfl

@[simp] theorem Tbl.get?_set_same (t : Tbl α) (k : Nat) (x : α) : Tbl.get? (Tbl.set t k x) k = some x := by
  induction t with
  | nil => simp [Tbl.set, Tbl.get?]
  | cons e t ih =>
    obtain ⟨j, v⟩ := e
    simp only [Tbl.set]
    split
    · simp [Tbl.get?]
    · split
      · simp [Tbl.get?]
      · rename_i h; simp [Tbl.get?, h, ih]

theorem Tbl.get?_set_ne (t : Tbl α) {k j : Nat} (x : α) (h : j ≠ k) : Tbl.get? (Tbl.set t k x) j = Tbl.get? t j := by
  induction t with
  | nil => simp [Tbl.set, Tbl.get?, Ne.symm h]
  | cons e t ih =>
    obtain ⟨i, v⟩ := e
    simp only [Tbl.set]
    split
    · simp [Tbl.get?, Ne.symm h]
    · split
      · rename_i hi; subst hi; simp [Tbl.get?, Ne.symm h]
      · simp [Tbl.get?, ih]

@[simp] theorem Tbl.get?_erase_same (t : Tbl α) (k : Nat) : Tbl.get? (Tbl.erase t k) k = none := by
  induction t with
  | nil => rfl
  | cons e t ih =>
    obtain ⟨j, v⟩ := e
    simp only [Tbl.erase]
    split
    · exact ih
    · rename_i h; simp [Tbl.get?, h, ih]

theorem Tbl.get?_erase_ne (t : Tbl α) {k j : Nat} (h : j ≠ k) : Tbl.get? (Tbl.erase t k) j = Tbl.get? t j := by
  induction t with
  | nil => rfl
  | cons e t ih =>
    obtain ⟨i, v⟩ := e
    simp only [Tbl.erase]
    split
    · rename_i hi; subst hi; simp [Tbl.get?, Ne.symm h, ih]
    · simp [Tbl.get?, ih]

@[simp] theorem Tbl.look_set_same (dflt : α) (t : Tbl α) (k : Nat) (x : α) : Tbl.look dflt (Tbl.set t k x) k = x := by
  simp [Tbl.look]

theorem Tbl.look_set_ne (dflt : α) (t : Tbl α) {k j : Nat} (x : α) (h : j ≠ k) :
    Tbl.look dflt (Tbl.set t k x) j = Tbl.look dflt t j := by
  simp [Tbl.look, Tbl.get?_set_ne t x h]

theorem Tbl.get?_modify_same (t : Tbl α) (k : Nat) (f : α → α) : Tbl.get? (Tbl.modify t k f) k = (Tbl.get? t k).map f := by
  unfold Tbl.modify
  split
  · rename_i v hv; simp [hv]
  · rename_i hv; simp [hv]

theorem Tbl.get?_modify_ne (t : Tbl α) {k j : Nat} (f : α → α) (h : j ≠ k) : Tbl.get? (Tbl.modify t k f) j = Tbl.get? t j := by
  unfold Tbl.modify
  split
  · exact Tbl.get?_set_ne t _ h
  · rfl

/-! ## The canonical form -/

theorem Tbl.rising_tail {k : Nat} {v : α} {t : Tbl α} (h : Tbl.rising ((k, v) :: t) = true) : Tbl.rising t = true := by
  cases t with
  | nil => rfl
  | cons e t => obtain ⟨j, w⟩ := e; simp [Tbl.rising] at h; exact h.2

/-- Every key of a table lies above a bound. -/
def Tbl.above (k : Nat) (t : Tbl α) : Prop := ∀ e ∈ t, k < e.1

theorem Tbl.above_of_rising {k : Nat} {v : α} {t : Tbl α} (h : Tbl.rising ((k, v) :: t) = true) : Tbl.above k t := by
  induction t generalizing k v with
  | nil => intro e he; cases he
  | cons e t ih =>
    obtain ⟨j, w⟩ := e
    simp [Tbl.rising] at h
    intro x hx
    cases hx with
    | head => exact h.1
    | tail _ hx => exact Nat.lt_trans h.1 (ih h.2 x hx)

theorem Tbl.rising_cons {k : Nat} {v : α} {t : Tbl α} (ha : Tbl.above k t) (hr : Tbl.rising t = true) :
    Tbl.rising ((k, v) :: t) = true := by
  cases t with
  | nil => rfl
  | cons e t => obtain ⟨j, w⟩ := e; simp [Tbl.rising, hr]; exact ha (j, w) (by simp)

theorem Tbl.mem_erase {t : Tbl α} {k : Nat} {e : Nat × α} (h : e ∈ Tbl.erase t k) : e ∈ t := by
  induction t with
  | nil => cases h
  | cons x t ih =>
    obtain ⟨j, v⟩ := x
    simp only [Tbl.erase] at h
    split at h
    · exact List.mem_cons_of_mem _ (ih h)
    · cases h with
      | head => simp
      | tail _ h => exact List.mem_cons_of_mem _ (ih h)

theorem Tbl.mem_set {t : Tbl α} {k : Nat} {x : α} {e : Nat × α} (h : e ∈ Tbl.set t k x) : e = (k, x) ∨ e ∈ t := by
  induction t with
  | nil => simp [Tbl.set] at h; exact Or.inl h
  | cons y t ih =>
    obtain ⟨j, v⟩ := y
    simp only [Tbl.set] at h
    split at h
    · cases h with
      | head => exact Or.inl rfl
      | tail _ h => exact Or.inr h
    · split at h
      · cases h with
        | head => exact Or.inl rfl
        | tail _ h => exact Or.inr (List.mem_cons_of_mem _ h)
      · cases h with
        | head => exact Or.inr (by simp)
        | tail _ h => rcases ih h with h | h
                      · exact Or.inl h
                      · exact Or.inr (List.mem_cons_of_mem _ h)

theorem Tbl.rising_erase (t : Tbl α) (k : Nat) (h : Tbl.rising t = true) : Tbl.rising (Tbl.erase t k) = true := by
  induction t with
  | nil => rfl
  | cons e t ih =>
    obtain ⟨j, v⟩ := e
    simp only [Tbl.erase]
    split
    · exact ih (Tbl.rising_tail h)
    · exact Tbl.rising_cons (fun x hx => Tbl.above_of_rising h x (Tbl.mem_erase hx)) (ih (Tbl.rising_tail h))

theorem Tbl.rising_set (t : Tbl α) (k : Nat) (x : α) (h : Tbl.rising t = true) : Tbl.rising (Tbl.set t k x) = true := by
  induction t with
  | nil => rfl
  | cons e t ih =>
    obtain ⟨j, v⟩ := e
    simp only [Tbl.set]
    split
    · rename_i hk; simp [Tbl.rising, hk, h]
    · split
      · rename_i hj; subst hj; exact Tbl.rising_cons (Tbl.above_of_rising h) (Tbl.rising_tail h)
      · rename_i h1 h2
        refine Tbl.rising_cons (fun y hy => ?_) (ih (Tbl.rising_tail h))
        rcases Tbl.mem_set hy with rfl | hy
        · show j < k; omega
        · exact Tbl.above_of_rising h y hy

variable [DecidableEq α]

@[simp] theorem Tbl.look_put_same (dflt : α) (t : Tbl α) (k : Nat) (x : α) : Tbl.look dflt (Tbl.put dflt t k x) k = x := by
  unfold Tbl.put
  split
  · rename_i h; simp [Tbl.look, h]
  · simp

theorem Tbl.get?_put_ne (dflt : α) (t : Tbl α) {k j : Nat} (x : α) (h : j ≠ k) :
    Tbl.get? (Tbl.put dflt t k x) j = Tbl.get? t j := by
  unfold Tbl.put
  split
  · exact Tbl.get?_erase_ne t h
  · exact Tbl.get?_set_ne t x h

/-- The value that an unlisted key reads as may be another at another key. -/
theorem Tbl.look_put_ne {other : α} (dflt : α) (t : Tbl α) {k j : Nat} (x : α) (h : j ≠ k) :
    Tbl.look other (Tbl.put dflt t k x) j = Tbl.look other t j := by
  simp [Tbl.look, Tbl.get?_put_ne dflt t x h]

theorem Tbl.look_put (dflt : α) (t : Tbl α) (k j : Nat) (x : α) :
    Tbl.look dflt (Tbl.put dflt t k x) j = if j = k then x else Tbl.look dflt t j := by
  by_cases h : j = k
  · subst h; simp
  · simp [h, Tbl.look_put_ne dflt t x h]

@[simp] theorem Tbl.look_upd_same (dflt : α) (t : Tbl α) (k : Nat) (f : α → α) :
    Tbl.look dflt (Tbl.upd dflt t k f) k = f (Tbl.look dflt t k) := by simp [Tbl.upd]

theorem Tbl.look_upd_ne {other : α} (dflt : α) (t : Tbl α) {k j : Nat} (f : α → α) (h : j ≠ k) :
    Tbl.look other (Tbl.upd dflt t k f) j = Tbl.look other t j := Tbl.look_put_ne dflt t _ h

theorem Tbl.wf_put (dflt : α) (t : Tbl α) (k : Nat) (x : α) (h : Tbl.wf dflt t = true) : Tbl.wf dflt (Tbl.put dflt t k x) = true := by
  simp only [Tbl.wf, Bool.and_eq_true, List.all_eq_true, decide_eq_true_eq] at h ⊢
  unfold Tbl.put
  split
  · exact ⟨Tbl.rising_erase t k h.1, fun e he => h.2 e (Tbl.mem_erase he)⟩
  · rename_i hx
    refine ⟨Tbl.rising_set t k x h.1, fun e he => ?_⟩
    rcases Tbl.mem_set he with rfl | he
    · exact hx
    · exact h.2 e he

theorem Tbl.wf_upd (dflt : α) (t : Tbl α) (k : Nat) (f : α → α) (h : Tbl.wf dflt t = true) : Tbl.wf dflt (Tbl.upd dflt t k f) = true :=
  Tbl.wf_put dflt t k _ h

end tables

/-! ## Memories -/

@[simp] theorem Mem.byte_poke_same (m : Mem) (a : Nat) (b : Byte) : Mem.byte (Mem.poke m a b) a = b := by
  simp [Mem.byte, Mem.poke]

theorem Mem.byte_poke_ne (m : Mem) {a c : Nat} (b : Byte) (h : c ≠ a) : Mem.byte (Mem.poke m a b) c = Mem.byte m c :=
  Tbl.look_put_ne (0 : Byte) m b h

theorem Mem.poke_wf (m : Mem) (a : Nat) (b : Byte) (h : Memory.wf m = true) : Memory.wf (Mem.poke m a b) = true :=
  Tbl.wf_put 0 m a b h

theorem Mem.write_wf (bs : Bytes) (m : Mem) (a : Nat) (h : Memory.wf m = true) : Memory.wf (Mem.write m a bs) = true := by
  induction bs generalizing m a with
  | nil => exact h
  | cons b bs ih => exact ih _ _ (Mem.poke_wf m a b h)

/-- Writing a string leaves every byte outside it as it was. -/
theorem Mem.byte_write_outside (bs : Bytes) (m : Mem) (a c : Nat) (h : c < a ∨ a + bs.length ≤ c) :
    Mem.byte (Mem.write m a bs) c = Mem.byte m c := by
  induction bs generalizing m a with
  | nil => rfl
  | cons b bs ih =>
    simp only [List.length_cons] at h
    rw [Mem.write, ih (Mem.poke m a b) (a + 1) (by omega), Mem.byte_poke_ne m b (by omega)]

/-- Reading a written string gives its bytes. -/
theorem Mem.byte_write_inside (bs : Bytes) (m : Mem) (a i : Nat) (h : i < bs.length) :
    Mem.byte (Mem.write m a bs) (a + i) = bs[i] := by
  induction bs generalizing m a i with
  | nil => simp at h
  | cons b bs ih =>
    cases i with
    | zero => rw [Mem.write, Mem.byte_write_outside bs _ _ _ (by omega)]; simp
    | succ i =>
      have := ih (Mem.poke m a b) (a + 1) i (by simpa using h)
      rw [Mem.write, show a + (i + 1) = a + 1 + i by omega, this]; simp

/-- A ring write keeps the canonical form. -/
theorem ringFold_wf (l : List (Byte × Nat)) (m : Mem) (p : Nat) (h : Memory.wf m = true) :
    Memory.wf (l.foldl (fun m e => Mem.poke m ((p % 256 * 16 + e.2) % 4096) e.1) m) = true := by
  induction l generalizing m with
  | nil => exact h
  | cons e l ih => exact ih _ (Mem.poke_wf _ _ _ h)

end Sys2Proof.Machine
end

