-- ==== Sys2Proof/Laws/Objects.lean ====
section
/-! SUPPORT. Reading an object of the block after a change of it, or of another. -/

namespace Sys2Proof.Machine

@[simp] theorem Dev.fn_onFn (d : Dev) (i : Nat) (g : Func → Func) : (d.onFn i g).fn i = g (d.fn i) := Tbl.look_upd_same _ _ _ _

theorem Dev.fn_onFn_ne (d : Dev) {i j : Nat} (g : Func → Func) (h : j ≠ i) : (d.onFn i g).fn j = d.fn j := Tbl.look_upd_ne _ _ _ h

@[simp] theorem Dev.chan_onChan (d : Dev) (i : Nat) (g : Chan → Chan) : (d.onChan i g).chan i = g (d.chan i) := Tbl.look_upd_same _ _ _ _

theorem Dev.chan_onChan_ne (d : Dev) {i j : Nat} (g : Chan → Chan) (h : j ≠ i) : (d.onChan i g).chan j = d.chan j := Tbl.look_upd_ne _ _ _ h

@[simp] theorem Dev.recv_onRecv (d : Dev) (i : Nat) (g : Recv → Recv) : (d.onRecv i g).recv i = g (d.recv i) := Tbl.look_upd_same _ _ _ _

theorem Dev.recv_onRecv_ne (d : Dev) {i j : Nat} (g : Recv → Recv) (h : j ≠ i) : (d.onRecv i g).recv j = d.recv j := Tbl.look_upd_ne _ _ _ h

@[simp] theorem Dev.onu_onOnu (d : Dev) (i : Nat) (g : Onu → Onu) : (d.onOnu i g).onu i = g (d.onu i) := Tbl.look_upd_same _ _ _ _

theorem Dev.onu_onOnu_ne (d : Dev) {i j : Nat} (g : Onu → Onu) (h : j ≠ i) : (d.onOnu i g).onu j = d.onu j := Tbl.look_upd_ne _ _ _ h

@[simp] theorem Dev.eng_onEng (d : Dev) (i : Nat) (g : Engine → Engine) : (d.onEng i g).eng i = g (d.eng i) := Tbl.look_upd_same _ _ _ _

theorem Dev.eng_onEng_ne (d : Dev) {i j : Nat} (g : Engine → Engine) (h : j ≠ i) : (d.onEng i g).eng j = d.eng j := Tbl.look_upd_ne _ _ _ h

@[simp] theorem Dev.tenant_onTenant (d : Dev) (i : Nat) (g : Tenant → Tenant) : (d.onTenant i g).tenant i = g (d.tenant i) := Tbl.look_upd_same _ _ _ _

theorem Dev.tenant_onTenant_ne (d : Dev) {i j : Nat} (g : Tenant → Tenant) (h : j ≠ i) : (d.onTenant i g).tenant j = d.tenant j := Tbl.look_upd_ne _ _ _ h

@[simp] theorem Dev.die_onDie (d : Dev) (i : Nat) (g : Die → Die) : (d.onDie i g).die i = g (d.die i) := Tbl.look_upd_same _ _ _ _

theorem Dev.die_onDie_ne (d : Dev) {i j : Nat} (g : Die → Die) (h : j ≠ i) : (d.onDie i g).die j = d.die j := Tbl.look_upd_ne _ _ _ h

@[simp] theorem Dev.sub_onSub (d : Dev) (i : Nat) (g : Sub → Sub) : (d.onSub i g).sub i = g (d.sub i) := Tbl.look_upd_same _ _ _ _

theorem Dev.sub_onSub_ne (d : Dev) {i j : Nat} (g : Sub → Sub) (h : j ≠ i) : (d.onSub i g).sub j = d.sub j := Tbl.look_upd_ne _ _ _ h

@[simp] theorem Dev.lane_onLane (d : Dev) (i : Nat) (g : Lane → Lane) : (d.onLane i g).lane i = g (d.lane i) := Tbl.look_upd_same _ _ _ _

theorem Dev.lane_onLane_ne (d : Dev) {i j : Nat} (g : Lane → Lane) (h : j ≠ i) : (d.onLane i g).lane j = d.lane j := Tbl.look_upd_ne _ _ _ h

@[simp] theorem Dev.synce_onSynce (d : Dev) (i : Nat) (g : SyncE → SyncE) : (d.onSynce i g).synce i = g (d.synce i) := Tbl.look_upd_same _ _ _ _

theorem Dev.synce_onSynce_ne (d : Dev) {i j : Nat} (g : SyncE → SyncE) (h : j ≠ i) : (d.onSynce i g).synce j = d.synce j := Tbl.look_upd_ne _ _ _ h

@[simp] theorem Dev.dmaCh_onDma (d : Dev) (i : Nat) (g : Dma → Dma) : (d.onDma i g).dmaCh i = g (d.dmaCh i) := Tbl.look_upd_same _ _ _ _

theorem Dev.dmaCh_onDma_ne (d : Dev) {i j : Nat} (g : Dma → Dma) (h : j ≠ i) : (d.onDma i g).dmaCh j = d.dmaCh j := Tbl.look_upd_ne _ _ _ h

@[simp] theorem Dev.dlink_onDlink (d : Dev) (i : Nat) (g : DLink → DLink) : (d.onDlink i g).dlink i = g (d.dlink i) := Tbl.look_upd_same _ _ _ _

theorem Dev.dlink_onDlink_ne (d : Dev) {i j : Nat} (g : DLink → DLink) (h : j ≠ i) : (d.onDlink i g).dlink j = d.dlink j := Tbl.look_upd_ne _ _ _ h

@[simp] theorem Dev.node_onNode (d : Dev) (i : Nat) (g : Node → Node) : (d.onNode i g).node i = g (d.node i) := Tbl.look_upd_same _ _ _ _

theorem Dev.node_onNode_ne (d : Dev) {i j : Nat} (g : Node → Node) (h : j ≠ i) : (d.onNode i g).node j = d.node j := Tbl.look_upd_ne _ _ _ h

@[simp] theorem Dev.pol_onPol (d : Dev) (i : Nat) (g : Policer → Policer) : (d.onPol i g).pol i = g (d.pol i) := Tbl.look_upd_same _ _ _ _

theorem Dev.pol_onPol_ne (d : Dev) {i j : Nat} (g : Policer → Policer) (h : j ≠ i) : (d.onPol i g).pol j = d.pol j := Tbl.look_upd_ne _ _ _ h

@[simp] theorem Dev.exc_onExc (d : Dev) (i : Nat) (g : ExcBucket → ExcBucket) : (d.onExc i g).exc i = g (d.exc i) := Tbl.look_upd_same _ _ _ _

theorem Dev.exc_onExc_ne (d : Dev) {i j : Nat} (g : ExcBucket → ExcBucket) (h : j ≠ i) : (d.onExc i g).exc j = d.exc j := Tbl.look_upd_ne _ _ _ h

@[simp] theorem Dev.owner_onOwner (d : Dev) (i : Nat) (g : Owner → Owner) : (d.onOwner i g).owner i = g (d.owner i) := Tbl.look_upd_same _ _ _ _

theorem Dev.owner_onOwner_ne (d : Dev) {i j : Nat} (g : Owner → Owner) (h : j ≠ i) : (d.onOwner i g).owner j = d.owner j := Tbl.look_upd_ne _ _ _ h

@[simp] theorem Dev.redCh_onRedCh (d : Dev) (i : Nat) (g : RedCh → RedCh) : (d.onRedCh i g).redCh i = g (d.redCh i) := Tbl.look_upd_same _ _ _ _

theorem Dev.redCh_onRedCh_ne (d : Dev) {i j : Nat} (g : RedCh → RedCh) (h : j ≠ i) : (d.onRedCh i g).redCh j = d.redCh j := Tbl.look_upd_ne _ _ _ h

@[simp] theorem Dev.otdrOf_onOtdr (d : Dev) (i : Nat) (g : Otdr → Otdr) : (d.onOtdr i g).otdrOf i = g (d.otdrOf i) := Tbl.look_upd_same _ _ _ _

theorem Dev.otdrOf_onOtdr_ne (d : Dev) {i j : Nat} (g : Otdr → Otdr) (h : j ≠ i) : (d.onOtdr i g).otdrOf j = d.otdrOf j := Tbl.look_upd_ne _ _ _ h

@[simp] theorem Dev.kiosk_onKiosk (d : Dev) (i : Nat) (g : Kiosk → Kiosk) : (d.onKiosk i g).kiosk i = g (d.kiosk i) := by simp [Dev.onKiosk, Dev.kiosk]

theorem Dev.kiosk_onKiosk_ne (d : Dev) {i j : Nat} (g : Kiosk → Kiosk) (h : j ≠ i) : (d.onKiosk i g).kiosk j = d.kiosk j := by simp [Dev.onKiosk, Dev.kiosk, Dev.fn_onFn_ne _ _ h]

theorem Dev.fn_onKiosk (d : Dev) (i : Nat) (g : Kiosk → Kiosk) : (d.onKiosk i g).fn i = { d.fn i with kiosk := g (d.fn i).kiosk } := Dev.fn_onFn d i _

theorem Dev.fn_onKiosk_ne (d : Dev) {i j : Nat} (g : Kiosk → Kiosk) (h : j ≠ i) : (d.onKiosk i g).fn j = d.fn j := Dev.fn_onFn_ne d _ h

@[simp] theorem Dev.page_onPage (d : Dev) (i : Nat) (g : Page → Page) : (d.onPage i g).page i = g (d.page i) := by simp [Dev.onPage, Dev.page]

theorem Dev.page_onPage_ne (d : Dev) {i j : Nat} (g : Page → Page) (h : j ≠ i) : (d.onPage i g).page j = d.page j := by simp [Dev.onPage, Dev.page, Dev.fn_onFn_ne _ _ h]

theorem Dev.fn_onPage (d : Dev) (i : Nat) (g : Page → Page) : (d.onPage i g).fn i = { d.fn i with page := g (d.fn i).page } := Dev.fn_onFn d i _

theorem Dev.fn_onPage_ne (d : Dev) {i j : Nat} (g : Page → Page) (h : j ≠ i) : (d.onPage i g).fn j = d.fn j := Dev.fn_onFn_ne d _ h

@[simp] theorem Dev.tree?_onTree (d : Dev) (i : Nat) (g : Tree → Tree) : (d.onTree i g).tree? i = (d.tree? i).map g := Tbl.get?_modify_same _ _ _

theorem Dev.tree?_onTree_ne (d : Dev) {i j : Nat} (g : Tree → Tree) (h : j ≠ i) : (d.onTree i g).tree? j = d.tree? j := Tbl.get?_modify_ne _ _ h

@[simp] theorem Dev.alloc?_onAlloc (d : Dev) (i : Nat) (g : Alloc → Alloc) : (d.onAlloc i g).alloc? i = (d.alloc? i).map g := Tbl.get?_modify_same _ _ _

theorem Dev.alloc?_onAlloc_ne (d : Dev) {i j : Nat} (g : Alloc → Alloc) (h : j ≠ i) : (d.onAlloc i g).alloc? j = d.alloc? j := Tbl.get?_modify_ne _ _ h

@[simp] theorem Dev.flow?_onFlow (d : Dev) (i : Nat) (g : Flow → Flow) : (d.onFlow i g).flow? i = (d.flow? i).map g := Tbl.get?_modify_same _ _ _

theorem Dev.flow?_onFlow_ne (d : Dev) {i j : Nat} (g : Flow → Flow) (h : j ≠ i) : (d.onFlow i g).flow? j = d.flow? j := Tbl.get?_modify_ne _ _ h

@[simp] theorem Dev.queue_setQueue (d : Dev) (i : Nat) (q : List Pkt) : (d.setQueue i q).queue i = q := Tbl.look_put_same _ _ _ _

theorem Dev.queue_setQueue_ne (d : Dev) {i j : Nat} (q : List Pkt) (h : j ≠ i) : (d.setQueue i q).queue j = d.queue j := Tbl.look_put_ne _ _ _ h

@[simp] theorem Dev.reg_setReg (d : Dev) (a v : Nat) : (d.setReg a v).reg a = v % 2 ^ 32 := by simp [Dev.reg, Dev.setReg, w32]

theorem Dev.reg_setReg_ne (d : Dev) {a b : Nat} (v : Nat) (h : b ≠ a) : (d.setReg a v).reg b = d.reg b := by
  simp only [Dev.reg, Dev.setReg, Tbl.look_put_ne _ _ _ h]

@[simp] theorem Dev.live_setLive (d : Dev) (a v : Nat) : (d.setLive a v).live' a = v % 2 ^ 32 := by simp [Dev.live', Dev.setLive, w32]

theorem Dev.live_setLive_ne (d : Dev) {a b : Nat} (v : Nat) (h : b ≠ a) : (d.setLive a v).live' b = d.live' b := by
  simp only [Dev.live', Dev.setLive, Tbl.look_put_ne _ _ _ h]

@[simp] theorem Dev.ctr_setCtr (d : Dev) (a v : Nat) : (d.setCtr a v).ctr a = v % 2 ^ 64 := by simp [Dev.ctr, Dev.setCtr, w64]

theorem Dev.ctr_setCtr_ne (d : Dev) {a b : Nat} (v : Nat) (h : b ≠ a) : (d.setCtr a v).ctr b = d.ctr b := by
  simp [Dev.ctr, Dev.setCtr, Tbl.look_put_ne _ _ _ h]

@[simp] theorem Dev.ctr_bump (d : Dev) (a n : Nat) : (d.bump a n).ctr a = (d.ctr a + n) % 2 ^ 64 := Dev.ctr_setCtr d a _

theorem Dev.ctr_bump_ne (d : Dev) {a b : Nat} (n : Nat) (h : b ≠ a) : (d.bump a n).ctr b = d.ctr b := Dev.ctr_setCtr_ne d _ h

theorem Dev.fn_congr {d e : Dev} (h : e.funcs = d.funcs) (i : Nat) : e.fn i = d.fn i := by simp only [Dev.fn, h]

theorem Dev.chan_congr {d e : Dev} (h : e.pon = d.pon) (i : Nat) : e.chan i = d.chan i := by simp only [Dev.chan, h]

theorem Dev.recv_congr {d e : Dev} (h : e.pon = d.pon) (i : Nat) : e.recv i = d.recv i := by simp only [Dev.recv, h]

theorem Dev.onu_congr {d e : Dev} (h : e.pon = d.pon) (i : Nat) : e.onu i = d.onu i := by simp only [Dev.onu, h]

theorem Dev.eng_congr {d e : Dev} (h : e.pon = d.pon) (i : Nat) : e.eng i = d.eng i := by simp only [Dev.eng, h]

theorem Dev.tenant_congr {d e : Dev} (h : e.pon = d.pon) (i : Nat) : e.tenant i = d.tenant i := by simp only [Dev.tenant, h]

theorem Dev.die_congr {d e : Dev} (h : e.data = d.data) (i : Nat) : e.die i = d.die i := by simp only [Dev.die, h]

theorem Dev.sub_congr {d e : Dev} (h : e.data = d.data) (i : Nat) : e.sub i = d.sub i := by simp only [Dev.sub, h]

theorem Dev.lane_congr {d e : Dev} (h : e.data = d.data) (i : Nat) : e.lane i = d.lane i := by simp only [Dev.lane, h]

theorem Dev.synce_congr {d e : Dev} (h : e.data = d.data) (i : Nat) : e.synce i = d.synce i := by simp only [Dev.synce, h]

theorem Dev.dmaCh_congr {d e : Dev} (h : e.data = d.data) (i : Nat) : e.dmaCh i = d.dmaCh i := by simp only [Dev.dmaCh, h]

theorem Dev.dlink_congr {d e : Dev} (h : e.data = d.data) (i : Nat) : e.dlink i = d.dlink i := by simp only [Dev.dlink, h]

theorem Dev.node_congr {d e : Dev} (h : e.data = d.data) (i : Nat) : e.node i = d.node i := by simp only [Dev.node, h]

theorem Dev.pol_congr {d e : Dev} (h : e.data = d.data) (i : Nat) : e.pol i = d.pol i := by simp only [Dev.pol, h]

theorem Dev.exc_congr {d e : Dev} (h : e.data = d.data) (i : Nat) : e.exc i = d.exc i := by simp only [Dev.exc, h]

theorem Dev.owner_congr {d e : Dev} (h : e.data = d.data) (i : Nat) : e.owner i = d.owner i := by simp only [Dev.owner, h]

theorem Dev.redCh_congr {d e : Dev} (h : e.redch = d.redch) (i : Nat) : e.redCh i = d.redCh i := by simp only [Dev.redCh, h]

theorem Dev.otdrOf_congr {d e : Dev} (h : e.otdr = d.otdr) (i : Nat) : e.otdrOf i = d.otdrOf i := by simp only [Dev.otdrOf, h]

theorem Dev.kiosk_congr {d e : Dev} (h : e.funcs = d.funcs) (i : Nat) : e.kiosk i = d.kiosk i := by simp only [Dev.kiosk, Dev.fn, h]

theorem Dev.page_congr {d e : Dev} (h : e.funcs = d.funcs) (i : Nat) : e.page i = d.page i := by simp only [Dev.page, Dev.fn, h]

theorem Dev.tree_congr {d e : Dev} (h : e.pon = d.pon) (i : Nat) : e.tree? i = d.tree? i := by simp only [Dev.tree?, h]

theorem Dev.alloc_congr {d e : Dev} (h : e.pon = d.pon) (i : Nat) : e.alloc? i = d.alloc? i := by simp only [Dev.alloc?, h]

theorem Dev.flow_congr {d e : Dev} (h : e.pon = d.pon) (i : Nat) : e.flow? i = d.flow? i := by simp only [Dev.flow?, h]

theorem Dev.queue_congr {d e : Dev} (h : e.pon = d.pon) (i : Nat) : e.queue i = d.queue i := by simp only [Dev.queue, h]

theorem Dev.reg_congr {d e : Dev} (h : e.regs = d.regs) (i : Nat) : e.reg i = d.reg i := by simp only [Dev.reg, h]

theorem Dev.live_congr {d e : Dev} (h : e.live = d.live) (i : Nat) : e.live' i = d.live' i := by simp only [Dev.live', h]

theorem Dev.ctr_congr {d e : Dev} (h : e.ctrs = d.ctrs) (i : Nat) : e.ctr i = d.ctr i := by simp only [Dev.ctr, h]

end Sys2Proof.Machine
end

