-- ==== Sys2Proof/Laws/Step.lean ====
section
/-! SUPPORT. The shape of every command: a function of the block alone, where the command is well formed, and a fault where it is not. -/

namespace Sys2Proof.Machine

@[simp] theorem act_true (f : Dev → Dev) (s : State) : act true f s = .next { s with dev := f s.dev } := rfl

theorem act_ok {ok : Bool} (h : ok = true) (f : Dev → Dev) (s : State) : act ok f s = .next { s with dev := f s.dev } := by
  subst h; rfl

@[simp] theorem act_false (f : Dev → Dev) (s : State) : act false f s = .fault .noSuchObject := rfl

/-- What `act` answers: the block changed and the queue kept, or the fault of an ill-formed command. -/
theorem act_next {ok : Bool} {f : Dev → Dev} {s t : State} (h : act ok f s = .next t) :
    ok = true ∧ t = { s with dev := f s.dev } := by
  cases ok with
  | true => exact ⟨rfl, by simpa using h.symm⟩
  | false => cases h

/-- Every command is a function of the block alone, guarded by its well-formedness. -/
theorem exec_act (c : Instr) : ∃ f : Dev → Dev, ∀ s, exec c s = act (Instr.wf c) f s := by
  cases c <;> dsimp only [exec, Instr.wf] <;>
    first
    | exact ⟨_, fun _ => rfl⟩
    | exact ⟨fun d => d.submit _ _, fun _ => rfl⟩

end Sys2Proof.Machine
end

