-- ==== Sys2Proof/Laws/Frames.lean ====
section
/-! SUPPORT. The frames of the shared operations: the parts of the block that each may change, and, part by part, what it leaves alone. -/

namespace Sys2Proof.Machine

/-! ## Frames compose -/

theorem Only.refl (l : List Part) (d : Dev) : Only l d d := fun p _ => by cases p <;> rfl

theorem Only.trans {l : List Part} {a b c : Dev} (h : Only l a b) (k : Only l b c) : Only l a c := fun p hp => by
  have h1 := h p hp
  have k1 := k p hp
  cases p <;> exact k1.trans h1

theorem Only.mono {l k : List Part} {a b : Dev} (h : Only l a b) (hl : ∀ p ∈ l, p ∈ k) : Only k a b :=
  fun p hp => h p fun hq => hp (hl p hq)

/-- A frame with more parts. -/
theorem Only.to {l k : List Part} {a b : Dev} (h : Only l a b) (hl : (l.all fun p => decide (p ∈ k)) = true := by decide) : Only k a b :=
  h.mono fun p hp => by simpa using List.all_eq_true.mp hl p hp

theorem Only.ite {l : List Part} {d a b : Dev} {c : Prop} [Decidable c] (h : Only l d a) (k : Only l d b) :
    Only l d (if c then a else b) := by
  split <;> assumption

theorem Only.foldl {β : Type} {k : List Part} {g : Dev → β → Dev} (h : ∀ d x, Only k d (g d x)) (d : Dev) (l : List β) :
    Only k d (l.foldl g d) := by
  induction l generalizing d with
  | nil => exact Only.refl _ _
  | cons x l ih => exact (h d x).trans (ih (g d x))

theorem Only.each {k : List Part} {g : Nat → Dev → Dev} (h : ∀ i d, Only k d (g i d)) (d : Dev) (l : List Nat) :
    Only k d (d.each l g) := Only.foldl (fun d i => h i d) d l

/-! ## One part at a time -/

theorem onBoot_only (d : Dev) (g : Boot → Boot) : Only [.boot] d (d.onBoot g) := by
  intro p hp
  cases p <;> simp at hp <;> rfl

theorem onTime_only (d : Dev) (g : Time → Time) : Only [.time] d (d.onTime g) := by
  intro p hp
  cases p <;> simp at hp <;> rfl

theorem onPcie_only (d : Dev) (g : Pcie → Pcie) : Only [.pcie] d (d.onPcie g) := by
  intro p hp
  cases p <;> simp at hp <;> rfl

theorem onPins_only (d : Dev) (g : Pins → Pins) : Only [.pins] d (d.onPins g) := by
  intro p hp
  cases p <;> simp at hp <;> rfl

theorem onPon_only (d : Dev) (g : Pon → Pon) : Only [.pon] d (d.onPon g) := by
  intro p hp
  cases p <;> simp at hp <;> rfl

theorem onData_only (d : Dev) (g : Data → Data) : Only [.data] d (d.onData g) := by
  intro p hp
  cases p <;> simp at hp <;> rfl

theorem onRed_only (d : Dev) (g : Red → Red) : Only [.red] d (d.onRed g) := by
  intro p hp
  cases p <;> simp at hp <;> rfl

theorem onMir_only (d : Dev) (g : Mir → Mir) : Only [.mir] d (d.onMir g) := by
  intro p hp
  cases p <;> simp at hp <;> rfl

theorem onMeas_only (d : Dev) (g : Meas → Meas) : Only [.meas] d (d.onMeas g) := by
  intro p hp
  cases p <;> simp at hp <;> rfl

theorem onPower_only (d : Dev) (g : Power → Power) : Only [.power] d (d.onPower g) := by
  intro p hp
  cases p <;> simp at hp <;> rfl

theorem onPav_only (d : Dev) (g : Pav → Pav) : Only [.pav] d (d.onPav g) := by
  intro p hp
  cases p <;> simp at hp <;> rfl

theorem onUpd_only (d : Dev) (g : Upd → Upd) : Only [.upd] d (d.onUpd g) := by
  intro p hp
  cases p <;> simp at hp <;> rfl

theorem onCls_only (d : Dev) (g : Cls → Cls) : Only [.data] d (d.onCls g) := by
  intro p hp
  cases p <;> simp at hp <;> rfl

theorem onBuf_only (d : Dev) (g : Buf → Buf) : Only [.data] d (d.onBuf g) := by
  intro p hp
  cases p <;> simp at hp <;> rfl

theorem onTrie_only (d : Dev) (g : Trie → Trie) : Only [.data] d (d.onTrie g) := by
  intro p hp
  cases p <;> simp at hp <;> rfl

theorem onFn_only (d : Dev) (i : Nat) (g : Func → Func) : Only [.funcs] d (d.onFn i g) := by
  intro p hp
  cases p <;> simp at hp <;> rfl

theorem onKiosk_only (d : Dev) (i : Nat) (g : Kiosk → Kiosk) : Only [.funcs] d (d.onKiosk i g) := by
  intro p hp
  cases p <;> simp at hp <;> rfl

theorem onPage_only (d : Dev) (i : Nat) (g : Page → Page) : Only [.funcs] d (d.onPage i g) := by
  intro p hp
  cases p <;> simp at hp <;> rfl

theorem onCw_only (d : Dev) (i : Nat) (g : Window → Window) : Only [.funcs] d (d.onCw i g) := by
  intro p hp
  cases p <;> simp at hp <;> rfl

theorem onChan_only (d : Dev) (i : Nat) (g : Chan → Chan) : Only [.pon] d (d.onChan i g) := by
  intro p hp
  cases p <;> simp at hp <;> rfl

theorem onRecv_only (d : Dev) (i : Nat) (g : Recv → Recv) : Only [.pon] d (d.onRecv i g) := by
  intro p hp
  cases p <;> simp at hp <;> rfl

theorem onOnu_only (d : Dev) (i : Nat) (g : Onu → Onu) : Only [.pon] d (d.onOnu i g) := by
  intro p hp
  cases p <;> simp at hp <;> rfl

theorem onTree_only (d : Dev) (i : Nat) (g : Tree → Tree) : Only [.pon] d (d.onTree i g) := by
  intro p hp
  cases p <;> simp at hp <;> rfl

theorem onAlloc_only (d : Dev) (i : Nat) (g : Alloc → Alloc) : Only [.pon] d (d.onAlloc i g) := by
  intro p hp
  cases p <;> simp at hp <;> rfl

theorem onFlow_only (d : Dev) (i : Nat) (g : Flow → Flow) : Only [.pon] d (d.onFlow i g) := by
  intro p hp
  cases p <;> simp at hp <;> rfl

theorem onEng_only (d : Dev) (i : Nat) (g : Engine → Engine) : Only [.pon] d (d.onEng i g) := by
  intro p hp
  cases p <;> simp at hp <;> rfl

theorem onTenant_only (d : Dev) (i : Nat) (g : Tenant → Tenant) : Only [.pon] d (d.onTenant i g) := by
  intro p hp
  cases p <;> simp at hp <;> rfl

theorem onDie_only (d : Dev) (i : Nat) (g : Die → Die) : Only [.data] d (d.onDie i g) := by
  intro p hp
  cases p <;> simp at hp <;> rfl

theorem onSub_only (d : Dev) (i : Nat) (g : Sub → Sub) : Only [.data] d (d.onSub i g) := by
  intro p hp
  cases p <;> simp at hp <;> rfl

theorem onLane_only (d : Dev) (i : Nat) (g : Lane → Lane) : Only [.data] d (d.onLane i g) := by
  intro p hp
  cases p <;> simp at hp <;> rfl

theorem onSynce_only (d : Dev) (i : Nat) (g : SyncE → SyncE) : Only [.data] d (d.onSynce i g) := by
  intro p hp
  cases p <;> simp at hp <;> rfl

theorem onDma_only (d : Dev) (i : Nat) (g : Dma → Dma) : Only [.data] d (d.onDma i g) := by
  intro p hp
  cases p <;> simp at hp <;> rfl

theorem onDlink_only (d : Dev) (i : Nat) (g : DLink → DLink) : Only [.data] d (d.onDlink i g) := by
  intro p hp
  cases p <;> simp at hp <;> rfl

theorem onNode_only (d : Dev) (i : Nat) (g : Node → Node) : Only [.data] d (d.onNode i g) := by
  intro p hp
  cases p <;> simp at hp <;> rfl

theorem onPol_only (d : Dev) (i : Nat) (g : Policer → Policer) : Only [.data] d (d.onPol i g) := by
  intro p hp
  cases p <;> simp at hp <;> rfl

theorem onExc_only (d : Dev) (i : Nat) (g : ExcBucket → ExcBucket) : Only [.data] d (d.onExc i g) := by
  intro p hp
  cases p <;> simp at hp <;> rfl

theorem onOwner_only (d : Dev) (i : Nat) (g : Owner → Owner) : Only [.data] d (d.onOwner i g) := by
  intro p hp
  cases p <;> simp at hp <;> rfl

theorem onRedCh_only (d : Dev) (i : Nat) (g : RedCh → RedCh) : Only [.redch] d (d.onRedCh i g) := by
  intro p hp
  cases p <;> simp at hp <;> rfl

theorem onOtdr_only (d : Dev) (i : Nat) (g : Otdr → Otdr) : Only [.otdr] d (d.onOtdr i g) := by
  intro p hp
  cases p <;> simp at hp <;> rfl

theorem onPtp_only (d : Dev) (i : Nat) (g : Ptp → Ptp) : Only [.time] d (d.onPtp i g) := by
  intro p hp
  cases p <;> simp at hp <;> rfl

theorem onCmp_only (d : Dev) (i : Nat) (g : Cmp → Cmp) : Only [.time] d (d.onCmp i g) := by
  intro p hp
  cases p <;> simp at hp <;> rfl

theorem emit_only (d : Dev) (o : Out) : Only [.out] d (d.emit o) := by
  intro p hp
  cases p <;> simp at hp <;> rfl

theorem setQueue_only (d : Dev) (i : Nat) (q : List Pkt) : Only [.pon] d (d.setQueue i q) := by
  intro p hp
  cases p <;> simp at hp <;> rfl

theorem setReg_only (d : Dev) (a v : Nat) : Only [.regs] d (d.setReg a v) := by
  intro p hp
  cases p <;> simp at hp <;> rfl

theorem setLive_only (d : Dev) (a v : Nat) : Only [.live] d (d.setLive a v) := by
  intro p hp
  cases p <;> simp at hp <;> rfl

theorem setCtr_only (d : Dev) (a v : Nat) : Only [.ctrs] d (d.setCtr a v) := by
  intro p hp
  cases p <;> simp at hp <;> rfl

theorem bump_only (d : Dev) (a v : Nat) : Only [.ctrs] d (d.bump a v) := by
  intro p hp
  cases p <;> simp at hp <;> rfl

theorem bumpSat_only (d : Dev) (a v : Nat) : Only [.regs] d (d.bumpSat a v) := by
  intro p hp
  cases p <;> simp at hp <;> rfl

theorem setBit_only (d : Dev) (a i : Nat) (b : Bool) : Only [.regs] d (d.setBit a i b) := by
  intro p hp
  cases p <;> simp at hp <;> rfl

/-! ## Shared operations -/

theorem raise_only (d : Dev) (f v : Nat) : Only [.funcs, .out] d (d.raise f v) := by
  intro p hp
  unfold Dev.raise
  cases p <;> simp at hp <;> simp only [Part.same] <;> (split <;> try split) <;> simp
@[simp] theorem Dev.raise_draws (d : Dev) (f v : Nat) : (d.raise f v).draws = d.draws := raise_only d f v .draws (by decide)
@[simp] theorem Dev.raise_boot (d : Dev) (f v : Nat) : (d.raise f v).boot = d.boot := raise_only d f v .boot (by decide)
@[simp] theorem Dev.raise_fuses (d : Dev) (f v : Nat) : (d.raise f v).fuses = d.fuses := raise_only d f v .fuses (by decide)
@[simp] theorem Dev.raise_image (d : Dev) (f v : Nat) : (d.raise f v).image = d.image := raise_only d f v .image (by decide)
@[simp] theorem Dev.raise_pins (d : Dev) (f v : Nat) : (d.raise f v).pins = d.pins := raise_only d f v .pins (by decide)
@[simp] theorem Dev.raise_time (d : Dev) (f v : Nat) : (d.raise f v).time = d.time := raise_only d f v .time (by decide)
@[simp] theorem Dev.raise_pcie (d : Dev) (f v : Nat) : (d.raise f v).pcie = d.pcie := raise_only d f v .pcie (by decide)
@[simp] theorem Dev.raise_regs (d : Dev) (f v : Nat) : (d.raise f v).regs = d.regs := raise_only d f v .regs (by decide)
@[simp] theorem Dev.raise_ctrs (d : Dev) (f v : Nat) : (d.raise f v).ctrs = d.ctrs := raise_only d f v .ctrs (by decide)
@[simp] theorem Dev.raise_live (d : Dev) (f v : Nat) : (d.raise f v).live = d.live := raise_only d f v .live (by decide)
@[simp] theorem Dev.raise_due (d : Dev) (f v : Nat) : (d.raise f v).due = d.due := raise_only d f v .due (by decide)
@[simp] theorem Dev.raise_round (d : Dev) (f v : Nat) : (d.raise f v).round = d.round := raise_only d f v .round (by decide)
@[simp] theorem Dev.raise_daeLogged (d : Dev) (f v : Nat) : (d.raise f v).daeLogged = d.daeLogged := raise_only d f v .daeLogged (by decide)
@[simp] theorem Dev.raise_pon (d : Dev) (f v : Nat) : (d.raise f v).pon = d.pon := raise_only d f v .pon (by decide)
@[simp] theorem Dev.raise_data (d : Dev) (f v : Nat) : (d.raise f v).data = d.data := raise_only d f v .data (by decide)
@[simp] theorem Dev.raise_red (d : Dev) (f v : Nat) : (d.raise f v).red = d.red := raise_only d f v .red (by decide)
@[simp] theorem Dev.raise_mir (d : Dev) (f v : Nat) : (d.raise f v).mir = d.mir := raise_only d f v .mir (by decide)
@[simp] theorem Dev.raise_redch (d : Dev) (f v : Nat) : (d.raise f v).redch = d.redch := raise_only d f v .redch (by decide)
@[simp] theorem Dev.raise_meas (d : Dev) (f v : Nat) : (d.raise f v).meas = d.meas := raise_only d f v .meas (by decide)
@[simp] theorem Dev.raise_power (d : Dev) (f v : Nat) : (d.raise f v).power = d.power := raise_only d f v .power (by decide)
@[simp] theorem Dev.raise_pav (d : Dev) (f v : Nat) : (d.raise f v).pav = d.pav := raise_only d f v .pav (by decide)
@[simp] theorem Dev.raise_otdr (d : Dev) (f v : Nat) : (d.raise f v).otdr = d.otdr := raise_only d f v .otdr (by decide)
@[simp] theorem Dev.raise_upd (d : Dev) (f v : Nat) : (d.raise f v).upd = d.upd := raise_only d f v .upd (by decide)

theorem setCause_only (d : Dev) (c e f v b : Nat) : Only [.regs, .funcs, .out] d (d.setCause c e f v b) := by
  unfold Dev.setCause
  exact Only.ite ((setReg_only _ _ _).to.trans (raise_only _ _ _).to) (setReg_only _ _ _).to
@[simp] theorem Dev.setCause_draws (d : Dev) (c e f v b : Nat) : (d.setCause c e f v b).draws = d.draws := setCause_only d c e f v b .draws (by decide)
@[simp] theorem Dev.setCause_boot (d : Dev) (c e f v b : Nat) : (d.setCause c e f v b).boot = d.boot := setCause_only d c e f v b .boot (by decide)
@[simp] theorem Dev.setCause_fuses (d : Dev) (c e f v b : Nat) : (d.setCause c e f v b).fuses = d.fuses := setCause_only d c e f v b .fuses (by decide)
@[simp] theorem Dev.setCause_image (d : Dev) (c e f v b : Nat) : (d.setCause c e f v b).image = d.image := setCause_only d c e f v b .image (by decide)
@[simp] theorem Dev.setCause_pins (d : Dev) (c e f v b : Nat) : (d.setCause c e f v b).pins = d.pins := setCause_only d c e f v b .pins (by decide)
@[simp] theorem Dev.setCause_time (d : Dev) (c e f v b : Nat) : (d.setCause c e f v b).time = d.time := setCause_only d c e f v b .time (by decide)
@[simp] theorem Dev.setCause_pcie (d : Dev) (c e f v b : Nat) : (d.setCause c e f v b).pcie = d.pcie := setCause_only d c e f v b .pcie (by decide)
@[simp] theorem Dev.setCause_ctrs (d : Dev) (c e f v b : Nat) : (d.setCause c e f v b).ctrs = d.ctrs := setCause_only d c e f v b .ctrs (by decide)
@[simp] theorem Dev.setCause_live (d : Dev) (c e f v b : Nat) : (d.setCause c e f v b).live = d.live := setCause_only d c e f v b .live (by decide)
@[simp] theorem Dev.setCause_due (d : Dev) (c e f v b : Nat) : (d.setCause c e f v b).due = d.due := setCause_only d c e f v b .due (by decide)
@[simp] theorem Dev.setCause_round (d : Dev) (c e f v b : Nat) : (d.setCause c e f v b).round = d.round := setCause_only d c e f v b .round (by decide)
@[simp] theorem Dev.setCause_daeLogged (d : Dev) (c e f v b : Nat) : (d.setCause c e f v b).daeLogged = d.daeLogged := setCause_only d c e f v b .daeLogged (by decide)
@[simp] theorem Dev.setCause_pon (d : Dev) (c e f v b : Nat) : (d.setCause c e f v b).pon = d.pon := setCause_only d c e f v b .pon (by decide)
@[simp] theorem Dev.setCause_data (d : Dev) (c e f v b : Nat) : (d.setCause c e f v b).data = d.data := setCause_only d c e f v b .data (by decide)
@[simp] theorem Dev.setCause_red (d : Dev) (c e f v b : Nat) : (d.setCause c e f v b).red = d.red := setCause_only d c e f v b .red (by decide)
@[simp] theorem Dev.setCause_mir (d : Dev) (c e f v b : Nat) : (d.setCause c e f v b).mir = d.mir := setCause_only d c e f v b .mir (by decide)
@[simp] theorem Dev.setCause_redch (d : Dev) (c e f v b : Nat) : (d.setCause c e f v b).redch = d.redch := setCause_only d c e f v b .redch (by decide)
@[simp] theorem Dev.setCause_meas (d : Dev) (c e f v b : Nat) : (d.setCause c e f v b).meas = d.meas := setCause_only d c e f v b .meas (by decide)
@[simp] theorem Dev.setCause_power (d : Dev) (c e f v b : Nat) : (d.setCause c e f v b).power = d.power := setCause_only d c e f v b .power (by decide)
@[simp] theorem Dev.setCause_pav (d : Dev) (c e f v b : Nat) : (d.setCause c e f v b).pav = d.pav := setCause_only d c e f v b .pav (by decide)
@[simp] theorem Dev.setCause_otdr (d : Dev) (c e f v b : Nat) : (d.setCause c e f v b).otdr = d.otdr := setCause_only d c e f v b .otdr (by decide)
@[simp] theorem Dev.setCause_upd (d : Dev) (c e f v b : Nat) : (d.setCause c e f v b).upd = d.upd := setCause_only d c e f v b .upd (by decide)

theorem pavCauseSet_only (d : Dev) (b : Nat) : Only [.regs, .funcs, .out] d (d.pavCauseSet b) := setCause_only _ _ _ _ _ _
@[simp] theorem Dev.pavCauseSet_draws (d : Dev) (b : Nat) : (d.pavCauseSet b).draws = d.draws := pavCauseSet_only d b .draws (by decide)
@[simp] theorem Dev.pavCauseSet_boot (d : Dev) (b : Nat) : (d.pavCauseSet b).boot = d.boot := pavCauseSet_only d b .boot (by decide)
@[simp] theorem Dev.pavCauseSet_fuses (d : Dev) (b : Nat) : (d.pavCauseSet b).fuses = d.fuses := pavCauseSet_only d b .fuses (by decide)
@[simp] theorem Dev.pavCauseSet_image (d : Dev) (b : Nat) : (d.pavCauseSet b).image = d.image := pavCauseSet_only d b .image (by decide)
@[simp] theorem Dev.pavCauseSet_pins (d : Dev) (b : Nat) : (d.pavCauseSet b).pins = d.pins := pavCauseSet_only d b .pins (by decide)
@[simp] theorem Dev.pavCauseSet_time (d : Dev) (b : Nat) : (d.pavCauseSet b).time = d.time := pavCauseSet_only d b .time (by decide)
@[simp] theorem Dev.pavCauseSet_pcie (d : Dev) (b : Nat) : (d.pavCauseSet b).pcie = d.pcie := pavCauseSet_only d b .pcie (by decide)
@[simp] theorem Dev.pavCauseSet_ctrs (d : Dev) (b : Nat) : (d.pavCauseSet b).ctrs = d.ctrs := pavCauseSet_only d b .ctrs (by decide)
@[simp] theorem Dev.pavCauseSet_live (d : Dev) (b : Nat) : (d.pavCauseSet b).live = d.live := pavCauseSet_only d b .live (by decide)
@[simp] theorem Dev.pavCauseSet_due (d : Dev) (b : Nat) : (d.pavCauseSet b).due = d.due := pavCauseSet_only d b .due (by decide)
@[simp] theorem Dev.pavCauseSet_round (d : Dev) (b : Nat) : (d.pavCauseSet b).round = d.round := pavCauseSet_only d b .round (by decide)
@[simp] theorem Dev.pavCauseSet_daeLogged (d : Dev) (b : Nat) : (d.pavCauseSet b).daeLogged = d.daeLogged := pavCauseSet_only d b .daeLogged (by decide)
@[simp] theorem Dev.pavCauseSet_pon (d : Dev) (b : Nat) : (d.pavCauseSet b).pon = d.pon := pavCauseSet_only d b .pon (by decide)
@[simp] theorem Dev.pavCauseSet_data (d : Dev) (b : Nat) : (d.pavCauseSet b).data = d.data := pavCauseSet_only d b .data (by decide)
@[simp] theorem Dev.pavCauseSet_red (d : Dev) (b : Nat) : (d.pavCauseSet b).red = d.red := pavCauseSet_only d b .red (by decide)
@[simp] theorem Dev.pavCauseSet_mir (d : Dev) (b : Nat) : (d.pavCauseSet b).mir = d.mir := pavCauseSet_only d b .mir (by decide)
@[simp] theorem Dev.pavCauseSet_redch (d : Dev) (b : Nat) : (d.pavCauseSet b).redch = d.redch := pavCauseSet_only d b .redch (by decide)
@[simp] theorem Dev.pavCauseSet_meas (d : Dev) (b : Nat) : (d.pavCauseSet b).meas = d.meas := pavCauseSet_only d b .meas (by decide)
@[simp] theorem Dev.pavCauseSet_power (d : Dev) (b : Nat) : (d.pavCauseSet b).power = d.power := pavCauseSet_only d b .power (by decide)
@[simp] theorem Dev.pavCauseSet_pav (d : Dev) (b : Nat) : (d.pavCauseSet b).pav = d.pav := pavCauseSet_only d b .pav (by decide)
@[simp] theorem Dev.pavCauseSet_otdr (d : Dev) (b : Nat) : (d.pavCauseSet b).otdr = d.otdr := pavCauseSet_only d b .otdr (by decide)
@[simp] theorem Dev.pavCauseSet_upd (d : Dev) (b : Nat) : (d.pavCauseSet b).upd = d.upd := pavCauseSet_only d b .upd (by decide)

theorem thermCauseSet_only (d : Dev) (b : Nat) : Only [.regs, .funcs, .out] d (d.thermCauseSet b) := setCause_only _ _ _ _ _ _
@[simp] theorem Dev.thermCauseSet_draws (d : Dev) (b : Nat) : (d.thermCauseSet b).draws = d.draws := thermCauseSet_only d b .draws (by decide)
@[simp] theorem Dev.thermCauseSet_boot (d : Dev) (b : Nat) : (d.thermCauseSet b).boot = d.boot := thermCauseSet_only d b .boot (by decide)
@[simp] theorem Dev.thermCauseSet_fuses (d : Dev) (b : Nat) : (d.thermCauseSet b).fuses = d.fuses := thermCauseSet_only d b .fuses (by decide)
@[simp] theorem Dev.thermCauseSet_image (d : Dev) (b : Nat) : (d.thermCauseSet b).image = d.image := thermCauseSet_only d b .image (by decide)
@[simp] theorem Dev.thermCauseSet_pins (d : Dev) (b : Nat) : (d.thermCauseSet b).pins = d.pins := thermCauseSet_only d b .pins (by decide)
@[simp] theorem Dev.thermCauseSet_time (d : Dev) (b : Nat) : (d.thermCauseSet b).time = d.time := thermCauseSet_only d b .time (by decide)
@[simp] theorem Dev.thermCauseSet_pcie (d : Dev) (b : Nat) : (d.thermCauseSet b).pcie = d.pcie := thermCauseSet_only d b .pcie (by decide)
@[simp] theorem Dev.thermCauseSet_ctrs (d : Dev) (b : Nat) : (d.thermCauseSet b).ctrs = d.ctrs := thermCauseSet_only d b .ctrs (by decide)
@[simp] theorem Dev.thermCauseSet_live (d : Dev) (b : Nat) : (d.thermCauseSet b).live = d.live := thermCauseSet_only d b .live (by decide)
@[simp] theorem Dev.thermCauseSet_due (d : Dev) (b : Nat) : (d.thermCauseSet b).due = d.due := thermCauseSet_only d b .due (by decide)
@[simp] theorem Dev.thermCauseSet_round (d : Dev) (b : Nat) : (d.thermCauseSet b).round = d.round := thermCauseSet_only d b .round (by decide)
@[simp] theorem Dev.thermCauseSet_daeLogged (d : Dev) (b : Nat) : (d.thermCauseSet b).daeLogged = d.daeLogged := thermCauseSet_only d b .daeLogged (by decide)
@[simp] theorem Dev.thermCauseSet_pon (d : Dev) (b : Nat) : (d.thermCauseSet b).pon = d.pon := thermCauseSet_only d b .pon (by decide)
@[simp] theorem Dev.thermCauseSet_data (d : Dev) (b : Nat) : (d.thermCauseSet b).data = d.data := thermCauseSet_only d b .data (by decide)
@[simp] theorem Dev.thermCauseSet_red (d : Dev) (b : Nat) : (d.thermCauseSet b).red = d.red := thermCauseSet_only d b .red (by decide)
@[simp] theorem Dev.thermCauseSet_mir (d : Dev) (b : Nat) : (d.thermCauseSet b).mir = d.mir := thermCauseSet_only d b .mir (by decide)
@[simp] theorem Dev.thermCauseSet_redch (d : Dev) (b : Nat) : (d.thermCauseSet b).redch = d.redch := thermCauseSet_only d b .redch (by decide)
@[simp] theorem Dev.thermCauseSet_meas (d : Dev) (b : Nat) : (d.thermCauseSet b).meas = d.meas := thermCauseSet_only d b .meas (by decide)
@[simp] theorem Dev.thermCauseSet_power (d : Dev) (b : Nat) : (d.thermCauseSet b).power = d.power := thermCauseSet_only d b .power (by decide)
@[simp] theorem Dev.thermCauseSet_pav (d : Dev) (b : Nat) : (d.thermCauseSet b).pav = d.pav := thermCauseSet_only d b .pav (by decide)
@[simp] theorem Dev.thermCauseSet_otdr (d : Dev) (b : Nat) : (d.thermCauseSet b).otdr = d.otdr := thermCauseSet_only d b .otdr (by decide)
@[simp] theorem Dev.thermCauseSet_upd (d : Dev) (b : Nat) : (d.thermCauseSet b).upd = d.upd := thermCauseSet_only d b .upd (by decide)

theorem powerCauseSet_only (d : Dev) (b : Nat) : Only [.regs, .funcs, .out] d (d.powerCauseSet b) := setCause_only _ _ _ _ _ _
@[simp] theorem Dev.powerCauseSet_draws (d : Dev) (b : Nat) : (d.powerCauseSet b).draws = d.draws := powerCauseSet_only d b .draws (by decide)
@[simp] theorem Dev.powerCauseSet_boot (d : Dev) (b : Nat) : (d.powerCauseSet b).boot = d.boot := powerCauseSet_only d b .boot (by decide)
@[simp] theorem Dev.powerCauseSet_fuses (d : Dev) (b : Nat) : (d.powerCauseSet b).fuses = d.fuses := powerCauseSet_only d b .fuses (by decide)
@[simp] theorem Dev.powerCauseSet_image (d : Dev) (b : Nat) : (d.powerCauseSet b).image = d.image := powerCauseSet_only d b .image (by decide)
@[simp] theorem Dev.powerCauseSet_pins (d : Dev) (b : Nat) : (d.powerCauseSet b).pins = d.pins := powerCauseSet_only d b .pins (by decide)
@[simp] theorem Dev.powerCauseSet_time (d : Dev) (b : Nat) : (d.powerCauseSet b).time = d.time := powerCauseSet_only d b .time (by decide)
@[simp] theorem Dev.powerCauseSet_pcie (d : Dev) (b : Nat) : (d.powerCauseSet b).pcie = d.pcie := powerCauseSet_only d b .pcie (by decide)
@[simp] theorem Dev.powerCauseSet_ctrs (d : Dev) (b : Nat) : (d.powerCauseSet b).ctrs = d.ctrs := powerCauseSet_only d b .ctrs (by decide)
@[simp] theorem Dev.powerCauseSet_live (d : Dev) (b : Nat) : (d.powerCauseSet b).live = d.live := powerCauseSet_only d b .live (by decide)
@[simp] theorem Dev.powerCauseSet_due (d : Dev) (b : Nat) : (d.powerCauseSet b).due = d.due := powerCauseSet_only d b .due (by decide)
@[simp] theorem Dev.powerCauseSet_round (d : Dev) (b : Nat) : (d.powerCauseSet b).round = d.round := powerCauseSet_only d b .round (by decide)
@[simp] theorem Dev.powerCauseSet_daeLogged (d : Dev) (b : Nat) : (d.powerCauseSet b).daeLogged = d.daeLogged := powerCauseSet_only d b .daeLogged (by decide)
@[simp] theorem Dev.powerCauseSet_pon (d : Dev) (b : Nat) : (d.powerCauseSet b).pon = d.pon := powerCauseSet_only d b .pon (by decide)
@[simp] theorem Dev.powerCauseSet_data (d : Dev) (b : Nat) : (d.powerCauseSet b).data = d.data := powerCauseSet_only d b .data (by decide)
@[simp] theorem Dev.powerCauseSet_red (d : Dev) (b : Nat) : (d.powerCauseSet b).red = d.red := powerCauseSet_only d b .red (by decide)
@[simp] theorem Dev.powerCauseSet_mir (d : Dev) (b : Nat) : (d.powerCauseSet b).mir = d.mir := powerCauseSet_only d b .mir (by decide)
@[simp] theorem Dev.powerCauseSet_redch (d : Dev) (b : Nat) : (d.powerCauseSet b).redch = d.redch := powerCauseSet_only d b .redch (by decide)
@[simp] theorem Dev.powerCauseSet_meas (d : Dev) (b : Nat) : (d.powerCauseSet b).meas = d.meas := powerCauseSet_only d b .meas (by decide)
@[simp] theorem Dev.powerCauseSet_power (d : Dev) (b : Nat) : (d.powerCauseSet b).power = d.power := powerCauseSet_only d b .power (by decide)
@[simp] theorem Dev.powerCauseSet_pav (d : Dev) (b : Nat) : (d.powerCauseSet b).pav = d.pav := powerCauseSet_only d b .pav (by decide)
@[simp] theorem Dev.powerCauseSet_otdr (d : Dev) (b : Nat) : (d.powerCauseSet b).otdr = d.otdr := powerCauseSet_only d b .otdr (by decide)
@[simp] theorem Dev.powerCauseSet_upd (d : Dev) (b : Nat) : (d.powerCauseSet b).upd = d.upd := powerCauseSet_only d b .upd (by decide)

theorem redCauseSet_only (d : Dev) (b : Nat) : Only [.regs, .funcs, .out] d (d.redCauseSet b) := setCause_only _ _ _ _ _ _
@[simp] theorem Dev.redCauseSet_draws (d : Dev) (b : Nat) : (d.redCauseSet b).draws = d.draws := redCauseSet_only d b .draws (by decide)
@[simp] theorem Dev.redCauseSet_boot (d : Dev) (b : Nat) : (d.redCauseSet b).boot = d.boot := redCauseSet_only d b .boot (by decide)
@[simp] theorem Dev.redCauseSet_fuses (d : Dev) (b : Nat) : (d.redCauseSet b).fuses = d.fuses := redCauseSet_only d b .fuses (by decide)
@[simp] theorem Dev.redCauseSet_image (d : Dev) (b : Nat) : (d.redCauseSet b).image = d.image := redCauseSet_only d b .image (by decide)
@[simp] theorem Dev.redCauseSet_pins (d : Dev) (b : Nat) : (d.redCauseSet b).pins = d.pins := redCauseSet_only d b .pins (by decide)
@[simp] theorem Dev.redCauseSet_time (d : Dev) (b : Nat) : (d.redCauseSet b).time = d.time := redCauseSet_only d b .time (by decide)
@[simp] theorem Dev.redCauseSet_pcie (d : Dev) (b : Nat) : (d.redCauseSet b).pcie = d.pcie := redCauseSet_only d b .pcie (by decide)
@[simp] theorem Dev.redCauseSet_ctrs (d : Dev) (b : Nat) : (d.redCauseSet b).ctrs = d.ctrs := redCauseSet_only d b .ctrs (by decide)
@[simp] theorem Dev.redCauseSet_live (d : Dev) (b : Nat) : (d.redCauseSet b).live = d.live := redCauseSet_only d b .live (by decide)
@[simp] theorem Dev.redCauseSet_due (d : Dev) (b : Nat) : (d.redCauseSet b).due = d.due := redCauseSet_only d b .due (by decide)
@[simp] theorem Dev.redCauseSet_round (d : Dev) (b : Nat) : (d.redCauseSet b).round = d.round := redCauseSet_only d b .round (by decide)
@[simp] theorem Dev.redCauseSet_daeLogged (d : Dev) (b : Nat) : (d.redCauseSet b).daeLogged = d.daeLogged := redCauseSet_only d b .daeLogged (by decide)
@[simp] theorem Dev.redCauseSet_pon (d : Dev) (b : Nat) : (d.redCauseSet b).pon = d.pon := redCauseSet_only d b .pon (by decide)
@[simp] theorem Dev.redCauseSet_data (d : Dev) (b : Nat) : (d.redCauseSet b).data = d.data := redCauseSet_only d b .data (by decide)
@[simp] theorem Dev.redCauseSet_red (d : Dev) (b : Nat) : (d.redCauseSet b).red = d.red := redCauseSet_only d b .red (by decide)
@[simp] theorem Dev.redCauseSet_mir (d : Dev) (b : Nat) : (d.redCauseSet b).mir = d.mir := redCauseSet_only d b .mir (by decide)
@[simp] theorem Dev.redCauseSet_redch (d : Dev) (b : Nat) : (d.redCauseSet b).redch = d.redch := redCauseSet_only d b .redch (by decide)
@[simp] theorem Dev.redCauseSet_meas (d : Dev) (b : Nat) : (d.redCauseSet b).meas = d.meas := redCauseSet_only d b .meas (by decide)
@[simp] theorem Dev.redCauseSet_power (d : Dev) (b : Nat) : (d.redCauseSet b).power = d.power := redCauseSet_only d b .power (by decide)
@[simp] theorem Dev.redCauseSet_pav (d : Dev) (b : Nat) : (d.redCauseSet b).pav = d.pav := redCauseSet_only d b .pav (by decide)
@[simp] theorem Dev.redCauseSet_otdr (d : Dev) (b : Nat) : (d.redCauseSet b).otdr = d.otdr := redCauseSet_only d b .otdr (by decide)
@[simp] theorem Dev.redCauseSet_upd (d : Dev) (b : Nat) : (d.redCauseSet b).upd = d.upd := redCauseSet_only d b .upd (by decide)

theorem perfCauseSet_only (d : Dev) (b : Nat) : Only [.regs, .funcs, .out] d (d.perfCauseSet b) := setCause_only _ _ _ _ _ _
@[simp] theorem Dev.perfCauseSet_draws (d : Dev) (b : Nat) : (d.perfCauseSet b).draws = d.draws := perfCauseSet_only d b .draws (by decide)
@[simp] theorem Dev.perfCauseSet_boot (d : Dev) (b : Nat) : (d.perfCauseSet b).boot = d.boot := perfCauseSet_only d b .boot (by decide)
@[simp] theorem Dev.perfCauseSet_fuses (d : Dev) (b : Nat) : (d.perfCauseSet b).fuses = d.fuses := perfCauseSet_only d b .fuses (by decide)
@[simp] theorem Dev.perfCauseSet_image (d : Dev) (b : Nat) : (d.perfCauseSet b).image = d.image := perfCauseSet_only d b .image (by decide)
@[simp] theorem Dev.perfCauseSet_pins (d : Dev) (b : Nat) : (d.perfCauseSet b).pins = d.pins := perfCauseSet_only d b .pins (by decide)
@[simp] theorem Dev.perfCauseSet_time (d : Dev) (b : Nat) : (d.perfCauseSet b).time = d.time := perfCauseSet_only d b .time (by decide)
@[simp] theorem Dev.perfCauseSet_pcie (d : Dev) (b : Nat) : (d.perfCauseSet b).pcie = d.pcie := perfCauseSet_only d b .pcie (by decide)
@[simp] theorem Dev.perfCauseSet_ctrs (d : Dev) (b : Nat) : (d.perfCauseSet b).ctrs = d.ctrs := perfCauseSet_only d b .ctrs (by decide)
@[simp] theorem Dev.perfCauseSet_live (d : Dev) (b : Nat) : (d.perfCauseSet b).live = d.live := perfCauseSet_only d b .live (by decide)
@[simp] theorem Dev.perfCauseSet_due (d : Dev) (b : Nat) : (d.perfCauseSet b).due = d.due := perfCauseSet_only d b .due (by decide)
@[simp] theorem Dev.perfCauseSet_round (d : Dev) (b : Nat) : (d.perfCauseSet b).round = d.round := perfCauseSet_only d b .round (by decide)
@[simp] theorem Dev.perfCauseSet_daeLogged (d : Dev) (b : Nat) : (d.perfCauseSet b).daeLogged = d.daeLogged := perfCauseSet_only d b .daeLogged (by decide)
@[simp] theorem Dev.perfCauseSet_pon (d : Dev) (b : Nat) : (d.perfCauseSet b).pon = d.pon := perfCauseSet_only d b .pon (by decide)
@[simp] theorem Dev.perfCauseSet_data (d : Dev) (b : Nat) : (d.perfCauseSet b).data = d.data := perfCauseSet_only d b .data (by decide)
@[simp] theorem Dev.perfCauseSet_red (d : Dev) (b : Nat) : (d.perfCauseSet b).red = d.red := perfCauseSet_only d b .red (by decide)
@[simp] theorem Dev.perfCauseSet_mir (d : Dev) (b : Nat) : (d.perfCauseSet b).mir = d.mir := perfCauseSet_only d b .mir (by decide)
@[simp] theorem Dev.perfCauseSet_redch (d : Dev) (b : Nat) : (d.perfCauseSet b).redch = d.redch := perfCauseSet_only d b .redch (by decide)
@[simp] theorem Dev.perfCauseSet_meas (d : Dev) (b : Nat) : (d.perfCauseSet b).meas = d.meas := perfCauseSet_only d b .meas (by decide)
@[simp] theorem Dev.perfCauseSet_power (d : Dev) (b : Nat) : (d.perfCauseSet b).power = d.power := perfCauseSet_only d b .power (by decide)
@[simp] theorem Dev.perfCauseSet_pav (d : Dev) (b : Nat) : (d.perfCauseSet b).pav = d.pav := perfCauseSet_only d b .pav (by decide)
@[simp] theorem Dev.perfCauseSet_otdr (d : Dev) (b : Nat) : (d.perfCauseSet b).otdr = d.otdr := perfCauseSet_only d b .otdr (by decide)
@[simp] theorem Dev.perfCauseSet_upd (d : Dev) (b : Nat) : (d.perfCauseSet b).upd = d.upd := perfCauseSet_only d b .upd (by decide)

theorem bufCauseSet_only (d : Dev) (b : Nat) : Only [.regs, .funcs, .out] d (d.bufCauseSet b) := setCause_only _ _ _ _ _ _
@[simp] theorem Dev.bufCauseSet_draws (d : Dev) (b : Nat) : (d.bufCauseSet b).draws = d.draws := bufCauseSet_only d b .draws (by decide)
@[simp] theorem Dev.bufCauseSet_boot (d : Dev) (b : Nat) : (d.bufCauseSet b).boot = d.boot := bufCauseSet_only d b .boot (by decide)
@[simp] theorem Dev.bufCauseSet_fuses (d : Dev) (b : Nat) : (d.bufCauseSet b).fuses = d.fuses := bufCauseSet_only d b .fuses (by decide)
@[simp] theorem Dev.bufCauseSet_image (d : Dev) (b : Nat) : (d.bufCauseSet b).image = d.image := bufCauseSet_only d b .image (by decide)
@[simp] theorem Dev.bufCauseSet_pins (d : Dev) (b : Nat) : (d.bufCauseSet b).pins = d.pins := bufCauseSet_only d b .pins (by decide)
@[simp] theorem Dev.bufCauseSet_time (d : Dev) (b : Nat) : (d.bufCauseSet b).time = d.time := bufCauseSet_only d b .time (by decide)
@[simp] theorem Dev.bufCauseSet_pcie (d : Dev) (b : Nat) : (d.bufCauseSet b).pcie = d.pcie := bufCauseSet_only d b .pcie (by decide)
@[simp] theorem Dev.bufCauseSet_ctrs (d : Dev) (b : Nat) : (d.bufCauseSet b).ctrs = d.ctrs := bufCauseSet_only d b .ctrs (by decide)
@[simp] theorem Dev.bufCauseSet_live (d : Dev) (b : Nat) : (d.bufCauseSet b).live = d.live := bufCauseSet_only d b .live (by decide)
@[simp] theorem Dev.bufCauseSet_due (d : Dev) (b : Nat) : (d.bufCauseSet b).due = d.due := bufCauseSet_only d b .due (by decide)
@[simp] theorem Dev.bufCauseSet_round (d : Dev) (b : Nat) : (d.bufCauseSet b).round = d.round := bufCauseSet_only d b .round (by decide)
@[simp] theorem Dev.bufCauseSet_daeLogged (d : Dev) (b : Nat) : (d.bufCauseSet b).daeLogged = d.daeLogged := bufCauseSet_only d b .daeLogged (by decide)
@[simp] theorem Dev.bufCauseSet_pon (d : Dev) (b : Nat) : (d.bufCauseSet b).pon = d.pon := bufCauseSet_only d b .pon (by decide)
@[simp] theorem Dev.bufCauseSet_data (d : Dev) (b : Nat) : (d.bufCauseSet b).data = d.data := bufCauseSet_only d b .data (by decide)
@[simp] theorem Dev.bufCauseSet_red (d : Dev) (b : Nat) : (d.bufCauseSet b).red = d.red := bufCauseSet_only d b .red (by decide)
@[simp] theorem Dev.bufCauseSet_mir (d : Dev) (b : Nat) : (d.bufCauseSet b).mir = d.mir := bufCauseSet_only d b .mir (by decide)
@[simp] theorem Dev.bufCauseSet_redch (d : Dev) (b : Nat) : (d.bufCauseSet b).redch = d.redch := bufCauseSet_only d b .redch (by decide)
@[simp] theorem Dev.bufCauseSet_meas (d : Dev) (b : Nat) : (d.bufCauseSet b).meas = d.meas := bufCauseSet_only d b .meas (by decide)
@[simp] theorem Dev.bufCauseSet_power (d : Dev) (b : Nat) : (d.bufCauseSet b).power = d.power := bufCauseSet_only d b .power (by decide)
@[simp] theorem Dev.bufCauseSet_pav (d : Dev) (b : Nat) : (d.bufCauseSet b).pav = d.pav := bufCauseSet_only d b .pav (by decide)
@[simp] theorem Dev.bufCauseSet_otdr (d : Dev) (b : Nat) : (d.bufCauseSet b).otdr = d.otdr := bufCauseSet_only d b .otdr (by decide)
@[simp] theorem Dev.bufCauseSet_upd (d : Dev) (b : Nat) : (d.bufCauseSet b).upd = d.upd := bufCauseSet_only d b .upd (by decide)

theorem uplCauseSet_only (d : Dev) (p b : Nat) : Only [.regs, .funcs, .out] d (d.uplCauseSet p b) := setCause_only _ _ _ _ _ _
@[simp] theorem Dev.uplCauseSet_draws (d : Dev) (p b : Nat) : (d.uplCauseSet p b).draws = d.draws := uplCauseSet_only d p b .draws (by decide)
@[simp] theorem Dev.uplCauseSet_boot (d : Dev) (p b : Nat) : (d.uplCauseSet p b).boot = d.boot := uplCauseSet_only d p b .boot (by decide)
@[simp] theorem Dev.uplCauseSet_fuses (d : Dev) (p b : Nat) : (d.uplCauseSet p b).fuses = d.fuses := uplCauseSet_only d p b .fuses (by decide)
@[simp] theorem Dev.uplCauseSet_image (d : Dev) (p b : Nat) : (d.uplCauseSet p b).image = d.image := uplCauseSet_only d p b .image (by decide)
@[simp] theorem Dev.uplCauseSet_pins (d : Dev) (p b : Nat) : (d.uplCauseSet p b).pins = d.pins := uplCauseSet_only d p b .pins (by decide)
@[simp] theorem Dev.uplCauseSet_time (d : Dev) (p b : Nat) : (d.uplCauseSet p b).time = d.time := uplCauseSet_only d p b .time (by decide)
@[simp] theorem Dev.uplCauseSet_pcie (d : Dev) (p b : Nat) : (d.uplCauseSet p b).pcie = d.pcie := uplCauseSet_only d p b .pcie (by decide)
@[simp] theorem Dev.uplCauseSet_ctrs (d : Dev) (p b : Nat) : (d.uplCauseSet p b).ctrs = d.ctrs := uplCauseSet_only d p b .ctrs (by decide)
@[simp] theorem Dev.uplCauseSet_live (d : Dev) (p b : Nat) : (d.uplCauseSet p b).live = d.live := uplCauseSet_only d p b .live (by decide)
@[simp] theorem Dev.uplCauseSet_due (d : Dev) (p b : Nat) : (d.uplCauseSet p b).due = d.due := uplCauseSet_only d p b .due (by decide)
@[simp] theorem Dev.uplCauseSet_round (d : Dev) (p b : Nat) : (d.uplCauseSet p b).round = d.round := uplCauseSet_only d p b .round (by decide)
@[simp] theorem Dev.uplCauseSet_daeLogged (d : Dev) (p b : Nat) : (d.uplCauseSet p b).daeLogged = d.daeLogged := uplCauseSet_only d p b .daeLogged (by decide)
@[simp] theorem Dev.uplCauseSet_pon (d : Dev) (p b : Nat) : (d.uplCauseSet p b).pon = d.pon := uplCauseSet_only d p b .pon (by decide)
@[simp] theorem Dev.uplCauseSet_data (d : Dev) (p b : Nat) : (d.uplCauseSet p b).data = d.data := uplCauseSet_only d p b .data (by decide)
@[simp] theorem Dev.uplCauseSet_red (d : Dev) (p b : Nat) : (d.uplCauseSet p b).red = d.red := uplCauseSet_only d p b .red (by decide)
@[simp] theorem Dev.uplCauseSet_mir (d : Dev) (p b : Nat) : (d.uplCauseSet p b).mir = d.mir := uplCauseSet_only d p b .mir (by decide)
@[simp] theorem Dev.uplCauseSet_redch (d : Dev) (p b : Nat) : (d.uplCauseSet p b).redch = d.redch := uplCauseSet_only d p b .redch (by decide)
@[simp] theorem Dev.uplCauseSet_meas (d : Dev) (p b : Nat) : (d.uplCauseSet p b).meas = d.meas := uplCauseSet_only d p b .meas (by decide)
@[simp] theorem Dev.uplCauseSet_power (d : Dev) (p b : Nat) : (d.uplCauseSet p b).power = d.power := uplCauseSet_only d p b .power (by decide)
@[simp] theorem Dev.uplCauseSet_pav (d : Dev) (p b : Nat) : (d.uplCauseSet p b).pav = d.pav := uplCauseSet_only d p b .pav (by decide)
@[simp] theorem Dev.uplCauseSet_otdr (d : Dev) (p b : Nat) : (d.uplCauseSet p b).otdr = d.otdr := uplCauseSet_only d p b .otdr (by decide)
@[simp] theorem Dev.uplCauseSet_upd (d : Dev) (p b : Nat) : (d.uplCauseSet p b).upd = d.upd := uplCauseSet_only d p b .upd (by decide)

theorem dmaCauseSet_only (d : Dev) (n b : Nat) : Only [.regs, .funcs, .out] d (d.dmaCauseSet n b) := setCause_only _ _ _ _ _ _
@[simp] theorem Dev.dmaCauseSet_draws (d : Dev) (n b : Nat) : (d.dmaCauseSet n b).draws = d.draws := dmaCauseSet_only d n b .draws (by decide)
@[simp] theorem Dev.dmaCauseSet_boot (d : Dev) (n b : Nat) : (d.dmaCauseSet n b).boot = d.boot := dmaCauseSet_only d n b .boot (by decide)
@[simp] theorem Dev.dmaCauseSet_fuses (d : Dev) (n b : Nat) : (d.dmaCauseSet n b).fuses = d.fuses := dmaCauseSet_only d n b .fuses (by decide)
@[simp] theorem Dev.dmaCauseSet_image (d : Dev) (n b : Nat) : (d.dmaCauseSet n b).image = d.image := dmaCauseSet_only d n b .image (by decide)
@[simp] theorem Dev.dmaCauseSet_pins (d : Dev) (n b : Nat) : (d.dmaCauseSet n b).pins = d.pins := dmaCauseSet_only d n b .pins (by decide)
@[simp] theorem Dev.dmaCauseSet_time (d : Dev) (n b : Nat) : (d.dmaCauseSet n b).time = d.time := dmaCauseSet_only d n b .time (by decide)
@[simp] theorem Dev.dmaCauseSet_pcie (d : Dev) (n b : Nat) : (d.dmaCauseSet n b).pcie = d.pcie := dmaCauseSet_only d n b .pcie (by decide)
@[simp] theorem Dev.dmaCauseSet_ctrs (d : Dev) (n b : Nat) : (d.dmaCauseSet n b).ctrs = d.ctrs := dmaCauseSet_only d n b .ctrs (by decide)
@[simp] theorem Dev.dmaCauseSet_live (d : Dev) (n b : Nat) : (d.dmaCauseSet n b).live = d.live := dmaCauseSet_only d n b .live (by decide)
@[simp] theorem Dev.dmaCauseSet_due (d : Dev) (n b : Nat) : (d.dmaCauseSet n b).due = d.due := dmaCauseSet_only d n b .due (by decide)
@[simp] theorem Dev.dmaCauseSet_round (d : Dev) (n b : Nat) : (d.dmaCauseSet n b).round = d.round := dmaCauseSet_only d n b .round (by decide)
@[simp] theorem Dev.dmaCauseSet_daeLogged (d : Dev) (n b : Nat) : (d.dmaCauseSet n b).daeLogged = d.daeLogged := dmaCauseSet_only d n b .daeLogged (by decide)
@[simp] theorem Dev.dmaCauseSet_pon (d : Dev) (n b : Nat) : (d.dmaCauseSet n b).pon = d.pon := dmaCauseSet_only d n b .pon (by decide)
@[simp] theorem Dev.dmaCauseSet_data (d : Dev) (n b : Nat) : (d.dmaCauseSet n b).data = d.data := dmaCauseSet_only d n b .data (by decide)
@[simp] theorem Dev.dmaCauseSet_red (d : Dev) (n b : Nat) : (d.dmaCauseSet n b).red = d.red := dmaCauseSet_only d n b .red (by decide)
@[simp] theorem Dev.dmaCauseSet_mir (d : Dev) (n b : Nat) : (d.dmaCauseSet n b).mir = d.mir := dmaCauseSet_only d n b .mir (by decide)
@[simp] theorem Dev.dmaCauseSet_redch (d : Dev) (n b : Nat) : (d.dmaCauseSet n b).redch = d.redch := dmaCauseSet_only d n b .redch (by decide)
@[simp] theorem Dev.dmaCauseSet_meas (d : Dev) (n b : Nat) : (d.dmaCauseSet n b).meas = d.meas := dmaCauseSet_only d n b .meas (by decide)
@[simp] theorem Dev.dmaCauseSet_power (d : Dev) (n b : Nat) : (d.dmaCauseSet n b).power = d.power := dmaCauseSet_only d n b .power (by decide)
@[simp] theorem Dev.dmaCauseSet_pav (d : Dev) (n b : Nat) : (d.dmaCauseSet n b).pav = d.pav := dmaCauseSet_only d n b .pav (by decide)
@[simp] theorem Dev.dmaCauseSet_otdr (d : Dev) (n b : Nat) : (d.dmaCauseSet n b).otdr = d.otdr := dmaCauseSet_only d n b .otdr (by decide)
@[simp] theorem Dev.dmaCauseSet_upd (d : Dev) (n b : Nat) : (d.dmaCauseSet n b).upd = d.upd := dmaCauseSet_only d n b .upd (by decide)

theorem resignal_only (d : Dev) (c l f v : Nat) : Only [.funcs, .out] d (d.resignal c l f v) := by
  unfold Dev.resignal
  exact Only.ite (raise_only _ _ _) (Only.refl _ _)
@[simp] theorem Dev.resignal_draws (d : Dev) (c l f v : Nat) : (d.resignal c l f v).draws = d.draws := resignal_only d c l f v .draws (by decide)
@[simp] theorem Dev.resignal_boot (d : Dev) (c l f v : Nat) : (d.resignal c l f v).boot = d.boot := resignal_only d c l f v .boot (by decide)
@[simp] theorem Dev.resignal_fuses (d : Dev) (c l f v : Nat) : (d.resignal c l f v).fuses = d.fuses := resignal_only d c l f v .fuses (by decide)
@[simp] theorem Dev.resignal_image (d : Dev) (c l f v : Nat) : (d.resignal c l f v).image = d.image := resignal_only d c l f v .image (by decide)
@[simp] theorem Dev.resignal_pins (d : Dev) (c l f v : Nat) : (d.resignal c l f v).pins = d.pins := resignal_only d c l f v .pins (by decide)
@[simp] theorem Dev.resignal_time (d : Dev) (c l f v : Nat) : (d.resignal c l f v).time = d.time := resignal_only d c l f v .time (by decide)
@[simp] theorem Dev.resignal_pcie (d : Dev) (c l f v : Nat) : (d.resignal c l f v).pcie = d.pcie := resignal_only d c l f v .pcie (by decide)
@[simp] theorem Dev.resignal_regs (d : Dev) (c l f v : Nat) : (d.resignal c l f v).regs = d.regs := resignal_only d c l f v .regs (by decide)
@[simp] theorem Dev.resignal_ctrs (d : Dev) (c l f v : Nat) : (d.resignal c l f v).ctrs = d.ctrs := resignal_only d c l f v .ctrs (by decide)
@[simp] theorem Dev.resignal_live (d : Dev) (c l f v : Nat) : (d.resignal c l f v).live = d.live := resignal_only d c l f v .live (by decide)
@[simp] theorem Dev.resignal_due (d : Dev) (c l f v : Nat) : (d.resignal c l f v).due = d.due := resignal_only d c l f v .due (by decide)
@[simp] theorem Dev.resignal_round (d : Dev) (c l f v : Nat) : (d.resignal c l f v).round = d.round := resignal_only d c l f v .round (by decide)
@[simp] theorem Dev.resignal_daeLogged (d : Dev) (c l f v : Nat) : (d.resignal c l f v).daeLogged = d.daeLogged := resignal_only d c l f v .daeLogged (by decide)
@[simp] theorem Dev.resignal_pon (d : Dev) (c l f v : Nat) : (d.resignal c l f v).pon = d.pon := resignal_only d c l f v .pon (by decide)
@[simp] theorem Dev.resignal_data (d : Dev) (c l f v : Nat) : (d.resignal c l f v).data = d.data := resignal_only d c l f v .data (by decide)
@[simp] theorem Dev.resignal_red (d : Dev) (c l f v : Nat) : (d.resignal c l f v).red = d.red := resignal_only d c l f v .red (by decide)
@[simp] theorem Dev.resignal_mir (d : Dev) (c l f v : Nat) : (d.resignal c l f v).mir = d.mir := resignal_only d c l f v .mir (by decide)
@[simp] theorem Dev.resignal_redch (d : Dev) (c l f v : Nat) : (d.resignal c l f v).redch = d.redch := resignal_only d c l f v .redch (by decide)
@[simp] theorem Dev.resignal_meas (d : Dev) (c l f v : Nat) : (d.resignal c l f v).meas = d.meas := resignal_only d c l f v .meas (by decide)
@[simp] theorem Dev.resignal_power (d : Dev) (c l f v : Nat) : (d.resignal c l f v).power = d.power := resignal_only d c l f v .power (by decide)
@[simp] theorem Dev.resignal_pav (d : Dev) (c l f v : Nat) : (d.resignal c l f v).pav = d.pav := resignal_only d c l f v .pav (by decide)
@[simp] theorem Dev.resignal_otdr (d : Dev) (c l f v : Nat) : (d.resignal c l f v).otdr = d.otdr := resignal_only d c l f v .otdr (by decide)
@[simp] theorem Dev.resignal_upd (d : Dev) (c l f v : Nat) : (d.resignal c l f v).upd = d.upd := resignal_only d c l f v .upd (by decide)

theorem kioskCause_only (d : Dev) (f b : Nat) : Only [.funcs, .out] d (d.kioskCause f b) := by
  unfold Dev.kioskCause
  refine Only.ite (Only.trans ?_ (raise_only _ _ _)) ?_ <;>
    exact Only.ite ((onKiosk_only _ _ _).to.trans (raise_only _ _ _)) (onKiosk_only _ _ _).to
@[simp] theorem Dev.kioskCause_draws (d : Dev) (f b : Nat) : (d.kioskCause f b).draws = d.draws := kioskCause_only d f b .draws (by decide)
@[simp] theorem Dev.kioskCause_boot (d : Dev) (f b : Nat) : (d.kioskCause f b).boot = d.boot := kioskCause_only d f b .boot (by decide)
@[simp] theorem Dev.kioskCause_fuses (d : Dev) (f b : Nat) : (d.kioskCause f b).fuses = d.fuses := kioskCause_only d f b .fuses (by decide)
@[simp] theorem Dev.kioskCause_image (d : Dev) (f b : Nat) : (d.kioskCause f b).image = d.image := kioskCause_only d f b .image (by decide)
@[simp] theorem Dev.kioskCause_pins (d : Dev) (f b : Nat) : (d.kioskCause f b).pins = d.pins := kioskCause_only d f b .pins (by decide)
@[simp] theorem Dev.kioskCause_time (d : Dev) (f b : Nat) : (d.kioskCause f b).time = d.time := kioskCause_only d f b .time (by decide)
@[simp] theorem Dev.kioskCause_pcie (d : Dev) (f b : Nat) : (d.kioskCause f b).pcie = d.pcie := kioskCause_only d f b .pcie (by decide)
@[simp] theorem Dev.kioskCause_regs (d : Dev) (f b : Nat) : (d.kioskCause f b).regs = d.regs := kioskCause_only d f b .regs (by decide)
@[simp] theorem Dev.kioskCause_ctrs (d : Dev) (f b : Nat) : (d.kioskCause f b).ctrs = d.ctrs := kioskCause_only d f b .ctrs (by decide)
@[simp] theorem Dev.kioskCause_live (d : Dev) (f b : Nat) : (d.kioskCause f b).live = d.live := kioskCause_only d f b .live (by decide)
@[simp] theorem Dev.kioskCause_due (d : Dev) (f b : Nat) : (d.kioskCause f b).due = d.due := kioskCause_only d f b .due (by decide)
@[simp] theorem Dev.kioskCause_round (d : Dev) (f b : Nat) : (d.kioskCause f b).round = d.round := kioskCause_only d f b .round (by decide)
@[simp] theorem Dev.kioskCause_daeLogged (d : Dev) (f b : Nat) : (d.kioskCause f b).daeLogged = d.daeLogged := kioskCause_only d f b .daeLogged (by decide)
@[simp] theorem Dev.kioskCause_pon (d : Dev) (f b : Nat) : (d.kioskCause f b).pon = d.pon := kioskCause_only d f b .pon (by decide)
@[simp] theorem Dev.kioskCause_data (d : Dev) (f b : Nat) : (d.kioskCause f b).data = d.data := kioskCause_only d f b .data (by decide)
@[simp] theorem Dev.kioskCause_red (d : Dev) (f b : Nat) : (d.kioskCause f b).red = d.red := kioskCause_only d f b .red (by decide)
@[simp] theorem Dev.kioskCause_mir (d : Dev) (f b : Nat) : (d.kioskCause f b).mir = d.mir := kioskCause_only d f b .mir (by decide)
@[simp] theorem Dev.kioskCause_redch (d : Dev) (f b : Nat) : (d.kioskCause f b).redch = d.redch := kioskCause_only d f b .redch (by decide)
@[simp] theorem Dev.kioskCause_meas (d : Dev) (f b : Nat) : (d.kioskCause f b).meas = d.meas := kioskCause_only d f b .meas (by decide)
@[simp] theorem Dev.kioskCause_power (d : Dev) (f b : Nat) : (d.kioskCause f b).power = d.power := kioskCause_only d f b .power (by decide)
@[simp] theorem Dev.kioskCause_pav (d : Dev) (f b : Nat) : (d.kioskCause f b).pav = d.pav := kioskCause_only d f b .pav (by decide)
@[simp] theorem Dev.kioskCause_otdr (d : Dev) (f b : Nat) : (d.kioskCause f b).otdr = d.otdr := kioskCause_only d f b .otdr (by decide)
@[simp] theorem Dev.kioskCause_upd (d : Dev) (f b : Nat) : (d.kioskCause f b).upd = d.upd := kioskCause_only d f b .upd (by decide)

theorem publish_only (d : Dev) (f ver fl op : Nat) (q : W32) (st dt : Nat) (b : Bytes) : Only [.funcs, .out] d (d.publish f ver fl op q st dt b) := by
  unfold Dev.publish
  exact (onKiosk_only _ _ _).to.trans (kioskCause_only _ _ _)
@[simp] theorem Dev.publish_draws (d : Dev) (f ver fl op : Nat) (q : W32) (st dt : Nat) (b : Bytes) : (d.publish f ver fl op q st dt b).draws = d.draws := publish_only d f ver fl op q st dt b .draws (by decide)
@[simp] theorem Dev.publish_boot (d : Dev) (f ver fl op : Nat) (q : W32) (st dt : Nat) (b : Bytes) : (d.publish f ver fl op q st dt b).boot = d.boot := publish_only d f ver fl op q st dt b .boot (by decide)
@[simp] theorem Dev.publish_fuses (d : Dev) (f ver fl op : Nat) (q : W32) (st dt : Nat) (b : Bytes) : (d.publish f ver fl op q st dt b).fuses = d.fuses := publish_only d f ver fl op q st dt b .fuses (by decide)
@[simp] theorem Dev.publish_image (d : Dev) (f ver fl op : Nat) (q : W32) (st dt : Nat) (b : Bytes) : (d.publish f ver fl op q st dt b).image = d.image := publish_only d f ver fl op q st dt b .image (by decide)
@[simp] theorem Dev.publish_pins (d : Dev) (f ver fl op : Nat) (q : W32) (st dt : Nat) (b : Bytes) : (d.publish f ver fl op q st dt b).pins = d.pins := publish_only d f ver fl op q st dt b .pins (by decide)
@[simp] theorem Dev.publish_time (d : Dev) (f ver fl op : Nat) (q : W32) (st dt : Nat) (b : Bytes) : (d.publish f ver fl op q st dt b).time = d.time := publish_only d f ver fl op q st dt b .time (by decide)
@[simp] theorem Dev.publish_pcie (d : Dev) (f ver fl op : Nat) (q : W32) (st dt : Nat) (b : Bytes) : (d.publish f ver fl op q st dt b).pcie = d.pcie := publish_only d f ver fl op q st dt b .pcie (by decide)
@[simp] theorem Dev.publish_regs (d : Dev) (f ver fl op : Nat) (q : W32) (st dt : Nat) (b : Bytes) : (d.publish f ver fl op q st dt b).regs = d.regs := publish_only d f ver fl op q st dt b .regs (by decide)
@[simp] theorem Dev.publish_ctrs (d : Dev) (f ver fl op : Nat) (q : W32) (st dt : Nat) (b : Bytes) : (d.publish f ver fl op q st dt b).ctrs = d.ctrs := publish_only d f ver fl op q st dt b .ctrs (by decide)
@[simp] theorem Dev.publish_live (d : Dev) (f ver fl op : Nat) (q : W32) (st dt : Nat) (b : Bytes) : (d.publish f ver fl op q st dt b).live = d.live := publish_only d f ver fl op q st dt b .live (by decide)
@[simp] theorem Dev.publish_due (d : Dev) (f ver fl op : Nat) (q : W32) (st dt : Nat) (b : Bytes) : (d.publish f ver fl op q st dt b).due = d.due := publish_only d f ver fl op q st dt b .due (by decide)
@[simp] theorem Dev.publish_round (d : Dev) (f ver fl op : Nat) (q : W32) (st dt : Nat) (b : Bytes) : (d.publish f ver fl op q st dt b).round = d.round := publish_only d f ver fl op q st dt b .round (by decide)
@[simp] theorem Dev.publish_daeLogged (d : Dev) (f ver fl op : Nat) (q : W32) (st dt : Nat) (b : Bytes) : (d.publish f ver fl op q st dt b).daeLogged = d.daeLogged := publish_only d f ver fl op q st dt b .daeLogged (by decide)
@[simp] theorem Dev.publish_pon (d : Dev) (f ver fl op : Nat) (q : W32) (st dt : Nat) (b : Bytes) : (d.publish f ver fl op q st dt b).pon = d.pon := publish_only d f ver fl op q st dt b .pon (by decide)
@[simp] theorem Dev.publish_data (d : Dev) (f ver fl op : Nat) (q : W32) (st dt : Nat) (b : Bytes) : (d.publish f ver fl op q st dt b).data = d.data := publish_only d f ver fl op q st dt b .data (by decide)
@[simp] theorem Dev.publish_red (d : Dev) (f ver fl op : Nat) (q : W32) (st dt : Nat) (b : Bytes) : (d.publish f ver fl op q st dt b).red = d.red := publish_only d f ver fl op q st dt b .red (by decide)
@[simp] theorem Dev.publish_mir (d : Dev) (f ver fl op : Nat) (q : W32) (st dt : Nat) (b : Bytes) : (d.publish f ver fl op q st dt b).mir = d.mir := publish_only d f ver fl op q st dt b .mir (by decide)
@[simp] theorem Dev.publish_redch (d : Dev) (f ver fl op : Nat) (q : W32) (st dt : Nat) (b : Bytes) : (d.publish f ver fl op q st dt b).redch = d.redch := publish_only d f ver fl op q st dt b .redch (by decide)
@[simp] theorem Dev.publish_meas (d : Dev) (f ver fl op : Nat) (q : W32) (st dt : Nat) (b : Bytes) : (d.publish f ver fl op q st dt b).meas = d.meas := publish_only d f ver fl op q st dt b .meas (by decide)
@[simp] theorem Dev.publish_power (d : Dev) (f ver fl op : Nat) (q : W32) (st dt : Nat) (b : Bytes) : (d.publish f ver fl op q st dt b).power = d.power := publish_only d f ver fl op q st dt b .power (by decide)
@[simp] theorem Dev.publish_pav (d : Dev) (f ver fl op : Nat) (q : W32) (st dt : Nat) (b : Bytes) : (d.publish f ver fl op q st dt b).pav = d.pav := publish_only d f ver fl op q st dt b .pav (by decide)
@[simp] theorem Dev.publish_otdr (d : Dev) (f ver fl op : Nat) (q : W32) (st dt : Nat) (b : Bytes) : (d.publish f ver fl op q st dt b).otdr = d.otdr := publish_only d f ver fl op q st dt b .otdr (by decide)
@[simp] theorem Dev.publish_upd (d : Dev) (f ver fl op : Nat) (q : W32) (st dt : Nat) (b : Bytes) : (d.publish f ver fl op q st dt b).upd = d.upd := publish_only d f ver fl op q st dt b .upd (by decide)

theorem respond_only (d : Dev) (f op : Nat) (q : W32) (st dt : Nat) (b : Bytes) : Only [.funcs, .out] d (d.respond f op q st dt b) := by
  unfold Dev.respond
  refine Only.ite (Only.refl _ _) (Only.ite (onKiosk_only _ _ _).to ?_)
  exact ((onKiosk_only _ _ _).to.trans (publish_only _ _ _ _ _ _ _ _ _)).trans (emit_only _ _).to
@[simp] theorem Dev.respond_draws (d : Dev) (f op : Nat) (q : W32) (st dt : Nat) (b : Bytes) : (d.respond f op q st dt b).draws = d.draws := respond_only d f op q st dt b .draws (by decide)
@[simp] theorem Dev.respond_boot (d : Dev) (f op : Nat) (q : W32) (st dt : Nat) (b : Bytes) : (d.respond f op q st dt b).boot = d.boot := respond_only d f op q st dt b .boot (by decide)
@[simp] theorem Dev.respond_fuses (d : Dev) (f op : Nat) (q : W32) (st dt : Nat) (b : Bytes) : (d.respond f op q st dt b).fuses = d.fuses := respond_only d f op q st dt b .fuses (by decide)
@[simp] theorem Dev.respond_image (d : Dev) (f op : Nat) (q : W32) (st dt : Nat) (b : Bytes) : (d.respond f op q st dt b).image = d.image := respond_only d f op q st dt b .image (by decide)
@[simp] theorem Dev.respond_pins (d : Dev) (f op : Nat) (q : W32) (st dt : Nat) (b : Bytes) : (d.respond f op q st dt b).pins = d.pins := respond_only d f op q st dt b .pins (by decide)
@[simp] theorem Dev.respond_time (d : Dev) (f op : Nat) (q : W32) (st dt : Nat) (b : Bytes) : (d.respond f op q st dt b).time = d.time := respond_only d f op q st dt b .time (by decide)
@[simp] theorem Dev.respond_pcie (d : Dev) (f op : Nat) (q : W32) (st dt : Nat) (b : Bytes) : (d.respond f op q st dt b).pcie = d.pcie := respond_only d f op q st dt b .pcie (by decide)
@[simp] theorem Dev.respond_regs (d : Dev) (f op : Nat) (q : W32) (st dt : Nat) (b : Bytes) : (d.respond f op q st dt b).regs = d.regs := respond_only d f op q st dt b .regs (by decide)
@[simp] theorem Dev.respond_ctrs (d : Dev) (f op : Nat) (q : W32) (st dt : Nat) (b : Bytes) : (d.respond f op q st dt b).ctrs = d.ctrs := respond_only d f op q st dt b .ctrs (by decide)
@[simp] theorem Dev.respond_live (d : Dev) (f op : Nat) (q : W32) (st dt : Nat) (b : Bytes) : (d.respond f op q st dt b).live = d.live := respond_only d f op q st dt b .live (by decide)
@[simp] theorem Dev.respond_due (d : Dev) (f op : Nat) (q : W32) (st dt : Nat) (b : Bytes) : (d.respond f op q st dt b).due = d.due := respond_only d f op q st dt b .due (by decide)
@[simp] theorem Dev.respond_round (d : Dev) (f op : Nat) (q : W32) (st dt : Nat) (b : Bytes) : (d.respond f op q st dt b).round = d.round := respond_only d f op q st dt b .round (by decide)
@[simp] theorem Dev.respond_daeLogged (d : Dev) (f op : Nat) (q : W32) (st dt : Nat) (b : Bytes) : (d.respond f op q st dt b).daeLogged = d.daeLogged := respond_only d f op q st dt b .daeLogged (by decide)
@[simp] theorem Dev.respond_pon (d : Dev) (f op : Nat) (q : W32) (st dt : Nat) (b : Bytes) : (d.respond f op q st dt b).pon = d.pon := respond_only d f op q st dt b .pon (by decide)
@[simp] theorem Dev.respond_data (d : Dev) (f op : Nat) (q : W32) (st dt : Nat) (b : Bytes) : (d.respond f op q st dt b).data = d.data := respond_only d f op q st dt b .data (by decide)
@[simp] theorem Dev.respond_red (d : Dev) (f op : Nat) (q : W32) (st dt : Nat) (b : Bytes) : (d.respond f op q st dt b).red = d.red := respond_only d f op q st dt b .red (by decide)
@[simp] theorem Dev.respond_mir (d : Dev) (f op : Nat) (q : W32) (st dt : Nat) (b : Bytes) : (d.respond f op q st dt b).mir = d.mir := respond_only d f op q st dt b .mir (by decide)
@[simp] theorem Dev.respond_redch (d : Dev) (f op : Nat) (q : W32) (st dt : Nat) (b : Bytes) : (d.respond f op q st dt b).redch = d.redch := respond_only d f op q st dt b .redch (by decide)
@[simp] theorem Dev.respond_meas (d : Dev) (f op : Nat) (q : W32) (st dt : Nat) (b : Bytes) : (d.respond f op q st dt b).meas = d.meas := respond_only d f op q st dt b .meas (by decide)
@[simp] theorem Dev.respond_power (d : Dev) (f op : Nat) (q : W32) (st dt : Nat) (b : Bytes) : (d.respond f op q st dt b).power = d.power := respond_only d f op q st dt b .power (by decide)
@[simp] theorem Dev.respond_pav (d : Dev) (f op : Nat) (q : W32) (st dt : Nat) (b : Bytes) : (d.respond f op q st dt b).pav = d.pav := respond_only d f op q st dt b .pav (by decide)
@[simp] theorem Dev.respond_otdr (d : Dev) (f op : Nat) (q : W32) (st dt : Nat) (b : Bytes) : (d.respond f op q st dt b).otdr = d.otdr := respond_only d f op q st dt b .otdr (by decide)
@[simp] theorem Dev.respond_upd (d : Dev) (f op : Nat) (q : W32) (st dt : Nat) (b : Bytes) : (d.respond f op q st dt b).upd = d.upd := respond_only d f op q st dt b .upd (by decide)

theorem eventTo_only (d : Dev) (c : Nat) (b : Bytes) (f : Nat) : Only [.funcs, .out] d (d.eventTo c b f) := by
  unfold Dev.eventTo
  refine Only.ite (Only.refl _ _) (Only.ite ?_ ?_)
  · exact (((onKiosk_only _ _ _).to.trans (onKiosk_only _ _ _).to).trans (publish_only _ _ _ _ _ _ _ _ _)).trans (emit_only _ _).to
  · exact ((onKiosk_only _ _ _).to.trans (onKiosk_only _ _ _).to).trans (kioskCause_only _ _ _)
@[simp] theorem Dev.eventTo_draws (d : Dev) (c : Nat) (b : Bytes) (f : Nat) : (d.eventTo c b f).draws = d.draws := eventTo_only d c b f .draws (by decide)
@[simp] theorem Dev.eventTo_boot (d : Dev) (c : Nat) (b : Bytes) (f : Nat) : (d.eventTo c b f).boot = d.boot := eventTo_only d c b f .boot (by decide)
@[simp] theorem Dev.eventTo_fuses (d : Dev) (c : Nat) (b : Bytes) (f : Nat) : (d.eventTo c b f).fuses = d.fuses := eventTo_only d c b f .fuses (by decide)
@[simp] theorem Dev.eventTo_image (d : Dev) (c : Nat) (b : Bytes) (f : Nat) : (d.eventTo c b f).image = d.image := eventTo_only d c b f .image (by decide)
@[simp] theorem Dev.eventTo_pins (d : Dev) (c : Nat) (b : Bytes) (f : Nat) : (d.eventTo c b f).pins = d.pins := eventTo_only d c b f .pins (by decide)
@[simp] theorem Dev.eventTo_time (d : Dev) (c : Nat) (b : Bytes) (f : Nat) : (d.eventTo c b f).time = d.time := eventTo_only d c b f .time (by decide)
@[simp] theorem Dev.eventTo_pcie (d : Dev) (c : Nat) (b : Bytes) (f : Nat) : (d.eventTo c b f).pcie = d.pcie := eventTo_only d c b f .pcie (by decide)
@[simp] theorem Dev.eventTo_regs (d : Dev) (c : Nat) (b : Bytes) (f : Nat) : (d.eventTo c b f).regs = d.regs := eventTo_only d c b f .regs (by decide)
@[simp] theorem Dev.eventTo_ctrs (d : Dev) (c : Nat) (b : Bytes) (f : Nat) : (d.eventTo c b f).ctrs = d.ctrs := eventTo_only d c b f .ctrs (by decide)
@[simp] theorem Dev.eventTo_live (d : Dev) (c : Nat) (b : Bytes) (f : Nat) : (d.eventTo c b f).live = d.live := eventTo_only d c b f .live (by decide)
@[simp] theorem Dev.eventTo_due (d : Dev) (c : Nat) (b : Bytes) (f : Nat) : (d.eventTo c b f).due = d.due := eventTo_only d c b f .due (by decide)
@[simp] theorem Dev.eventTo_round (d : Dev) (c : Nat) (b : Bytes) (f : Nat) : (d.eventTo c b f).round = d.round := eventTo_only d c b f .round (by decide)
@[simp] theorem Dev.eventTo_daeLogged (d : Dev) (c : Nat) (b : Bytes) (f : Nat) : (d.eventTo c b f).daeLogged = d.daeLogged := eventTo_only d c b f .daeLogged (by decide)
@[simp] theorem Dev.eventTo_pon (d : Dev) (c : Nat) (b : Bytes) (f : Nat) : (d.eventTo c b f).pon = d.pon := eventTo_only d c b f .pon (by decide)
@[simp] theorem Dev.eventTo_data (d : Dev) (c : Nat) (b : Bytes) (f : Nat) : (d.eventTo c b f).data = d.data := eventTo_only d c b f .data (by decide)
@[simp] theorem Dev.eventTo_red (d : Dev) (c : Nat) (b : Bytes) (f : Nat) : (d.eventTo c b f).red = d.red := eventTo_only d c b f .red (by decide)
@[simp] theorem Dev.eventTo_mir (d : Dev) (c : Nat) (b : Bytes) (f : Nat) : (d.eventTo c b f).mir = d.mir := eventTo_only d c b f .mir (by decide)
@[simp] theorem Dev.eventTo_redch (d : Dev) (c : Nat) (b : Bytes) (f : Nat) : (d.eventTo c b f).redch = d.redch := eventTo_only d c b f .redch (by decide)
@[simp] theorem Dev.eventTo_meas (d : Dev) (c : Nat) (b : Bytes) (f : Nat) : (d.eventTo c b f).meas = d.meas := eventTo_only d c b f .meas (by decide)
@[simp] theorem Dev.eventTo_power (d : Dev) (c : Nat) (b : Bytes) (f : Nat) : (d.eventTo c b f).power = d.power := eventTo_only d c b f .power (by decide)
@[simp] theorem Dev.eventTo_pav (d : Dev) (c : Nat) (b : Bytes) (f : Nat) : (d.eventTo c b f).pav = d.pav := eventTo_only d c b f .pav (by decide)
@[simp] theorem Dev.eventTo_otdr (d : Dev) (c : Nat) (b : Bytes) (f : Nat) : (d.eventTo c b f).otdr = d.otdr := eventTo_only d c b f .otdr (by decide)
@[simp] theorem Dev.eventTo_upd (d : Dev) (c : Nat) (b : Bytes) (f : Nat) : (d.eventTo c b f).upd = d.upd := eventTo_only d c b f .upd (by decide)

theorem event_only (d : Dev) (c m t : Nat) (b : Bytes) : Only [.funcs, .out] d (d.event c m t b) := by
  unfold Dev.event
  exact Only.each (fun _ _ => eventTo_only _ _ _ _) _ _
@[simp] theorem Dev.event_draws (d : Dev) (c m t : Nat) (b : Bytes) : (d.event c m t b).draws = d.draws := event_only d c m t b .draws (by decide)
@[simp] theorem Dev.event_boot (d : Dev) (c m t : Nat) (b : Bytes) : (d.event c m t b).boot = d.boot := event_only d c m t b .boot (by decide)
@[simp] theorem Dev.event_fuses (d : Dev) (c m t : Nat) (b : Bytes) : (d.event c m t b).fuses = d.fuses := event_only d c m t b .fuses (by decide)
@[simp] theorem Dev.event_image (d : Dev) (c m t : Nat) (b : Bytes) : (d.event c m t b).image = d.image := event_only d c m t b .image (by decide)
@[simp] theorem Dev.event_pins (d : Dev) (c m t : Nat) (b : Bytes) : (d.event c m t b).pins = d.pins := event_only d c m t b .pins (by decide)
@[simp] theorem Dev.event_time (d : Dev) (c m t : Nat) (b : Bytes) : (d.event c m t b).time = d.time := event_only d c m t b .time (by decide)
@[simp] theorem Dev.event_pcie (d : Dev) (c m t : Nat) (b : Bytes) : (d.event c m t b).pcie = d.pcie := event_only d c m t b .pcie (by decide)
@[simp] theorem Dev.event_regs (d : Dev) (c m t : Nat) (b : Bytes) : (d.event c m t b).regs = d.regs := event_only d c m t b .regs (by decide)
@[simp] theorem Dev.event_ctrs (d : Dev) (c m t : Nat) (b : Bytes) : (d.event c m t b).ctrs = d.ctrs := event_only d c m t b .ctrs (by decide)
@[simp] theorem Dev.event_live (d : Dev) (c m t : Nat) (b : Bytes) : (d.event c m t b).live = d.live := event_only d c m t b .live (by decide)
@[simp] theorem Dev.event_due (d : Dev) (c m t : Nat) (b : Bytes) : (d.event c m t b).due = d.due := event_only d c m t b .due (by decide)
@[simp] theorem Dev.event_round (d : Dev) (c m t : Nat) (b : Bytes) : (d.event c m t b).round = d.round := event_only d c m t b .round (by decide)
@[simp] theorem Dev.event_daeLogged (d : Dev) (c m t : Nat) (b : Bytes) : (d.event c m t b).daeLogged = d.daeLogged := event_only d c m t b .daeLogged (by decide)
@[simp] theorem Dev.event_pon (d : Dev) (c m t : Nat) (b : Bytes) : (d.event c m t b).pon = d.pon := event_only d c m t b .pon (by decide)
@[simp] theorem Dev.event_data (d : Dev) (c m t : Nat) (b : Bytes) : (d.event c m t b).data = d.data := event_only d c m t b .data (by decide)
@[simp] theorem Dev.event_red (d : Dev) (c m t : Nat) (b : Bytes) : (d.event c m t b).red = d.red := event_only d c m t b .red (by decide)
@[simp] theorem Dev.event_mir (d : Dev) (c m t : Nat) (b : Bytes) : (d.event c m t b).mir = d.mir := event_only d c m t b .mir (by decide)
@[simp] theorem Dev.event_redch (d : Dev) (c m t : Nat) (b : Bytes) : (d.event c m t b).redch = d.redch := event_only d c m t b .redch (by decide)
@[simp] theorem Dev.event_meas (d : Dev) (c m t : Nat) (b : Bytes) : (d.event c m t b).meas = d.meas := event_only d c m t b .meas (by decide)
@[simp] theorem Dev.event_power (d : Dev) (c m t : Nat) (b : Bytes) : (d.event c m t b).power = d.power := event_only d c m t b .power (by decide)
@[simp] theorem Dev.event_pav (d : Dev) (c m t : Nat) (b : Bytes) : (d.event c m t b).pav = d.pav := event_only d c m t b .pav (by decide)
@[simp] theorem Dev.event_otdr (d : Dev) (c m t : Nat) (b : Bytes) : (d.event c m t b).otdr = d.otdr := event_only d c m t b .otdr (by decide)
@[simp] theorem Dev.event_upd (d : Dev) (c m t : Nat) (b : Bytes) : (d.event c m t b).upd = d.upd := event_only d c m t b .upd (by decide)

theorem evOnuState_only (d : Dev) (o x y c t : Nat) : Only [.funcs, .out] d (d.evOnuState o x y c t) := event_only _ _ _ _ _
@[simp] theorem Dev.evOnuState_draws (d : Dev) (o x y c t : Nat) : (d.evOnuState o x y c t).draws = d.draws := evOnuState_only d o x y c t .draws (by decide)
@[simp] theorem Dev.evOnuState_boot (d : Dev) (o x y c t : Nat) : (d.evOnuState o x y c t).boot = d.boot := evOnuState_only d o x y c t .boot (by decide)
@[simp] theorem Dev.evOnuState_fuses (d : Dev) (o x y c t : Nat) : (d.evOnuState o x y c t).fuses = d.fuses := evOnuState_only d o x y c t .fuses (by decide)
@[simp] theorem Dev.evOnuState_image (d : Dev) (o x y c t : Nat) : (d.evOnuState o x y c t).image = d.image := evOnuState_only d o x y c t .image (by decide)
@[simp] theorem Dev.evOnuState_pins (d : Dev) (o x y c t : Nat) : (d.evOnuState o x y c t).pins = d.pins := evOnuState_only d o x y c t .pins (by decide)
@[simp] theorem Dev.evOnuState_time (d : Dev) (o x y c t : Nat) : (d.evOnuState o x y c t).time = d.time := evOnuState_only d o x y c t .time (by decide)
@[simp] theorem Dev.evOnuState_pcie (d : Dev) (o x y c t : Nat) : (d.evOnuState o x y c t).pcie = d.pcie := evOnuState_only d o x y c t .pcie (by decide)
@[simp] theorem Dev.evOnuState_regs (d : Dev) (o x y c t : Nat) : (d.evOnuState o x y c t).regs = d.regs := evOnuState_only d o x y c t .regs (by decide)
@[simp] theorem Dev.evOnuState_ctrs (d : Dev) (o x y c t : Nat) : (d.evOnuState o x y c t).ctrs = d.ctrs := evOnuState_only d o x y c t .ctrs (by decide)
@[simp] theorem Dev.evOnuState_live (d : Dev) (o x y c t : Nat) : (d.evOnuState o x y c t).live = d.live := evOnuState_only d o x y c t .live (by decide)
@[simp] theorem Dev.evOnuState_due (d : Dev) (o x y c t : Nat) : (d.evOnuState o x y c t).due = d.due := evOnuState_only d o x y c t .due (by decide)
@[simp] theorem Dev.evOnuState_round (d : Dev) (o x y c t : Nat) : (d.evOnuState o x y c t).round = d.round := evOnuState_only d o x y c t .round (by decide)
@[simp] theorem Dev.evOnuState_daeLogged (d : Dev) (o x y c t : Nat) : (d.evOnuState o x y c t).daeLogged = d.daeLogged := evOnuState_only d o x y c t .daeLogged (by decide)
@[simp] theorem Dev.evOnuState_pon (d : Dev) (o x y c t : Nat) : (d.evOnuState o x y c t).pon = d.pon := evOnuState_only d o x y c t .pon (by decide)
@[simp] theorem Dev.evOnuState_data (d : Dev) (o x y c t : Nat) : (d.evOnuState o x y c t).data = d.data := evOnuState_only d o x y c t .data (by decide)
@[simp] theorem Dev.evOnuState_red (d : Dev) (o x y c t : Nat) : (d.evOnuState o x y c t).red = d.red := evOnuState_only d o x y c t .red (by decide)
@[simp] theorem Dev.evOnuState_mir (d : Dev) (o x y c t : Nat) : (d.evOnuState o x y c t).mir = d.mir := evOnuState_only d o x y c t .mir (by decide)
@[simp] theorem Dev.evOnuState_redch (d : Dev) (o x y c t : Nat) : (d.evOnuState o x y c t).redch = d.redch := evOnuState_only d o x y c t .redch (by decide)
@[simp] theorem Dev.evOnuState_meas (d : Dev) (o x y c t : Nat) : (d.evOnuState o x y c t).meas = d.meas := evOnuState_only d o x y c t .meas (by decide)
@[simp] theorem Dev.evOnuState_power (d : Dev) (o x y c t : Nat) : (d.evOnuState o x y c t).power = d.power := evOnuState_only d o x y c t .power (by decide)
@[simp] theorem Dev.evOnuState_pav (d : Dev) (o x y c t : Nat) : (d.evOnuState o x y c t).pav = d.pav := evOnuState_only d o x y c t .pav (by decide)
@[simp] theorem Dev.evOnuState_otdr (d : Dev) (o x y c t : Nat) : (d.evOnuState o x y c t).otdr = d.otdr := evOnuState_only d o x y c t .otdr (by decide)
@[simp] theorem Dev.evOnuState_upd (d : Dev) (o x y c t : Nat) : (d.evOnuState o x y c t).upd = d.upd := evOnuState_only d o x y c t .upd (by decide)

theorem evOnuDiscovered_only (d : Dev) (o t c s : Nat) : Only [.funcs, .out] d (d.evOnuDiscovered o t c s) := event_only _ _ _ _ _
@[simp] theorem Dev.evOnuDiscovered_draws (d : Dev) (o t c s : Nat) : (d.evOnuDiscovered o t c s).draws = d.draws := evOnuDiscovered_only d o t c s .draws (by decide)
@[simp] theorem Dev.evOnuDiscovered_boot (d : Dev) (o t c s : Nat) : (d.evOnuDiscovered o t c s).boot = d.boot := evOnuDiscovered_only d o t c s .boot (by decide)
@[simp] theorem Dev.evOnuDiscovered_fuses (d : Dev) (o t c s : Nat) : (d.evOnuDiscovered o t c s).fuses = d.fuses := evOnuDiscovered_only d o t c s .fuses (by decide)
@[simp] theorem Dev.evOnuDiscovered_image (d : Dev) (o t c s : Nat) : (d.evOnuDiscovered o t c s).image = d.image := evOnuDiscovered_only d o t c s .image (by decide)
@[simp] theorem Dev.evOnuDiscovered_pins (d : Dev) (o t c s : Nat) : (d.evOnuDiscovered o t c s).pins = d.pins := evOnuDiscovered_only d o t c s .pins (by decide)
@[simp] theorem Dev.evOnuDiscovered_time (d : Dev) (o t c s : Nat) : (d.evOnuDiscovered o t c s).time = d.time := evOnuDiscovered_only d o t c s .time (by decide)
@[simp] theorem Dev.evOnuDiscovered_pcie (d : Dev) (o t c s : Nat) : (d.evOnuDiscovered o t c s).pcie = d.pcie := evOnuDiscovered_only d o t c s .pcie (by decide)
@[simp] theorem Dev.evOnuDiscovered_regs (d : Dev) (o t c s : Nat) : (d.evOnuDiscovered o t c s).regs = d.regs := evOnuDiscovered_only d o t c s .regs (by decide)
@[simp] theorem Dev.evOnuDiscovered_ctrs (d : Dev) (o t c s : Nat) : (d.evOnuDiscovered o t c s).ctrs = d.ctrs := evOnuDiscovered_only d o t c s .ctrs (by decide)
@[simp] theorem Dev.evOnuDiscovered_live (d : Dev) (o t c s : Nat) : (d.evOnuDiscovered o t c s).live = d.live := evOnuDiscovered_only d o t c s .live (by decide)
@[simp] theorem Dev.evOnuDiscovered_due (d : Dev) (o t c s : Nat) : (d.evOnuDiscovered o t c s).due = d.due := evOnuDiscovered_only d o t c s .due (by decide)
@[simp] theorem Dev.evOnuDiscovered_round (d : Dev) (o t c s : Nat) : (d.evOnuDiscovered o t c s).round = d.round := evOnuDiscovered_only d o t c s .round (by decide)
@[simp] theorem Dev.evOnuDiscovered_daeLogged (d : Dev) (o t c s : Nat) : (d.evOnuDiscovered o t c s).daeLogged = d.daeLogged := evOnuDiscovered_only d o t c s .daeLogged (by decide)
@[simp] theorem Dev.evOnuDiscovered_pon (d : Dev) (o t c s : Nat) : (d.evOnuDiscovered o t c s).pon = d.pon := evOnuDiscovered_only d o t c s .pon (by decide)
@[simp] theorem Dev.evOnuDiscovered_data (d : Dev) (o t c s : Nat) : (d.evOnuDiscovered o t c s).data = d.data := evOnuDiscovered_only d o t c s .data (by decide)
@[simp] theorem Dev.evOnuDiscovered_red (d : Dev) (o t c s : Nat) : (d.evOnuDiscovered o t c s).red = d.red := evOnuDiscovered_only d o t c s .red (by decide)
@[simp] theorem Dev.evOnuDiscovered_mir (d : Dev) (o t c s : Nat) : (d.evOnuDiscovered o t c s).mir = d.mir := evOnuDiscovered_only d o t c s .mir (by decide)
@[simp] theorem Dev.evOnuDiscovered_redch (d : Dev) (o t c s : Nat) : (d.evOnuDiscovered o t c s).redch = d.redch := evOnuDiscovered_only d o t c s .redch (by decide)
@[simp] theorem Dev.evOnuDiscovered_meas (d : Dev) (o t c s : Nat) : (d.evOnuDiscovered o t c s).meas = d.meas := evOnuDiscovered_only d o t c s .meas (by decide)
@[simp] theorem Dev.evOnuDiscovered_power (d : Dev) (o t c s : Nat) : (d.evOnuDiscovered o t c s).power = d.power := evOnuDiscovered_only d o t c s .power (by decide)
@[simp] theorem Dev.evOnuDiscovered_pav (d : Dev) (o t c s : Nat) : (d.evOnuDiscovered o t c s).pav = d.pav := evOnuDiscovered_only d o t c s .pav (by decide)
@[simp] theorem Dev.evOnuDiscovered_otdr (d : Dev) (o t c s : Nat) : (d.evOnuDiscovered o t c s).otdr = d.otdr := evOnuDiscovered_only d o t c s .otdr (by decide)
@[simp] theorem Dev.evOnuDiscovered_upd (d : Dev) (o t c s : Nat) : (d.evOnuDiscovered o t c s).upd = d.upd := evOnuDiscovered_only d o t c s .upd (by decide)

theorem evMigrationDone_only (d : Dev) (o c r t : Nat) : Only [.funcs, .out] d (d.evMigrationDone o c r t) := event_only _ _ _ _ _
@[simp] theorem Dev.evMigrationDone_draws (d : Dev) (o c r t : Nat) : (d.evMigrationDone o c r t).draws = d.draws := evMigrationDone_only d o c r t .draws (by decide)
@[simp] theorem Dev.evMigrationDone_boot (d : Dev) (o c r t : Nat) : (d.evMigrationDone o c r t).boot = d.boot := evMigrationDone_only d o c r t .boot (by decide)
@[simp] theorem Dev.evMigrationDone_fuses (d : Dev) (o c r t : Nat) : (d.evMigrationDone o c r t).fuses = d.fuses := evMigrationDone_only d o c r t .fuses (by decide)
@[simp] theorem Dev.evMigrationDone_image (d : Dev) (o c r t : Nat) : (d.evMigrationDone o c r t).image = d.image := evMigrationDone_only d o c r t .image (by decide)
@[simp] theorem Dev.evMigrationDone_pins (d : Dev) (o c r t : Nat) : (d.evMigrationDone o c r t).pins = d.pins := evMigrationDone_only d o c r t .pins (by decide)
@[simp] theorem Dev.evMigrationDone_time (d : Dev) (o c r t : Nat) : (d.evMigrationDone o c r t).time = d.time := evMigrationDone_only d o c r t .time (by decide)
@[simp] theorem Dev.evMigrationDone_pcie (d : Dev) (o c r t : Nat) : (d.evMigrationDone o c r t).pcie = d.pcie := evMigrationDone_only d o c r t .pcie (by decide)
@[simp] theorem Dev.evMigrationDone_regs (d : Dev) (o c r t : Nat) : (d.evMigrationDone o c r t).regs = d.regs := evMigrationDone_only d o c r t .regs (by decide)
@[simp] theorem Dev.evMigrationDone_ctrs (d : Dev) (o c r t : Nat) : (d.evMigrationDone o c r t).ctrs = d.ctrs := evMigrationDone_only d o c r t .ctrs (by decide)
@[simp] theorem Dev.evMigrationDone_live (d : Dev) (o c r t : Nat) : (d.evMigrationDone o c r t).live = d.live := evMigrationDone_only d o c r t .live (by decide)
@[simp] theorem Dev.evMigrationDone_due (d : Dev) (o c r t : Nat) : (d.evMigrationDone o c r t).due = d.due := evMigrationDone_only d o c r t .due (by decide)
@[simp] theorem Dev.evMigrationDone_round (d : Dev) (o c r t : Nat) : (d.evMigrationDone o c r t).round = d.round := evMigrationDone_only d o c r t .round (by decide)
@[simp] theorem Dev.evMigrationDone_daeLogged (d : Dev) (o c r t : Nat) : (d.evMigrationDone o c r t).daeLogged = d.daeLogged := evMigrationDone_only d o c r t .daeLogged (by decide)
@[simp] theorem Dev.evMigrationDone_pon (d : Dev) (o c r t : Nat) : (d.evMigrationDone o c r t).pon = d.pon := evMigrationDone_only d o c r t .pon (by decide)
@[simp] theorem Dev.evMigrationDone_data (d : Dev) (o c r t : Nat) : (d.evMigrationDone o c r t).data = d.data := evMigrationDone_only d o c r t .data (by decide)
@[simp] theorem Dev.evMigrationDone_red (d : Dev) (o c r t : Nat) : (d.evMigrationDone o c r t).red = d.red := evMigrationDone_only d o c r t .red (by decide)
@[simp] theorem Dev.evMigrationDone_mir (d : Dev) (o c r t : Nat) : (d.evMigrationDone o c r t).mir = d.mir := evMigrationDone_only d o c r t .mir (by decide)
@[simp] theorem Dev.evMigrationDone_redch (d : Dev) (o c r t : Nat) : (d.evMigrationDone o c r t).redch = d.redch := evMigrationDone_only d o c r t .redch (by decide)
@[simp] theorem Dev.evMigrationDone_meas (d : Dev) (o c r t : Nat) : (d.evMigrationDone o c r t).meas = d.meas := evMigrationDone_only d o c r t .meas (by decide)
@[simp] theorem Dev.evMigrationDone_power (d : Dev) (o c r t : Nat) : (d.evMigrationDone o c r t).power = d.power := evMigrationDone_only d o c r t .power (by decide)
@[simp] theorem Dev.evMigrationDone_pav (d : Dev) (o c r t : Nat) : (d.evMigrationDone o c r t).pav = d.pav := evMigrationDone_only d o c r t .pav (by decide)
@[simp] theorem Dev.evMigrationDone_otdr (d : Dev) (o c r t : Nat) : (d.evMigrationDone o c r t).otdr = d.otdr := evMigrationDone_only d o c r t .otdr (by decide)
@[simp] theorem Dev.evMigrationDone_upd (d : Dev) (o c r t : Nat) : (d.evMigrationDone o c r t).upd = d.upd := evMigrationDone_only d o c r t .upd (by decide)

theorem evLineFault_only (d : Dev) (c o k : Nat) : Only [.funcs, .out] d (d.evLineFault c o k) := event_only _ _ _ _ _
@[simp] theorem Dev.evLineFault_draws (d : Dev) (c o k : Nat) : (d.evLineFault c o k).draws = d.draws := evLineFault_only d c o k .draws (by decide)
@[simp] theorem Dev.evLineFault_boot (d : Dev) (c o k : Nat) : (d.evLineFault c o k).boot = d.boot := evLineFault_only d c o k .boot (by decide)
@[simp] theorem Dev.evLineFault_fuses (d : Dev) (c o k : Nat) : (d.evLineFault c o k).fuses = d.fuses := evLineFault_only d c o k .fuses (by decide)
@[simp] theorem Dev.evLineFault_image (d : Dev) (c o k : Nat) : (d.evLineFault c o k).image = d.image := evLineFault_only d c o k .image (by decide)
@[simp] theorem Dev.evLineFault_pins (d : Dev) (c o k : Nat) : (d.evLineFault c o k).pins = d.pins := evLineFault_only d c o k .pins (by decide)
@[simp] theorem Dev.evLineFault_time (d : Dev) (c o k : Nat) : (d.evLineFault c o k).time = d.time := evLineFault_only d c o k .time (by decide)
@[simp] theorem Dev.evLineFault_pcie (d : Dev) (c o k : Nat) : (d.evLineFault c o k).pcie = d.pcie := evLineFault_only d c o k .pcie (by decide)
@[simp] theorem Dev.evLineFault_regs (d : Dev) (c o k : Nat) : (d.evLineFault c o k).regs = d.regs := evLineFault_only d c o k .regs (by decide)
@[simp] theorem Dev.evLineFault_ctrs (d : Dev) (c o k : Nat) : (d.evLineFault c o k).ctrs = d.ctrs := evLineFault_only d c o k .ctrs (by decide)
@[simp] theorem Dev.evLineFault_live (d : Dev) (c o k : Nat) : (d.evLineFault c o k).live = d.live := evLineFault_only d c o k .live (by decide)
@[simp] theorem Dev.evLineFault_due (d : Dev) (c o k : Nat) : (d.evLineFault c o k).due = d.due := evLineFault_only d c o k .due (by decide)
@[simp] theorem Dev.evLineFault_round (d : Dev) (c o k : Nat) : (d.evLineFault c o k).round = d.round := evLineFault_only d c o k .round (by decide)
@[simp] theorem Dev.evLineFault_daeLogged (d : Dev) (c o k : Nat) : (d.evLineFault c o k).daeLogged = d.daeLogged := evLineFault_only d c o k .daeLogged (by decide)
@[simp] theorem Dev.evLineFault_pon (d : Dev) (c o k : Nat) : (d.evLineFault c o k).pon = d.pon := evLineFault_only d c o k .pon (by decide)
@[simp] theorem Dev.evLineFault_data (d : Dev) (c o k : Nat) : (d.evLineFault c o k).data = d.data := evLineFault_only d c o k .data (by decide)
@[simp] theorem Dev.evLineFault_red (d : Dev) (c o k : Nat) : (d.evLineFault c o k).red = d.red := evLineFault_only d c o k .red (by decide)
@[simp] theorem Dev.evLineFault_mir (d : Dev) (c o k : Nat) : (d.evLineFault c o k).mir = d.mir := evLineFault_only d c o k .mir (by decide)
@[simp] theorem Dev.evLineFault_redch (d : Dev) (c o k : Nat) : (d.evLineFault c o k).redch = d.redch := evLineFault_only d c o k .redch (by decide)
@[simp] theorem Dev.evLineFault_meas (d : Dev) (c o k : Nat) : (d.evLineFault c o k).meas = d.meas := evLineFault_only d c o k .meas (by decide)
@[simp] theorem Dev.evLineFault_power (d : Dev) (c o k : Nat) : (d.evLineFault c o k).power = d.power := evLineFault_only d c o k .power (by decide)
@[simp] theorem Dev.evLineFault_pav (d : Dev) (c o k : Nat) : (d.evLineFault c o k).pav = d.pav := evLineFault_only d c o k .pav (by decide)
@[simp] theorem Dev.evLineFault_otdr (d : Dev) (c o k : Nat) : (d.evLineFault c o k).otdr = d.otdr := evLineFault_only d c o k .otdr (by decide)
@[simp] theorem Dev.evLineFault_upd (d : Dev) (c o k : Nat) : (d.evLineFault c o k).upd = d.upd := evLineFault_only d c o k .upd (by decide)

theorem evTickOverrun_only (d : Dev) (c n : Nat) : Only [.funcs, .out] d (d.evTickOverrun c n) := event_only _ _ _ _ _
@[simp] theorem Dev.evTickOverrun_draws (d : Dev) (c n : Nat) : (d.evTickOverrun c n).draws = d.draws := evTickOverrun_only d c n .draws (by decide)
@[simp] theorem Dev.evTickOverrun_boot (d : Dev) (c n : Nat) : (d.evTickOverrun c n).boot = d.boot := evTickOverrun_only d c n .boot (by decide)
@[simp] theorem Dev.evTickOverrun_fuses (d : Dev) (c n : Nat) : (d.evTickOverrun c n).fuses = d.fuses := evTickOverrun_only d c n .fuses (by decide)
@[simp] theorem Dev.evTickOverrun_image (d : Dev) (c n : Nat) : (d.evTickOverrun c n).image = d.image := evTickOverrun_only d c n .image (by decide)
@[simp] theorem Dev.evTickOverrun_pins (d : Dev) (c n : Nat) : (d.evTickOverrun c n).pins = d.pins := evTickOverrun_only d c n .pins (by decide)
@[simp] theorem Dev.evTickOverrun_time (d : Dev) (c n : Nat) : (d.evTickOverrun c n).time = d.time := evTickOverrun_only d c n .time (by decide)
@[simp] theorem Dev.evTickOverrun_pcie (d : Dev) (c n : Nat) : (d.evTickOverrun c n).pcie = d.pcie := evTickOverrun_only d c n .pcie (by decide)
@[simp] theorem Dev.evTickOverrun_regs (d : Dev) (c n : Nat) : (d.evTickOverrun c n).regs = d.regs := evTickOverrun_only d c n .regs (by decide)
@[simp] theorem Dev.evTickOverrun_ctrs (d : Dev) (c n : Nat) : (d.evTickOverrun c n).ctrs = d.ctrs := evTickOverrun_only d c n .ctrs (by decide)
@[simp] theorem Dev.evTickOverrun_live (d : Dev) (c n : Nat) : (d.evTickOverrun c n).live = d.live := evTickOverrun_only d c n .live (by decide)
@[simp] theorem Dev.evTickOverrun_due (d : Dev) (c n : Nat) : (d.evTickOverrun c n).due = d.due := evTickOverrun_only d c n .due (by decide)
@[simp] theorem Dev.evTickOverrun_round (d : Dev) (c n : Nat) : (d.evTickOverrun c n).round = d.round := evTickOverrun_only d c n .round (by decide)
@[simp] theorem Dev.evTickOverrun_daeLogged (d : Dev) (c n : Nat) : (d.evTickOverrun c n).daeLogged = d.daeLogged := evTickOverrun_only d c n .daeLogged (by decide)
@[simp] theorem Dev.evTickOverrun_pon (d : Dev) (c n : Nat) : (d.evTickOverrun c n).pon = d.pon := evTickOverrun_only d c n .pon (by decide)
@[simp] theorem Dev.evTickOverrun_data (d : Dev) (c n : Nat) : (d.evTickOverrun c n).data = d.data := evTickOverrun_only d c n .data (by decide)
@[simp] theorem Dev.evTickOverrun_red (d : Dev) (c n : Nat) : (d.evTickOverrun c n).red = d.red := evTickOverrun_only d c n .red (by decide)
@[simp] theorem Dev.evTickOverrun_mir (d : Dev) (c n : Nat) : (d.evTickOverrun c n).mir = d.mir := evTickOverrun_only d c n .mir (by decide)
@[simp] theorem Dev.evTickOverrun_redch (d : Dev) (c n : Nat) : (d.evTickOverrun c n).redch = d.redch := evTickOverrun_only d c n .redch (by decide)
@[simp] theorem Dev.evTickOverrun_meas (d : Dev) (c n : Nat) : (d.evTickOverrun c n).meas = d.meas := evTickOverrun_only d c n .meas (by decide)
@[simp] theorem Dev.evTickOverrun_power (d : Dev) (c n : Nat) : (d.evTickOverrun c n).power = d.power := evTickOverrun_only d c n .power (by decide)
@[simp] theorem Dev.evTickOverrun_pav (d : Dev) (c n : Nat) : (d.evTickOverrun c n).pav = d.pav := evTickOverrun_only d c n .pav (by decide)
@[simp] theorem Dev.evTickOverrun_otdr (d : Dev) (c n : Nat) : (d.evTickOverrun c n).otdr = d.otdr := evTickOverrun_only d c n .otdr (by decide)
@[simp] theorem Dev.evTickOverrun_upd (d : Dev) (c n : Nat) : (d.evTickOverrun c n).upd = d.upd := evTickOverrun_only d c n .upd (by decide)

theorem evPowerDone_only (d : Dev) (s w : Nat) : Only [.funcs, .out] d (d.evPowerDone s w) := event_only _ _ _ _ _
@[simp] theorem Dev.evPowerDone_draws (d : Dev) (s w : Nat) : (d.evPowerDone s w).draws = d.draws := evPowerDone_only d s w .draws (by decide)
@[simp] theorem Dev.evPowerDone_boot (d : Dev) (s w : Nat) : (d.evPowerDone s w).boot = d.boot := evPowerDone_only d s w .boot (by decide)
@[simp] theorem Dev.evPowerDone_fuses (d : Dev) (s w : Nat) : (d.evPowerDone s w).fuses = d.fuses := evPowerDone_only d s w .fuses (by decide)
@[simp] theorem Dev.evPowerDone_image (d : Dev) (s w : Nat) : (d.evPowerDone s w).image = d.image := evPowerDone_only d s w .image (by decide)
@[simp] theorem Dev.evPowerDone_pins (d : Dev) (s w : Nat) : (d.evPowerDone s w).pins = d.pins := evPowerDone_only d s w .pins (by decide)
@[simp] theorem Dev.evPowerDone_time (d : Dev) (s w : Nat) : (d.evPowerDone s w).time = d.time := evPowerDone_only d s w .time (by decide)
@[simp] theorem Dev.evPowerDone_pcie (d : Dev) (s w : Nat) : (d.evPowerDone s w).pcie = d.pcie := evPowerDone_only d s w .pcie (by decide)
@[simp] theorem Dev.evPowerDone_regs (d : Dev) (s w : Nat) : (d.evPowerDone s w).regs = d.regs := evPowerDone_only d s w .regs (by decide)
@[simp] theorem Dev.evPowerDone_ctrs (d : Dev) (s w : Nat) : (d.evPowerDone s w).ctrs = d.ctrs := evPowerDone_only d s w .ctrs (by decide)
@[simp] theorem Dev.evPowerDone_live (d : Dev) (s w : Nat) : (d.evPowerDone s w).live = d.live := evPowerDone_only d s w .live (by decide)
@[simp] theorem Dev.evPowerDone_due (d : Dev) (s w : Nat) : (d.evPowerDone s w).due = d.due := evPowerDone_only d s w .due (by decide)
@[simp] theorem Dev.evPowerDone_round (d : Dev) (s w : Nat) : (d.evPowerDone s w).round = d.round := evPowerDone_only d s w .round (by decide)
@[simp] theorem Dev.evPowerDone_daeLogged (d : Dev) (s w : Nat) : (d.evPowerDone s w).daeLogged = d.daeLogged := evPowerDone_only d s w .daeLogged (by decide)
@[simp] theorem Dev.evPowerDone_pon (d : Dev) (s w : Nat) : (d.evPowerDone s w).pon = d.pon := evPowerDone_only d s w .pon (by decide)
@[simp] theorem Dev.evPowerDone_data (d : Dev) (s w : Nat) : (d.evPowerDone s w).data = d.data := evPowerDone_only d s w .data (by decide)
@[simp] theorem Dev.evPowerDone_red (d : Dev) (s w : Nat) : (d.evPowerDone s w).red = d.red := evPowerDone_only d s w .red (by decide)
@[simp] theorem Dev.evPowerDone_mir (d : Dev) (s w : Nat) : (d.evPowerDone s w).mir = d.mir := evPowerDone_only d s w .mir (by decide)
@[simp] theorem Dev.evPowerDone_redch (d : Dev) (s w : Nat) : (d.evPowerDone s w).redch = d.redch := evPowerDone_only d s w .redch (by decide)
@[simp] theorem Dev.evPowerDone_meas (d : Dev) (s w : Nat) : (d.evPowerDone s w).meas = d.meas := evPowerDone_only d s w .meas (by decide)
@[simp] theorem Dev.evPowerDone_power (d : Dev) (s w : Nat) : (d.evPowerDone s w).power = d.power := evPowerDone_only d s w .power (by decide)
@[simp] theorem Dev.evPowerDone_pav (d : Dev) (s w : Nat) : (d.evPowerDone s w).pav = d.pav := evPowerDone_only d s w .pav (by decide)
@[simp] theorem Dev.evPowerDone_otdr (d : Dev) (s w : Nat) : (d.evPowerDone s w).otdr = d.otdr := evPowerDone_only d s w .otdr (by decide)
@[simp] theorem Dev.evPowerDone_upd (d : Dev) (s w : Nat) : (d.evPowerDone s w).upd = d.upd := evPowerDone_only d s w .upd (by decide)

theorem evRoleChange_only (d : Dev) (r c : Nat) : Only [.funcs, .out] d (d.evRoleChange r c) := event_only _ _ _ _ _
@[simp] theorem Dev.evRoleChange_draws (d : Dev) (r c : Nat) : (d.evRoleChange r c).draws = d.draws := evRoleChange_only d r c .draws (by decide)
@[simp] theorem Dev.evRoleChange_boot (d : Dev) (r c : Nat) : (d.evRoleChange r c).boot = d.boot := evRoleChange_only d r c .boot (by decide)
@[simp] theorem Dev.evRoleChange_fuses (d : Dev) (r c : Nat) : (d.evRoleChange r c).fuses = d.fuses := evRoleChange_only d r c .fuses (by decide)
@[simp] theorem Dev.evRoleChange_image (d : Dev) (r c : Nat) : (d.evRoleChange r c).image = d.image := evRoleChange_only d r c .image (by decide)
@[simp] theorem Dev.evRoleChange_pins (d : Dev) (r c : Nat) : (d.evRoleChange r c).pins = d.pins := evRoleChange_only d r c .pins (by decide)
@[simp] theorem Dev.evRoleChange_time (d : Dev) (r c : Nat) : (d.evRoleChange r c).time = d.time := evRoleChange_only d r c .time (by decide)
@[simp] theorem Dev.evRoleChange_pcie (d : Dev) (r c : Nat) : (d.evRoleChange r c).pcie = d.pcie := evRoleChange_only d r c .pcie (by decide)
@[simp] theorem Dev.evRoleChange_regs (d : Dev) (r c : Nat) : (d.evRoleChange r c).regs = d.regs := evRoleChange_only d r c .regs (by decide)
@[simp] theorem Dev.evRoleChange_ctrs (d : Dev) (r c : Nat) : (d.evRoleChange r c).ctrs = d.ctrs := evRoleChange_only d r c .ctrs (by decide)
@[simp] theorem Dev.evRoleChange_live (d : Dev) (r c : Nat) : (d.evRoleChange r c).live = d.live := evRoleChange_only d r c .live (by decide)
@[simp] theorem Dev.evRoleChange_due (d : Dev) (r c : Nat) : (d.evRoleChange r c).due = d.due := evRoleChange_only d r c .due (by decide)
@[simp] theorem Dev.evRoleChange_round (d : Dev) (r c : Nat) : (d.evRoleChange r c).round = d.round := evRoleChange_only d r c .round (by decide)
@[simp] theorem Dev.evRoleChange_daeLogged (d : Dev) (r c : Nat) : (d.evRoleChange r c).daeLogged = d.daeLogged := evRoleChange_only d r c .daeLogged (by decide)
@[simp] theorem Dev.evRoleChange_pon (d : Dev) (r c : Nat) : (d.evRoleChange r c).pon = d.pon := evRoleChange_only d r c .pon (by decide)
@[simp] theorem Dev.evRoleChange_data (d : Dev) (r c : Nat) : (d.evRoleChange r c).data = d.data := evRoleChange_only d r c .data (by decide)
@[simp] theorem Dev.evRoleChange_red (d : Dev) (r c : Nat) : (d.evRoleChange r c).red = d.red := evRoleChange_only d r c .red (by decide)
@[simp] theorem Dev.evRoleChange_mir (d : Dev) (r c : Nat) : (d.evRoleChange r c).mir = d.mir := evRoleChange_only d r c .mir (by decide)
@[simp] theorem Dev.evRoleChange_redch (d : Dev) (r c : Nat) : (d.evRoleChange r c).redch = d.redch := evRoleChange_only d r c .redch (by decide)
@[simp] theorem Dev.evRoleChange_meas (d : Dev) (r c : Nat) : (d.evRoleChange r c).meas = d.meas := evRoleChange_only d r c .meas (by decide)
@[simp] theorem Dev.evRoleChange_power (d : Dev) (r c : Nat) : (d.evRoleChange r c).power = d.power := evRoleChange_only d r c .power (by decide)
@[simp] theorem Dev.evRoleChange_pav (d : Dev) (r c : Nat) : (d.evRoleChange r c).pav = d.pav := evRoleChange_only d r c .pav (by decide)
@[simp] theorem Dev.evRoleChange_otdr (d : Dev) (r c : Nat) : (d.evRoleChange r c).otdr = d.otdr := evRoleChange_only d r c .otdr (by decide)
@[simp] theorem Dev.evRoleChange_upd (d : Dev) (r c : Nat) : (d.evRoleChange r c).upd = d.upd := evRoleChange_only d r c .upd (by decide)

theorem evTableRestore_only (d : Dev) (x t i : Nat) : Only [.funcs, .out] d (d.evTableRestore x t i) := event_only _ _ _ _ _
@[simp] theorem Dev.evTableRestore_draws (d : Dev) (x t i : Nat) : (d.evTableRestore x t i).draws = d.draws := evTableRestore_only d x t i .draws (by decide)
@[simp] theorem Dev.evTableRestore_boot (d : Dev) (x t i : Nat) : (d.evTableRestore x t i).boot = d.boot := evTableRestore_only d x t i .boot (by decide)
@[simp] theorem Dev.evTableRestore_fuses (d : Dev) (x t i : Nat) : (d.evTableRestore x t i).fuses = d.fuses := evTableRestore_only d x t i .fuses (by decide)
@[simp] theorem Dev.evTableRestore_image (d : Dev) (x t i : Nat) : (d.evTableRestore x t i).image = d.image := evTableRestore_only d x t i .image (by decide)
@[simp] theorem Dev.evTableRestore_pins (d : Dev) (x t i : Nat) : (d.evTableRestore x t i).pins = d.pins := evTableRestore_only d x t i .pins (by decide)
@[simp] theorem Dev.evTableRestore_time (d : Dev) (x t i : Nat) : (d.evTableRestore x t i).time = d.time := evTableRestore_only d x t i .time (by decide)
@[simp] theorem Dev.evTableRestore_pcie (d : Dev) (x t i : Nat) : (d.evTableRestore x t i).pcie = d.pcie := evTableRestore_only d x t i .pcie (by decide)
@[simp] theorem Dev.evTableRestore_regs (d : Dev) (x t i : Nat) : (d.evTableRestore x t i).regs = d.regs := evTableRestore_only d x t i .regs (by decide)
@[simp] theorem Dev.evTableRestore_ctrs (d : Dev) (x t i : Nat) : (d.evTableRestore x t i).ctrs = d.ctrs := evTableRestore_only d x t i .ctrs (by decide)
@[simp] theorem Dev.evTableRestore_live (d : Dev) (x t i : Nat) : (d.evTableRestore x t i).live = d.live := evTableRestore_only d x t i .live (by decide)
@[simp] theorem Dev.evTableRestore_due (d : Dev) (x t i : Nat) : (d.evTableRestore x t i).due = d.due := evTableRestore_only d x t i .due (by decide)
@[simp] theorem Dev.evTableRestore_round (d : Dev) (x t i : Nat) : (d.evTableRestore x t i).round = d.round := evTableRestore_only d x t i .round (by decide)
@[simp] theorem Dev.evTableRestore_daeLogged (d : Dev) (x t i : Nat) : (d.evTableRestore x t i).daeLogged = d.daeLogged := evTableRestore_only d x t i .daeLogged (by decide)
@[simp] theorem Dev.evTableRestore_pon (d : Dev) (x t i : Nat) : (d.evTableRestore x t i).pon = d.pon := evTableRestore_only d x t i .pon (by decide)
@[simp] theorem Dev.evTableRestore_data (d : Dev) (x t i : Nat) : (d.evTableRestore x t i).data = d.data := evTableRestore_only d x t i .data (by decide)
@[simp] theorem Dev.evTableRestore_red (d : Dev) (x t i : Nat) : (d.evTableRestore x t i).red = d.red := evTableRestore_only d x t i .red (by decide)
@[simp] theorem Dev.evTableRestore_mir (d : Dev) (x t i : Nat) : (d.evTableRestore x t i).mir = d.mir := evTableRestore_only d x t i .mir (by decide)
@[simp] theorem Dev.evTableRestore_redch (d : Dev) (x t i : Nat) : (d.evTableRestore x t i).redch = d.redch := evTableRestore_only d x t i .redch (by decide)
@[simp] theorem Dev.evTableRestore_meas (d : Dev) (x t i : Nat) : (d.evTableRestore x t i).meas = d.meas := evTableRestore_only d x t i .meas (by decide)
@[simp] theorem Dev.evTableRestore_power (d : Dev) (x t i : Nat) : (d.evTableRestore x t i).power = d.power := evTableRestore_only d x t i .power (by decide)
@[simp] theorem Dev.evTableRestore_pav (d : Dev) (x t i : Nat) : (d.evTableRestore x t i).pav = d.pav := evTableRestore_only d x t i .pav (by decide)
@[simp] theorem Dev.evTableRestore_otdr (d : Dev) (x t i : Nat) : (d.evTableRestore x t i).otdr = d.otdr := evTableRestore_only d x t i .otdr (by decide)
@[simp] theorem Dev.evTableRestore_upd (d : Dev) (x t i : Nat) : (d.evTableRestore x t i).upd = d.upd := evTableRestore_only d x t i .upd (by decide)

theorem evUpdateState_only (d : Dev) (s r : Nat) : Only [.funcs, .out] d (d.evUpdateState s r) := event_only _ _ _ _ _
@[simp] theorem Dev.evUpdateState_draws (d : Dev) (s r : Nat) : (d.evUpdateState s r).draws = d.draws := evUpdateState_only d s r .draws (by decide)
@[simp] theorem Dev.evUpdateState_boot (d : Dev) (s r : Nat) : (d.evUpdateState s r).boot = d.boot := evUpdateState_only d s r .boot (by decide)
@[simp] theorem Dev.evUpdateState_fuses (d : Dev) (s r : Nat) : (d.evUpdateState s r).fuses = d.fuses := evUpdateState_only d s r .fuses (by decide)
@[simp] theorem Dev.evUpdateState_image (d : Dev) (s r : Nat) : (d.evUpdateState s r).image = d.image := evUpdateState_only d s r .image (by decide)
@[simp] theorem Dev.evUpdateState_pins (d : Dev) (s r : Nat) : (d.evUpdateState s r).pins = d.pins := evUpdateState_only d s r .pins (by decide)
@[simp] theorem Dev.evUpdateState_time (d : Dev) (s r : Nat) : (d.evUpdateState s r).time = d.time := evUpdateState_only d s r .time (by decide)
@[simp] theorem Dev.evUpdateState_pcie (d : Dev) (s r : Nat) : (d.evUpdateState s r).pcie = d.pcie := evUpdateState_only d s r .pcie (by decide)
@[simp] theorem Dev.evUpdateState_regs (d : Dev) (s r : Nat) : (d.evUpdateState s r).regs = d.regs := evUpdateState_only d s r .regs (by decide)
@[simp] theorem Dev.evUpdateState_ctrs (d : Dev) (s r : Nat) : (d.evUpdateState s r).ctrs = d.ctrs := evUpdateState_only d s r .ctrs (by decide)
@[simp] theorem Dev.evUpdateState_live (d : Dev) (s r : Nat) : (d.evUpdateState s r).live = d.live := evUpdateState_only d s r .live (by decide)
@[simp] theorem Dev.evUpdateState_due (d : Dev) (s r : Nat) : (d.evUpdateState s r).due = d.due := evUpdateState_only d s r .due (by decide)
@[simp] theorem Dev.evUpdateState_round (d : Dev) (s r : Nat) : (d.evUpdateState s r).round = d.round := evUpdateState_only d s r .round (by decide)
@[simp] theorem Dev.evUpdateState_daeLogged (d : Dev) (s r : Nat) : (d.evUpdateState s r).daeLogged = d.daeLogged := evUpdateState_only d s r .daeLogged (by decide)
@[simp] theorem Dev.evUpdateState_pon (d : Dev) (s r : Nat) : (d.evUpdateState s r).pon = d.pon := evUpdateState_only d s r .pon (by decide)
@[simp] theorem Dev.evUpdateState_data (d : Dev) (s r : Nat) : (d.evUpdateState s r).data = d.data := evUpdateState_only d s r .data (by decide)
@[simp] theorem Dev.evUpdateState_red (d : Dev) (s r : Nat) : (d.evUpdateState s r).red = d.red := evUpdateState_only d s r .red (by decide)
@[simp] theorem Dev.evUpdateState_mir (d : Dev) (s r : Nat) : (d.evUpdateState s r).mir = d.mir := evUpdateState_only d s r .mir (by decide)
@[simp] theorem Dev.evUpdateState_redch (d : Dev) (s r : Nat) : (d.evUpdateState s r).redch = d.redch := evUpdateState_only d s r .redch (by decide)
@[simp] theorem Dev.evUpdateState_meas (d : Dev) (s r : Nat) : (d.evUpdateState s r).meas = d.meas := evUpdateState_only d s r .meas (by decide)
@[simp] theorem Dev.evUpdateState_power (d : Dev) (s r : Nat) : (d.evUpdateState s r).power = d.power := evUpdateState_only d s r .power (by decide)
@[simp] theorem Dev.evUpdateState_pav (d : Dev) (s r : Nat) : (d.evUpdateState s r).pav = d.pav := evUpdateState_only d s r .pav (by decide)
@[simp] theorem Dev.evUpdateState_otdr (d : Dev) (s r : Nat) : (d.evUpdateState s r).otdr = d.otdr := evUpdateState_only d s r .otdr (by decide)
@[simp] theorem Dev.evUpdateState_upd (d : Dev) (s r : Nat) : (d.evUpdateState s r).upd = d.upd := evUpdateState_only d s r .upd (by decide)

theorem evOtdrDone_only (d : Dev) (t n : Nat) : Only [.funcs, .out] d (d.evOtdrDone t n) := event_only _ _ _ _ _
@[simp] theorem Dev.evOtdrDone_draws (d : Dev) (t n : Nat) : (d.evOtdrDone t n).draws = d.draws := evOtdrDone_only d t n .draws (by decide)
@[simp] theorem Dev.evOtdrDone_boot (d : Dev) (t n : Nat) : (d.evOtdrDone t n).boot = d.boot := evOtdrDone_only d t n .boot (by decide)
@[simp] theorem Dev.evOtdrDone_fuses (d : Dev) (t n : Nat) : (d.evOtdrDone t n).fuses = d.fuses := evOtdrDone_only d t n .fuses (by decide)
@[simp] theorem Dev.evOtdrDone_image (d : Dev) (t n : Nat) : (d.evOtdrDone t n).image = d.image := evOtdrDone_only d t n .image (by decide)
@[simp] theorem Dev.evOtdrDone_pins (d : Dev) (t n : Nat) : (d.evOtdrDone t n).pins = d.pins := evOtdrDone_only d t n .pins (by decide)
@[simp] theorem Dev.evOtdrDone_time (d : Dev) (t n : Nat) : (d.evOtdrDone t n).time = d.time := evOtdrDone_only d t n .time (by decide)
@[simp] theorem Dev.evOtdrDone_pcie (d : Dev) (t n : Nat) : (d.evOtdrDone t n).pcie = d.pcie := evOtdrDone_only d t n .pcie (by decide)
@[simp] theorem Dev.evOtdrDone_regs (d : Dev) (t n : Nat) : (d.evOtdrDone t n).regs = d.regs := evOtdrDone_only d t n .regs (by decide)
@[simp] theorem Dev.evOtdrDone_ctrs (d : Dev) (t n : Nat) : (d.evOtdrDone t n).ctrs = d.ctrs := evOtdrDone_only d t n .ctrs (by decide)
@[simp] theorem Dev.evOtdrDone_live (d : Dev) (t n : Nat) : (d.evOtdrDone t n).live = d.live := evOtdrDone_only d t n .live (by decide)
@[simp] theorem Dev.evOtdrDone_due (d : Dev) (t n : Nat) : (d.evOtdrDone t n).due = d.due := evOtdrDone_only d t n .due (by decide)
@[simp] theorem Dev.evOtdrDone_round (d : Dev) (t n : Nat) : (d.evOtdrDone t n).round = d.round := evOtdrDone_only d t n .round (by decide)
@[simp] theorem Dev.evOtdrDone_daeLogged (d : Dev) (t n : Nat) : (d.evOtdrDone t n).daeLogged = d.daeLogged := evOtdrDone_only d t n .daeLogged (by decide)
@[simp] theorem Dev.evOtdrDone_pon (d : Dev) (t n : Nat) : (d.evOtdrDone t n).pon = d.pon := evOtdrDone_only d t n .pon (by decide)
@[simp] theorem Dev.evOtdrDone_data (d : Dev) (t n : Nat) : (d.evOtdrDone t n).data = d.data := evOtdrDone_only d t n .data (by decide)
@[simp] theorem Dev.evOtdrDone_red (d : Dev) (t n : Nat) : (d.evOtdrDone t n).red = d.red := evOtdrDone_only d t n .red (by decide)
@[simp] theorem Dev.evOtdrDone_mir (d : Dev) (t n : Nat) : (d.evOtdrDone t n).mir = d.mir := evOtdrDone_only d t n .mir (by decide)
@[simp] theorem Dev.evOtdrDone_redch (d : Dev) (t n : Nat) : (d.evOtdrDone t n).redch = d.redch := evOtdrDone_only d t n .redch (by decide)
@[simp] theorem Dev.evOtdrDone_meas (d : Dev) (t n : Nat) : (d.evOtdrDone t n).meas = d.meas := evOtdrDone_only d t n .meas (by decide)
@[simp] theorem Dev.evOtdrDone_power (d : Dev) (t n : Nat) : (d.evOtdrDone t n).power = d.power := evOtdrDone_only d t n .power (by decide)
@[simp] theorem Dev.evOtdrDone_pav (d : Dev) (t n : Nat) : (d.evOtdrDone t n).pav = d.pav := evOtdrDone_only d t n .pav (by decide)
@[simp] theorem Dev.evOtdrDone_otdr (d : Dev) (t n : Nat) : (d.evOtdrDone t n).otdr = d.otdr := evOtdrDone_only d t n .otdr (by decide)
@[simp] theorem Dev.evOtdrDone_upd (d : Dev) (t n : Nat) : (d.evOtdrDone t n).upd = d.upd := evOtdrDone_only d t n .upd (by decide)

theorem evSensorAlarm_only (d : Dev) (x s v : Nat) : Only [.funcs, .out] d (d.evSensorAlarm x s v) := event_only _ _ _ _ _
@[simp] theorem Dev.evSensorAlarm_draws (d : Dev) (x s v : Nat) : (d.evSensorAlarm x s v).draws = d.draws := evSensorAlarm_only d x s v .draws (by decide)
@[simp] theorem Dev.evSensorAlarm_boot (d : Dev) (x s v : Nat) : (d.evSensorAlarm x s v).boot = d.boot := evSensorAlarm_only d x s v .boot (by decide)
@[simp] theorem Dev.evSensorAlarm_fuses (d : Dev) (x s v : Nat) : (d.evSensorAlarm x s v).fuses = d.fuses := evSensorAlarm_only d x s v .fuses (by decide)
@[simp] theorem Dev.evSensorAlarm_image (d : Dev) (x s v : Nat) : (d.evSensorAlarm x s v).image = d.image := evSensorAlarm_only d x s v .image (by decide)
@[simp] theorem Dev.evSensorAlarm_pins (d : Dev) (x s v : Nat) : (d.evSensorAlarm x s v).pins = d.pins := evSensorAlarm_only d x s v .pins (by decide)
@[simp] theorem Dev.evSensorAlarm_time (d : Dev) (x s v : Nat) : (d.evSensorAlarm x s v).time = d.time := evSensorAlarm_only d x s v .time (by decide)
@[simp] theorem Dev.evSensorAlarm_pcie (d : Dev) (x s v : Nat) : (d.evSensorAlarm x s v).pcie = d.pcie := evSensorAlarm_only d x s v .pcie (by decide)
@[simp] theorem Dev.evSensorAlarm_regs (d : Dev) (x s v : Nat) : (d.evSensorAlarm x s v).regs = d.regs := evSensorAlarm_only d x s v .regs (by decide)
@[simp] theorem Dev.evSensorAlarm_ctrs (d : Dev) (x s v : Nat) : (d.evSensorAlarm x s v).ctrs = d.ctrs := evSensorAlarm_only d x s v .ctrs (by decide)
@[simp] theorem Dev.evSensorAlarm_live (d : Dev) (x s v : Nat) : (d.evSensorAlarm x s v).live = d.live := evSensorAlarm_only d x s v .live (by decide)
@[simp] theorem Dev.evSensorAlarm_due (d : Dev) (x s v : Nat) : (d.evSensorAlarm x s v).due = d.due := evSensorAlarm_only d x s v .due (by decide)
@[simp] theorem Dev.evSensorAlarm_round (d : Dev) (x s v : Nat) : (d.evSensorAlarm x s v).round = d.round := evSensorAlarm_only d x s v .round (by decide)
@[simp] theorem Dev.evSensorAlarm_daeLogged (d : Dev) (x s v : Nat) : (d.evSensorAlarm x s v).daeLogged = d.daeLogged := evSensorAlarm_only d x s v .daeLogged (by decide)
@[simp] theorem Dev.evSensorAlarm_pon (d : Dev) (x s v : Nat) : (d.evSensorAlarm x s v).pon = d.pon := evSensorAlarm_only d x s v .pon (by decide)
@[simp] theorem Dev.evSensorAlarm_data (d : Dev) (x s v : Nat) : (d.evSensorAlarm x s v).data = d.data := evSensorAlarm_only d x s v .data (by decide)
@[simp] theorem Dev.evSensorAlarm_red (d : Dev) (x s v : Nat) : (d.evSensorAlarm x s v).red = d.red := evSensorAlarm_only d x s v .red (by decide)
@[simp] theorem Dev.evSensorAlarm_mir (d : Dev) (x s v : Nat) : (d.evSensorAlarm x s v).mir = d.mir := evSensorAlarm_only d x s v .mir (by decide)
@[simp] theorem Dev.evSensorAlarm_redch (d : Dev) (x s v : Nat) : (d.evSensorAlarm x s v).redch = d.redch := evSensorAlarm_only d x s v .redch (by decide)
@[simp] theorem Dev.evSensorAlarm_meas (d : Dev) (x s v : Nat) : (d.evSensorAlarm x s v).meas = d.meas := evSensorAlarm_only d x s v .meas (by decide)
@[simp] theorem Dev.evSensorAlarm_power (d : Dev) (x s v : Nat) : (d.evSensorAlarm x s v).power = d.power := evSensorAlarm_only d x s v .power (by decide)
@[simp] theorem Dev.evSensorAlarm_pav (d : Dev) (x s v : Nat) : (d.evSensorAlarm x s v).pav = d.pav := evSensorAlarm_only d x s v .pav (by decide)
@[simp] theorem Dev.evSensorAlarm_otdr (d : Dev) (x s v : Nat) : (d.evSensorAlarm x s v).otdr = d.otdr := evSensorAlarm_only d x s v .otdr (by decide)
@[simp] theorem Dev.evSensorAlarm_upd (d : Dev) (x s v : Nat) : (d.evSensorAlarm x s v).upd = d.upd := evSensorAlarm_only d x s v .upd (by decide)

theorem evKeyRollDone_only (d : Dev) (o c r : Nat) : Only [.funcs, .out] d (d.evKeyRollDone o c r) := event_only _ _ _ _ _
@[simp] theorem Dev.evKeyRollDone_draws (d : Dev) (o c r : Nat) : (d.evKeyRollDone o c r).draws = d.draws := evKeyRollDone_only d o c r .draws (by decide)
@[simp] theorem Dev.evKeyRollDone_boot (d : Dev) (o c r : Nat) : (d.evKeyRollDone o c r).boot = d.boot := evKeyRollDone_only d o c r .boot (by decide)
@[simp] theorem Dev.evKeyRollDone_fuses (d : Dev) (o c r : Nat) : (d.evKeyRollDone o c r).fuses = d.fuses := evKeyRollDone_only d o c r .fuses (by decide)
@[simp] theorem Dev.evKeyRollDone_image (d : Dev) (o c r : Nat) : (d.evKeyRollDone o c r).image = d.image := evKeyRollDone_only d o c r .image (by decide)
@[simp] theorem Dev.evKeyRollDone_pins (d : Dev) (o c r : Nat) : (d.evKeyRollDone o c r).pins = d.pins := evKeyRollDone_only d o c r .pins (by decide)
@[simp] theorem Dev.evKeyRollDone_time (d : Dev) (o c r : Nat) : (d.evKeyRollDone o c r).time = d.time := evKeyRollDone_only d o c r .time (by decide)
@[simp] theorem Dev.evKeyRollDone_pcie (d : Dev) (o c r : Nat) : (d.evKeyRollDone o c r).pcie = d.pcie := evKeyRollDone_only d o c r .pcie (by decide)
@[simp] theorem Dev.evKeyRollDone_regs (d : Dev) (o c r : Nat) : (d.evKeyRollDone o c r).regs = d.regs := evKeyRollDone_only d o c r .regs (by decide)
@[simp] theorem Dev.evKeyRollDone_ctrs (d : Dev) (o c r : Nat) : (d.evKeyRollDone o c r).ctrs = d.ctrs := evKeyRollDone_only d o c r .ctrs (by decide)
@[simp] theorem Dev.evKeyRollDone_live (d : Dev) (o c r : Nat) : (d.evKeyRollDone o c r).live = d.live := evKeyRollDone_only d o c r .live (by decide)
@[simp] theorem Dev.evKeyRollDone_due (d : Dev) (o c r : Nat) : (d.evKeyRollDone o c r).due = d.due := evKeyRollDone_only d o c r .due (by decide)
@[simp] theorem Dev.evKeyRollDone_round (d : Dev) (o c r : Nat) : (d.evKeyRollDone o c r).round = d.round := evKeyRollDone_only d o c r .round (by decide)
@[simp] theorem Dev.evKeyRollDone_daeLogged (d : Dev) (o c r : Nat) : (d.evKeyRollDone o c r).daeLogged = d.daeLogged := evKeyRollDone_only d o c r .daeLogged (by decide)
@[simp] theorem Dev.evKeyRollDone_pon (d : Dev) (o c r : Nat) : (d.evKeyRollDone o c r).pon = d.pon := evKeyRollDone_only d o c r .pon (by decide)
@[simp] theorem Dev.evKeyRollDone_data (d : Dev) (o c r : Nat) : (d.evKeyRollDone o c r).data = d.data := evKeyRollDone_only d o c r .data (by decide)
@[simp] theorem Dev.evKeyRollDone_red (d : Dev) (o c r : Nat) : (d.evKeyRollDone o c r).red = d.red := evKeyRollDone_only d o c r .red (by decide)
@[simp] theorem Dev.evKeyRollDone_mir (d : Dev) (o c r : Nat) : (d.evKeyRollDone o c r).mir = d.mir := evKeyRollDone_only d o c r .mir (by decide)
@[simp] theorem Dev.evKeyRollDone_redch (d : Dev) (o c r : Nat) : (d.evKeyRollDone o c r).redch = d.redch := evKeyRollDone_only d o c r .redch (by decide)
@[simp] theorem Dev.evKeyRollDone_meas (d : Dev) (o c r : Nat) : (d.evKeyRollDone o c r).meas = d.meas := evKeyRollDone_only d o c r .meas (by decide)
@[simp] theorem Dev.evKeyRollDone_power (d : Dev) (o c r : Nat) : (d.evKeyRollDone o c r).power = d.power := evKeyRollDone_only d o c r .power (by decide)
@[simp] theorem Dev.evKeyRollDone_pav (d : Dev) (o c r : Nat) : (d.evKeyRollDone o c r).pav = d.pav := evKeyRollDone_only d o c r .pav (by decide)
@[simp] theorem Dev.evKeyRollDone_otdr (d : Dev) (o c r : Nat) : (d.evKeyRollDone o c r).otdr = d.otdr := evKeyRollDone_only d o c r .otdr (by decide)
@[simp] theorem Dev.evKeyRollDone_upd (d : Dev) (o c r : Nat) : (d.evKeyRollDone o c r).upd = d.upd := evKeyRollDone_only d o c r .upd (by decide)

theorem setLimit_only (d : Dev) (k : List Nat) : Only [.pav] d (d.setLimit k) := onPav_only _ _
@[simp] theorem Dev.setLimit_draws (d : Dev) (k : List Nat) : (d.setLimit k).draws = d.draws := setLimit_only d k .draws (by decide)
@[simp] theorem Dev.setLimit_out (d : Dev) (k : List Nat) : (d.setLimit k).out = d.out := setLimit_only d k .out (by decide)
@[simp] theorem Dev.setLimit_boot (d : Dev) (k : List Nat) : (d.setLimit k).boot = d.boot := setLimit_only d k .boot (by decide)
@[simp] theorem Dev.setLimit_fuses (d : Dev) (k : List Nat) : (d.setLimit k).fuses = d.fuses := setLimit_only d k .fuses (by decide)
@[simp] theorem Dev.setLimit_image (d : Dev) (k : List Nat) : (d.setLimit k).image = d.image := setLimit_only d k .image (by decide)
@[simp] theorem Dev.setLimit_pins (d : Dev) (k : List Nat) : (d.setLimit k).pins = d.pins := setLimit_only d k .pins (by decide)
@[simp] theorem Dev.setLimit_time (d : Dev) (k : List Nat) : (d.setLimit k).time = d.time := setLimit_only d k .time (by decide)
@[simp] theorem Dev.setLimit_pcie (d : Dev) (k : List Nat) : (d.setLimit k).pcie = d.pcie := setLimit_only d k .pcie (by decide)
@[simp] theorem Dev.setLimit_funcs (d : Dev) (k : List Nat) : (d.setLimit k).funcs = d.funcs := setLimit_only d k .funcs (by decide)
@[simp] theorem Dev.setLimit_regs (d : Dev) (k : List Nat) : (d.setLimit k).regs = d.regs := setLimit_only d k .regs (by decide)
@[simp] theorem Dev.setLimit_ctrs (d : Dev) (k : List Nat) : (d.setLimit k).ctrs = d.ctrs := setLimit_only d k .ctrs (by decide)
@[simp] theorem Dev.setLimit_live (d : Dev) (k : List Nat) : (d.setLimit k).live = d.live := setLimit_only d k .live (by decide)
@[simp] theorem Dev.setLimit_due (d : Dev) (k : List Nat) : (d.setLimit k).due = d.due := setLimit_only d k .due (by decide)
@[simp] theorem Dev.setLimit_round (d : Dev) (k : List Nat) : (d.setLimit k).round = d.round := setLimit_only d k .round (by decide)
@[simp] theorem Dev.setLimit_daeLogged (d : Dev) (k : List Nat) : (d.setLimit k).daeLogged = d.daeLogged := setLimit_only d k .daeLogged (by decide)
@[simp] theorem Dev.setLimit_pon (d : Dev) (k : List Nat) : (d.setLimit k).pon = d.pon := setLimit_only d k .pon (by decide)
@[simp] theorem Dev.setLimit_data (d : Dev) (k : List Nat) : (d.setLimit k).data = d.data := setLimit_only d k .data (by decide)
@[simp] theorem Dev.setLimit_red (d : Dev) (k : List Nat) : (d.setLimit k).red = d.red := setLimit_only d k .red (by decide)
@[simp] theorem Dev.setLimit_mir (d : Dev) (k : List Nat) : (d.setLimit k).mir = d.mir := setLimit_only d k .mir (by decide)
@[simp] theorem Dev.setLimit_redch (d : Dev) (k : List Nat) : (d.setLimit k).redch = d.redch := setLimit_only d k .redch (by decide)
@[simp] theorem Dev.setLimit_meas (d : Dev) (k : List Nat) : (d.setLimit k).meas = d.meas := setLimit_only d k .meas (by decide)
@[simp] theorem Dev.setLimit_power (d : Dev) (k : List Nat) : (d.setLimit k).power = d.power := setLimit_only d k .power (by decide)
@[simp] theorem Dev.setLimit_otdr (d : Dev) (k : List Nat) : (d.setLimit k).otdr = d.otdr := setLimit_only d k .otdr (by decide)
@[simp] theorem Dev.setLimit_upd (d : Dev) (k : List Nat) : (d.setLimit k).upd = d.upd := setLimit_only d k .upd (by decide)

theorem offerUnit_only (d : Dev) (r : Nat) (u : Bytes) : Only [.ctrs, .data] d (d.offerUnit r u) := by
  unfold Dev.offerUnit
  exact Only.ite (bump_only _ _ _).to (onData_only _ _).to
@[simp] theorem Dev.offerUnit_draws (d : Dev) (r : Nat) (u : Bytes) : (d.offerUnit r u).draws = d.draws := offerUnit_only d r u .draws (by decide)
@[simp] theorem Dev.offerUnit_out (d : Dev) (r : Nat) (u : Bytes) : (d.offerUnit r u).out = d.out := offerUnit_only d r u .out (by decide)
@[simp] theorem Dev.offerUnit_boot (d : Dev) (r : Nat) (u : Bytes) : (d.offerUnit r u).boot = d.boot := offerUnit_only d r u .boot (by decide)
@[simp] theorem Dev.offerUnit_fuses (d : Dev) (r : Nat) (u : Bytes) : (d.offerUnit r u).fuses = d.fuses := offerUnit_only d r u .fuses (by decide)
@[simp] theorem Dev.offerUnit_image (d : Dev) (r : Nat) (u : Bytes) : (d.offerUnit r u).image = d.image := offerUnit_only d r u .image (by decide)
@[simp] theorem Dev.offerUnit_pins (d : Dev) (r : Nat) (u : Bytes) : (d.offerUnit r u).pins = d.pins := offerUnit_only d r u .pins (by decide)
@[simp] theorem Dev.offerUnit_time (d : Dev) (r : Nat) (u : Bytes) : (d.offerUnit r u).time = d.time := offerUnit_only d r u .time (by decide)
@[simp] theorem Dev.offerUnit_pcie (d : Dev) (r : Nat) (u : Bytes) : (d.offerUnit r u).pcie = d.pcie := offerUnit_only d r u .pcie (by decide)
@[simp] theorem Dev.offerUnit_funcs (d : Dev) (r : Nat) (u : Bytes) : (d.offerUnit r u).funcs = d.funcs := offerUnit_only d r u .funcs (by decide)
@[simp] theorem Dev.offerUnit_regs (d : Dev) (r : Nat) (u : Bytes) : (d.offerUnit r u).regs = d.regs := offerUnit_only d r u .regs (by decide)
@[simp] theorem Dev.offerUnit_live (d : Dev) (r : Nat) (u : Bytes) : (d.offerUnit r u).live = d.live := offerUnit_only d r u .live (by decide)
@[simp] theorem Dev.offerUnit_due (d : Dev) (r : Nat) (u : Bytes) : (d.offerUnit r u).due = d.due := offerUnit_only d r u .due (by decide)
@[simp] theorem Dev.offerUnit_round (d : Dev) (r : Nat) (u : Bytes) : (d.offerUnit r u).round = d.round := offerUnit_only d r u .round (by decide)
@[simp] theorem Dev.offerUnit_daeLogged (d : Dev) (r : Nat) (u : Bytes) : (d.offerUnit r u).daeLogged = d.daeLogged := offerUnit_only d r u .daeLogged (by decide)
@[simp] theorem Dev.offerUnit_pon (d : Dev) (r : Nat) (u : Bytes) : (d.offerUnit r u).pon = d.pon := offerUnit_only d r u .pon (by decide)
@[simp] theorem Dev.offerUnit_red (d : Dev) (r : Nat) (u : Bytes) : (d.offerUnit r u).red = d.red := offerUnit_only d r u .red (by decide)
@[simp] theorem Dev.offerUnit_mir (d : Dev) (r : Nat) (u : Bytes) : (d.offerUnit r u).mir = d.mir := offerUnit_only d r u .mir (by decide)
@[simp] theorem Dev.offerUnit_redch (d : Dev) (r : Nat) (u : Bytes) : (d.offerUnit r u).redch = d.redch := offerUnit_only d r u .redch (by decide)
@[simp] theorem Dev.offerUnit_meas (d : Dev) (r : Nat) (u : Bytes) : (d.offerUnit r u).meas = d.meas := offerUnit_only d r u .meas (by decide)
@[simp] theorem Dev.offerUnit_power (d : Dev) (r : Nat) (u : Bytes) : (d.offerUnit r u).power = d.power := offerUnit_only d r u .power (by decide)
@[simp] theorem Dev.offerUnit_pav (d : Dev) (r : Nat) (u : Bytes) : (d.offerUnit r u).pav = d.pav := offerUnit_only d r u .pav (by decide)
@[simp] theorem Dev.offerUnit_otdr (d : Dev) (r : Nat) (u : Bytes) : (d.offerUnit r u).otdr = d.otdr := offerUnit_only d r u .otdr (by decide)
@[simp] theorem Dev.offerUnit_upd (d : Dev) (r : Nat) (u : Bytes) : (d.offerUnit r u).upd = d.upd := offerUnit_only d r u .upd (by decide)

theorem log_only (d : Dev) (c s : Nat) (b : Bytes) : Only [.pav, .ctrs, .data, .regs, .funcs, .out] d (d.log c s b) := by
  have hw : ∀ (d : Dev) (u v n : Nat) (l : List (Nat × Nat × Bytes × Nat × Nat)),
      Only [.pav, .ctrs, .data, .regs, .funcs, .out] d (Dev.log.write c s b d u v n l) := by
    intro d u v n l
    unfold Dev.log.write
    refine Only.ite (Only.trans ?_ (pavCauseSet_only _ _).to) ?_ <;>
      exact (onPav_only _ _).to.trans (offerUnit_only _ _ _).to
  unfold Dev.log
  dsimp only
  split
  · exact Only.ite (onPav_only _ _).to (hw _ _ _ _ _)
  · exact hw _ _ _ _ _
@[simp] theorem Dev.log_draws (d : Dev) (c s : Nat) (b : Bytes) : (d.log c s b).draws = d.draws := log_only d c s b .draws (by decide)
@[simp] theorem Dev.log_boot (d : Dev) (c s : Nat) (b : Bytes) : (d.log c s b).boot = d.boot := log_only d c s b .boot (by decide)
@[simp] theorem Dev.log_fuses (d : Dev) (c s : Nat) (b : Bytes) : (d.log c s b).fuses = d.fuses := log_only d c s b .fuses (by decide)
@[simp] theorem Dev.log_image (d : Dev) (c s : Nat) (b : Bytes) : (d.log c s b).image = d.image := log_only d c s b .image (by decide)
@[simp] theorem Dev.log_pins (d : Dev) (c s : Nat) (b : Bytes) : (d.log c s b).pins = d.pins := log_only d c s b .pins (by decide)
@[simp] theorem Dev.log_time (d : Dev) (c s : Nat) (b : Bytes) : (d.log c s b).time = d.time := log_only d c s b .time (by decide)
@[simp] theorem Dev.log_pcie (d : Dev) (c s : Nat) (b : Bytes) : (d.log c s b).pcie = d.pcie := log_only d c s b .pcie (by decide)
@[simp] theorem Dev.log_live (d : Dev) (c s : Nat) (b : Bytes) : (d.log c s b).live = d.live := log_only d c s b .live (by decide)
@[simp] theorem Dev.log_due (d : Dev) (c s : Nat) (b : Bytes) : (d.log c s b).due = d.due := log_only d c s b .due (by decide)
@[simp] theorem Dev.log_round (d : Dev) (c s : Nat) (b : Bytes) : (d.log c s b).round = d.round := log_only d c s b .round (by decide)
@[simp] theorem Dev.log_daeLogged (d : Dev) (c s : Nat) (b : Bytes) : (d.log c s b).daeLogged = d.daeLogged := log_only d c s b .daeLogged (by decide)
@[simp] theorem Dev.log_pon (d : Dev) (c s : Nat) (b : Bytes) : (d.log c s b).pon = d.pon := log_only d c s b .pon (by decide)
@[simp] theorem Dev.log_red (d : Dev) (c s : Nat) (b : Bytes) : (d.log c s b).red = d.red := log_only d c s b .red (by decide)
@[simp] theorem Dev.log_mir (d : Dev) (c s : Nat) (b : Bytes) : (d.log c s b).mir = d.mir := log_only d c s b .mir (by decide)
@[simp] theorem Dev.log_redch (d : Dev) (c s : Nat) (b : Bytes) : (d.log c s b).redch = d.redch := log_only d c s b .redch (by decide)
@[simp] theorem Dev.log_meas (d : Dev) (c s : Nat) (b : Bytes) : (d.log c s b).meas = d.meas := log_only d c s b .meas (by decide)
@[simp] theorem Dev.log_power (d : Dev) (c s : Nat) (b : Bytes) : (d.log c s b).power = d.power := log_only d c s b .power (by decide)
@[simp] theorem Dev.log_otdr (d : Dev) (c s : Nat) (b : Bytes) : (d.log c s b).otdr = d.otdr := log_only d c s b .otdr (by decide)
@[simp] theorem Dev.log_upd (d : Dev) (c s : Nat) (b : Bytes) : (d.log c s b).upd = d.upd := log_only d c s b .upd (by decide)

theorem perfWrap_only (d : Dev) (x j c : Nat) : Only [.regs, .funcs, .out] d (d.perfWrap x j c) := by
  unfold Dev.perfWrap
  exact Only.ite ((setBit_only _ _ _ _).to.trans (perfCauseSet_only _ _)) (setBit_only _ _ _ _).to
@[simp] theorem Dev.perfWrap_draws (d : Dev) (x j c : Nat) : (d.perfWrap x j c).draws = d.draws := perfWrap_only d x j c .draws (by decide)
@[simp] theorem Dev.perfWrap_boot (d : Dev) (x j c : Nat) : (d.perfWrap x j c).boot = d.boot := perfWrap_only d x j c .boot (by decide)
@[simp] theorem Dev.perfWrap_fuses (d : Dev) (x j c : Nat) : (d.perfWrap x j c).fuses = d.fuses := perfWrap_only d x j c .fuses (by decide)
@[simp] theorem Dev.perfWrap_image (d : Dev) (x j c : Nat) : (d.perfWrap x j c).image = d.image := perfWrap_only d x j c .image (by decide)
@[simp] theorem Dev.perfWrap_pins (d : Dev) (x j c : Nat) : (d.perfWrap x j c).pins = d.pins := perfWrap_only d x j c .pins (by decide)
@[simp] theorem Dev.perfWrap_time (d : Dev) (x j c : Nat) : (d.perfWrap x j c).time = d.time := perfWrap_only d x j c .time (by decide)
@[simp] theorem Dev.perfWrap_pcie (d : Dev) (x j c : Nat) : (d.perfWrap x j c).pcie = d.pcie := perfWrap_only d x j c .pcie (by decide)
@[simp] theorem Dev.perfWrap_ctrs (d : Dev) (x j c : Nat) : (d.perfWrap x j c).ctrs = d.ctrs := perfWrap_only d x j c .ctrs (by decide)
@[simp] theorem Dev.perfWrap_live (d : Dev) (x j c : Nat) : (d.perfWrap x j c).live = d.live := perfWrap_only d x j c .live (by decide)
@[simp] theorem Dev.perfWrap_due (d : Dev) (x j c : Nat) : (d.perfWrap x j c).due = d.due := perfWrap_only d x j c .due (by decide)
@[simp] theorem Dev.perfWrap_round (d : Dev) (x j c : Nat) : (d.perfWrap x j c).round = d.round := perfWrap_only d x j c .round (by decide)
@[simp] theorem Dev.perfWrap_daeLogged (d : Dev) (x j c : Nat) : (d.perfWrap x j c).daeLogged = d.daeLogged := perfWrap_only d x j c .daeLogged (by decide)
@[simp] theorem Dev.perfWrap_pon (d : Dev) (x j c : Nat) : (d.perfWrap x j c).pon = d.pon := perfWrap_only d x j c .pon (by decide)
@[simp] theorem Dev.perfWrap_data (d : Dev) (x j c : Nat) : (d.perfWrap x j c).data = d.data := perfWrap_only d x j c .data (by decide)
@[simp] theorem Dev.perfWrap_red (d : Dev) (x j c : Nat) : (d.perfWrap x j c).red = d.red := perfWrap_only d x j c .red (by decide)
@[simp] theorem Dev.perfWrap_mir (d : Dev) (x j c : Nat) : (d.perfWrap x j c).mir = d.mir := perfWrap_only d x j c .mir (by decide)
@[simp] theorem Dev.perfWrap_redch (d : Dev) (x j c : Nat) : (d.perfWrap x j c).redch = d.redch := perfWrap_only d x j c .redch (by decide)
@[simp] theorem Dev.perfWrap_meas (d : Dev) (x j c : Nat) : (d.perfWrap x j c).meas = d.meas := perfWrap_only d x j c .meas (by decide)
@[simp] theorem Dev.perfWrap_power (d : Dev) (x j c : Nat) : (d.perfWrap x j c).power = d.power := perfWrap_only d x j c .power (by decide)
@[simp] theorem Dev.perfWrap_pav (d : Dev) (x j c : Nat) : (d.perfWrap x j c).pav = d.pav := perfWrap_only d x j c .pav (by decide)
@[simp] theorem Dev.perfWrap_otdr (d : Dev) (x j c : Nat) : (d.perfWrap x j c).otdr = d.otdr := perfWrap_only d x j c .otdr (by decide)
@[simp] theorem Dev.perfWrap_upd (d : Dev) (x j c : Nat) : (d.perfWrap x j c).upd = d.upd := perfWrap_only d x j c .upd (by decide)

theorem perfAdd_only (d : Dev) (x k j n : Nat) : Only [.meas, .regs, .funcs, .out] d (d.perfAdd x k j n) := by
  induction k generalizing d j n with
  | zero => exact Only.refl _ _
  | succ k ih =>
    unfold Dev.perfAdd
    dsimp only
    refine Only.ite (Only.refl _ _) (Only.ite (onMeas_only _ _).to (Only.ite ?_ ?_))
    · exact (onMeas_only _ _).to.trans (ih _ _ _)
    · exact (onMeas_only _ _).to.trans (perfWrap_only _ _ _ _).to

theorem perf_only (d : Dev) (x e n : Nat) (l : Ids) : Only [.meas, .regs, .funcs, .out] d (d.perf x e n l) := by
  unfold Dev.perf
  refine Only.ite (Only.foldl (fun d x => ?_) _ _) (Only.refl _ _)
  exact Only.ite (perfAdd_only _ _ _ _ _) (Only.refl _ _)
@[simp] theorem Dev.perf_draws (d : Dev) (x e n : Nat) (l : Ids) : (d.perf x e n l).draws = d.draws := perf_only d x e n l .draws (by decide)
@[simp] theorem Dev.perf_boot (d : Dev) (x e n : Nat) (l : Ids) : (d.perf x e n l).boot = d.boot := perf_only d x e n l .boot (by decide)
@[simp] theorem Dev.perf_fuses (d : Dev) (x e n : Nat) (l : Ids) : (d.perf x e n l).fuses = d.fuses := perf_only d x e n l .fuses (by decide)
@[simp] theorem Dev.perf_image (d : Dev) (x e n : Nat) (l : Ids) : (d.perf x e n l).image = d.image := perf_only d x e n l .image (by decide)
@[simp] theorem Dev.perf_pins (d : Dev) (x e n : Nat) (l : Ids) : (d.perf x e n l).pins = d.pins := perf_only d x e n l .pins (by decide)
@[simp] theorem Dev.perf_time (d : Dev) (x e n : Nat) (l : Ids) : (d.perf x e n l).time = d.time := perf_only d x e n l .time (by decide)
@[simp] theorem Dev.perf_pcie (d : Dev) (x e n : Nat) (l : Ids) : (d.perf x e n l).pcie = d.pcie := perf_only d x e n l .pcie (by decide)
@[simp] theorem Dev.perf_ctrs (d : Dev) (x e n : Nat) (l : Ids) : (d.perf x e n l).ctrs = d.ctrs := perf_only d x e n l .ctrs (by decide)
@[simp] theorem Dev.perf_live (d : Dev) (x e n : Nat) (l : Ids) : (d.perf x e n l).live = d.live := perf_only d x e n l .live (by decide)
@[simp] theorem Dev.perf_due (d : Dev) (x e n : Nat) (l : Ids) : (d.perf x e n l).due = d.due := perf_only d x e n l .due (by decide)
@[simp] theorem Dev.perf_round (d : Dev) (x e n : Nat) (l : Ids) : (d.perf x e n l).round = d.round := perf_only d x e n l .round (by decide)
@[simp] theorem Dev.perf_daeLogged (d : Dev) (x e n : Nat) (l : Ids) : (d.perf x e n l).daeLogged = d.daeLogged := perf_only d x e n l .daeLogged (by decide)
@[simp] theorem Dev.perf_pon (d : Dev) (x e n : Nat) (l : Ids) : (d.perf x e n l).pon = d.pon := perf_only d x e n l .pon (by decide)
@[simp] theorem Dev.perf_data (d : Dev) (x e n : Nat) (l : Ids) : (d.perf x e n l).data = d.data := perf_only d x e n l .data (by decide)
@[simp] theorem Dev.perf_red (d : Dev) (x e n : Nat) (l : Ids) : (d.perf x e n l).red = d.red := perf_only d x e n l .red (by decide)
@[simp] theorem Dev.perf_mir (d : Dev) (x e n : Nat) (l : Ids) : (d.perf x e n l).mir = d.mir := perf_only d x e n l .mir (by decide)
@[simp] theorem Dev.perf_redch (d : Dev) (x e n : Nat) (l : Ids) : (d.perf x e n l).redch = d.redch := perf_only d x e n l .redch (by decide)
@[simp] theorem Dev.perf_power (d : Dev) (x e n : Nat) (l : Ids) : (d.perf x e n l).power = d.power := perf_only d x e n l .power (by decide)
@[simp] theorem Dev.perf_pav (d : Dev) (x e n : Nat) (l : Ids) : (d.perf x e n l).pav = d.pav := perf_only d x e n l .pav (by decide)
@[simp] theorem Dev.perf_otdr (d : Dev) (x e n : Nat) (l : Ids) : (d.perf x e n l).otdr = d.otdr := perf_only d x e n l .otdr (by decide)
@[simp] theorem Dev.perf_upd (d : Dev) (x e n : Nat) (l : Ids) : (d.perf x e n l).upd = d.upd := perf_only d x e n l .upd (by decide)

theorem draw_only (d : Dev) : Only [.draws] d d.draw.2 := by
  intro p hp
  cases p <;> simp at hp <;> rfl

theorem drawBytes_only (d : Dev) (n : Nat) : Only [.draws] d (d.drawBytes n).2 := by
  intro p hp
  cases p <;> simp at hp <;> rfl

theorem pass_only (d : Dev) (n : Nat) : Only [.draws, .regs, .meas, .funcs, .out, .time] d (d.pass n) := by
  unfold Dev.pass
  refine Only.ite (Only.refl _ _) ?_
  dsimp only
  refine Only.trans ?_ (onTime_only _ _).to
  refine Only.trans ?_ (Only.each (fun _ _ => (perf_only _ _ _ _ _).to) _ _)
  split <;> first
    | exact Only.refl _ _
    | exact (setBit_only _ _ _ _).to
    | exact (draw_only _).to
    | exact (draw_only _).to.trans (setBit_only _ _ _ _).to
@[simp] theorem Dev.pass_boot (d : Dev) (n : Nat) : (d.pass n).boot = d.boot := pass_only d n .boot (by decide)
@[simp] theorem Dev.pass_fuses (d : Dev) (n : Nat) : (d.pass n).fuses = d.fuses := pass_only d n .fuses (by decide)
@[simp] theorem Dev.pass_image (d : Dev) (n : Nat) : (d.pass n).image = d.image := pass_only d n .image (by decide)
@[simp] theorem Dev.pass_pins (d : Dev) (n : Nat) : (d.pass n).pins = d.pins := pass_only d n .pins (by decide)
@[simp] theorem Dev.pass_pcie (d : Dev) (n : Nat) : (d.pass n).pcie = d.pcie := pass_only d n .pcie (by decide)
@[simp] theorem Dev.pass_ctrs (d : Dev) (n : Nat) : (d.pass n).ctrs = d.ctrs := pass_only d n .ctrs (by decide)
@[simp] theorem Dev.pass_live (d : Dev) (n : Nat) : (d.pass n).live = d.live := pass_only d n .live (by decide)
@[simp] theorem Dev.pass_due (d : Dev) (n : Nat) : (d.pass n).due = d.due := pass_only d n .due (by decide)
@[simp] theorem Dev.pass_round (d : Dev) (n : Nat) : (d.pass n).round = d.round := pass_only d n .round (by decide)
@[simp] theorem Dev.pass_daeLogged (d : Dev) (n : Nat) : (d.pass n).daeLogged = d.daeLogged := pass_only d n .daeLogged (by decide)
@[simp] theorem Dev.pass_pon (d : Dev) (n : Nat) : (d.pass n).pon = d.pon := pass_only d n .pon (by decide)
@[simp] theorem Dev.pass_data (d : Dev) (n : Nat) : (d.pass n).data = d.data := pass_only d n .data (by decide)
@[simp] theorem Dev.pass_red (d : Dev) (n : Nat) : (d.pass n).red = d.red := pass_only d n .red (by decide)
@[simp] theorem Dev.pass_mir (d : Dev) (n : Nat) : (d.pass n).mir = d.mir := pass_only d n .mir (by decide)
@[simp] theorem Dev.pass_redch (d : Dev) (n : Nat) : (d.pass n).redch = d.redch := pass_only d n .redch (by decide)
@[simp] theorem Dev.pass_power (d : Dev) (n : Nat) : (d.pass n).power = d.power := pass_only d n .power (by decide)
@[simp] theorem Dev.pass_pav (d : Dev) (n : Nat) : (d.pass n).pav = d.pav := pass_only d n .pav (by decide)
@[simp] theorem Dev.pass_otdr (d : Dev) (n : Nat) : (d.pass n).otdr = d.otdr := pass_only d n .otdr (by decide)
@[simp] theorem Dev.pass_upd (d : Dev) (n : Nat) : (d.pass n).upd = d.upd := pass_only d n .upd (by decide)

theorem passTo_only (d : Dev) (n : Nat) : Only [.draws, .regs, .meas, .funcs, .out, .time] d (d.passTo n) := pass_only _ _
@[simp] theorem Dev.passTo_boot (d : Dev) (n : Nat) : (d.passTo n).boot = d.boot := passTo_only d n .boot (by decide)
@[simp] theorem Dev.passTo_fuses (d : Dev) (n : Nat) : (d.passTo n).fuses = d.fuses := passTo_only d n .fuses (by decide)
@[simp] theorem Dev.passTo_image (d : Dev) (n : Nat) : (d.passTo n).image = d.image := passTo_only d n .image (by decide)
@[simp] theorem Dev.passTo_pins (d : Dev) (n : Nat) : (d.passTo n).pins = d.pins := passTo_only d n .pins (by decide)
@[simp] theorem Dev.passTo_pcie (d : Dev) (n : Nat) : (d.passTo n).pcie = d.pcie := passTo_only d n .pcie (by decide)
@[simp] theorem Dev.passTo_ctrs (d : Dev) (n : Nat) : (d.passTo n).ctrs = d.ctrs := passTo_only d n .ctrs (by decide)
@[simp] theorem Dev.passTo_live (d : Dev) (n : Nat) : (d.passTo n).live = d.live := passTo_only d n .live (by decide)
@[simp] theorem Dev.passTo_due (d : Dev) (n : Nat) : (d.passTo n).due = d.due := passTo_only d n .due (by decide)
@[simp] theorem Dev.passTo_round (d : Dev) (n : Nat) : (d.passTo n).round = d.round := passTo_only d n .round (by decide)
@[simp] theorem Dev.passTo_daeLogged (d : Dev) (n : Nat) : (d.passTo n).daeLogged = d.daeLogged := passTo_only d n .daeLogged (by decide)
@[simp] theorem Dev.passTo_pon (d : Dev) (n : Nat) : (d.passTo n).pon = d.pon := passTo_only d n .pon (by decide)
@[simp] theorem Dev.passTo_data (d : Dev) (n : Nat) : (d.passTo n).data = d.data := passTo_only d n .data (by decide)
@[simp] theorem Dev.passTo_red (d : Dev) (n : Nat) : (d.passTo n).red = d.red := passTo_only d n .red (by decide)
@[simp] theorem Dev.passTo_mir (d : Dev) (n : Nat) : (d.passTo n).mir = d.mir := passTo_only d n .mir (by decide)
@[simp] theorem Dev.passTo_redch (d : Dev) (n : Nat) : (d.passTo n).redch = d.redch := passTo_only d n .redch (by decide)
@[simp] theorem Dev.passTo_power (d : Dev) (n : Nat) : (d.passTo n).power = d.power := passTo_only d n .power (by decide)
@[simp] theorem Dev.passTo_pav (d : Dev) (n : Nat) : (d.passTo n).pav = d.pav := passTo_only d n .pav (by decide)
@[simp] theorem Dev.passTo_otdr (d : Dev) (n : Nat) : (d.passTo n).otdr = d.otdr := passTo_only d n .otdr (by decide)
@[simp] theorem Dev.passTo_upd (d : Dev) (n : Nat) : (d.passTo n).upd = d.upd := passTo_only d n .upd (by decide)

theorem lost_only (d : Dev) (x : Nat) (p : Pkt) : Only [.meas, .regs, .funcs, .out] d (d.lost x p) := by
  unfold Dev.lost Dev.traceEnd
  split
  · exact Only.ite (perf_only _ _ _ _ _).to ((perf_only _ _ _ _ _).to.trans (onMeas_only _ _).to)
  · exact (perf_only _ _ _ _ _).to
@[simp] theorem Dev.lost_draws (d : Dev) (x : Nat) (p : Pkt) : (d.lost x p).draws = d.draws := lost_only d x p .draws (by decide)
@[simp] theorem Dev.lost_boot (d : Dev) (x : Nat) (p : Pkt) : (d.lost x p).boot = d.boot := lost_only d x p .boot (by decide)
@[simp] theorem Dev.lost_fuses (d : Dev) (x : Nat) (p : Pkt) : (d.lost x p).fuses = d.fuses := lost_only d x p .fuses (by decide)
@[simp] theorem Dev.lost_image (d : Dev) (x : Nat) (p : Pkt) : (d.lost x p).image = d.image := lost_only d x p .image (by decide)
@[simp] theorem Dev.lost_pins (d : Dev) (x : Nat) (p : Pkt) : (d.lost x p).pins = d.pins := lost_only d x p .pins (by decide)
@[simp] theorem Dev.lost_time (d : Dev) (x : Nat) (p : Pkt) : (d.lost x p).time = d.time := lost_only d x p .time (by decide)
@[simp] theorem Dev.lost_pcie (d : Dev) (x : Nat) (p : Pkt) : (d.lost x p).pcie = d.pcie := lost_only d x p .pcie (by decide)
@[simp] theorem Dev.lost_ctrs (d : Dev) (x : Nat) (p : Pkt) : (d.lost x p).ctrs = d.ctrs := lost_only d x p .ctrs (by decide)
@[simp] theorem Dev.lost_live (d : Dev) (x : Nat) (p : Pkt) : (d.lost x p).live = d.live := lost_only d x p .live (by decide)
@[simp] theorem Dev.lost_due (d : Dev) (x : Nat) (p : Pkt) : (d.lost x p).due = d.due := lost_only d x p .due (by decide)
@[simp] theorem Dev.lost_round (d : Dev) (x : Nat) (p : Pkt) : (d.lost x p).round = d.round := lost_only d x p .round (by decide)
@[simp] theorem Dev.lost_daeLogged (d : Dev) (x : Nat) (p : Pkt) : (d.lost x p).daeLogged = d.daeLogged := lost_only d x p .daeLogged (by decide)
@[simp] theorem Dev.lost_pon (d : Dev) (x : Nat) (p : Pkt) : (d.lost x p).pon = d.pon := lost_only d x p .pon (by decide)
@[simp] theorem Dev.lost_data (d : Dev) (x : Nat) (p : Pkt) : (d.lost x p).data = d.data := lost_only d x p .data (by decide)
@[simp] theorem Dev.lost_red (d : Dev) (x : Nat) (p : Pkt) : (d.lost x p).red = d.red := lost_only d x p .red (by decide)
@[simp] theorem Dev.lost_mir (d : Dev) (x : Nat) (p : Pkt) : (d.lost x p).mir = d.mir := lost_only d x p .mir (by decide)
@[simp] theorem Dev.lost_redch (d : Dev) (x : Nat) (p : Pkt) : (d.lost x p).redch = d.redch := lost_only d x p .redch (by decide)
@[simp] theorem Dev.lost_power (d : Dev) (x : Nat) (p : Pkt) : (d.lost x p).power = d.power := lost_only d x p .power (by decide)
@[simp] theorem Dev.lost_pav (d : Dev) (x : Nat) (p : Pkt) : (d.lost x p).pav = d.pav := lost_only d x p .pav (by decide)
@[simp] theorem Dev.lost_otdr (d : Dev) (x : Nat) (p : Pkt) : (d.lost x p).otdr = d.otdr := lost_only d x p .otdr (by decide)
@[simp] theorem Dev.lost_upd (d : Dev) (x : Nat) (p : Pkt) : (d.lost x p).upd = d.upd := lost_only d x p .upd (by decide)

theorem place_only (d : Dev) (c : Cmd) (m : Msg) : Only [.funcs] d (d.place c m) := onKiosk_only _ _ _
@[simp] theorem Dev.place_draws (d : Dev) (c : Cmd) (m : Msg) : (d.place c m).draws = d.draws := place_only d c m .draws (by decide)
@[simp] theorem Dev.place_out (d : Dev) (c : Cmd) (m : Msg) : (d.place c m).out = d.out := place_only d c m .out (by decide)
@[simp] theorem Dev.place_boot (d : Dev) (c : Cmd) (m : Msg) : (d.place c m).boot = d.boot := place_only d c m .boot (by decide)
@[simp] theorem Dev.place_fuses (d : Dev) (c : Cmd) (m : Msg) : (d.place c m).fuses = d.fuses := place_only d c m .fuses (by decide)
@[simp] theorem Dev.place_image (d : Dev) (c : Cmd) (m : Msg) : (d.place c m).image = d.image := place_only d c m .image (by decide)
@[simp] theorem Dev.place_pins (d : Dev) (c : Cmd) (m : Msg) : (d.place c m).pins = d.pins := place_only d c m .pins (by decide)
@[simp] theorem Dev.place_time (d : Dev) (c : Cmd) (m : Msg) : (d.place c m).time = d.time := place_only d c m .time (by decide)
@[simp] theorem Dev.place_pcie (d : Dev) (c : Cmd) (m : Msg) : (d.place c m).pcie = d.pcie := place_only d c m .pcie (by decide)
@[simp] theorem Dev.place_regs (d : Dev) (c : Cmd) (m : Msg) : (d.place c m).regs = d.regs := place_only d c m .regs (by decide)
@[simp] theorem Dev.place_ctrs (d : Dev) (c : Cmd) (m : Msg) : (d.place c m).ctrs = d.ctrs := place_only d c m .ctrs (by decide)
@[simp] theorem Dev.place_live (d : Dev) (c : Cmd) (m : Msg) : (d.place c m).live = d.live := place_only d c m .live (by decide)
@[simp] theorem Dev.place_due (d : Dev) (c : Cmd) (m : Msg) : (d.place c m).due = d.due := place_only d c m .due (by decide)
@[simp] theorem Dev.place_round (d : Dev) (c : Cmd) (m : Msg) : (d.place c m).round = d.round := place_only d c m .round (by decide)
@[simp] theorem Dev.place_daeLogged (d : Dev) (c : Cmd) (m : Msg) : (d.place c m).daeLogged = d.daeLogged := place_only d c m .daeLogged (by decide)
@[simp] theorem Dev.place_pon (d : Dev) (c : Cmd) (m : Msg) : (d.place c m).pon = d.pon := place_only d c m .pon (by decide)
@[simp] theorem Dev.place_data (d : Dev) (c : Cmd) (m : Msg) : (d.place c m).data = d.data := place_only d c m .data (by decide)
@[simp] theorem Dev.place_red (d : Dev) (c : Cmd) (m : Msg) : (d.place c m).red = d.red := place_only d c m .red (by decide)
@[simp] theorem Dev.place_mir (d : Dev) (c : Cmd) (m : Msg) : (d.place c m).mir = d.mir := place_only d c m .mir (by decide)
@[simp] theorem Dev.place_redch (d : Dev) (c : Cmd) (m : Msg) : (d.place c m).redch = d.redch := place_only d c m .redch (by decide)
@[simp] theorem Dev.place_meas (d : Dev) (c : Cmd) (m : Msg) : (d.place c m).meas = d.meas := place_only d c m .meas (by decide)
@[simp] theorem Dev.place_power (d : Dev) (c : Cmd) (m : Msg) : (d.place c m).power = d.power := place_only d c m .power (by decide)
@[simp] theorem Dev.place_pav (d : Dev) (c : Cmd) (m : Msg) : (d.place c m).pav = d.pav := place_only d c m .pav (by decide)
@[simp] theorem Dev.place_otdr (d : Dev) (c : Cmd) (m : Msg) : (d.place c m).otdr = d.otdr := place_only d c m .otdr (by decide)
@[simp] theorem Dev.place_upd (d : Dev) (c : Cmd) (m : Msg) : (d.place c m).upd = d.upd := place_only d c m .upd (by decide)

theorem fillBudget_only (d : Dev) (f : Nat) : Only [.funcs] d (d.fillBudget f) := onKiosk_only _ _ _
@[simp] theorem Dev.fillBudget_draws (d : Dev) (f : Nat) : (d.fillBudget f).draws = d.draws := fillBudget_only d f .draws (by decide)
@[simp] theorem Dev.fillBudget_out (d : Dev) (f : Nat) : (d.fillBudget f).out = d.out := fillBudget_only d f .out (by decide)
@[simp] theorem Dev.fillBudget_boot (d : Dev) (f : Nat) : (d.fillBudget f).boot = d.boot := fillBudget_only d f .boot (by decide)
@[simp] theorem Dev.fillBudget_fuses (d : Dev) (f : Nat) : (d.fillBudget f).fuses = d.fuses := fillBudget_only d f .fuses (by decide)
@[simp] theorem Dev.fillBudget_image (d : Dev) (f : Nat) : (d.fillBudget f).image = d.image := fillBudget_only d f .image (by decide)
@[simp] theorem Dev.fillBudget_pins (d : Dev) (f : Nat) : (d.fillBudget f).pins = d.pins := fillBudget_only d f .pins (by decide)
@[simp] theorem Dev.fillBudget_time (d : Dev) (f : Nat) : (d.fillBudget f).time = d.time := fillBudget_only d f .time (by decide)
@[simp] theorem Dev.fillBudget_pcie (d : Dev) (f : Nat) : (d.fillBudget f).pcie = d.pcie := fillBudget_only d f .pcie (by decide)
@[simp] theorem Dev.fillBudget_regs (d : Dev) (f : Nat) : (d.fillBudget f).regs = d.regs := fillBudget_only d f .regs (by decide)
@[simp] theorem Dev.fillBudget_ctrs (d : Dev) (f : Nat) : (d.fillBudget f).ctrs = d.ctrs := fillBudget_only d f .ctrs (by decide)
@[simp] theorem Dev.fillBudget_live (d : Dev) (f : Nat) : (d.fillBudget f).live = d.live := fillBudget_only d f .live (by decide)
@[simp] theorem Dev.fillBudget_due (d : Dev) (f : Nat) : (d.fillBudget f).due = d.due := fillBudget_only d f .due (by decide)
@[simp] theorem Dev.fillBudget_round (d : Dev) (f : Nat) : (d.fillBudget f).round = d.round := fillBudget_only d f .round (by decide)
@[simp] theorem Dev.fillBudget_daeLogged (d : Dev) (f : Nat) : (d.fillBudget f).daeLogged = d.daeLogged := fillBudget_only d f .daeLogged (by decide)
@[simp] theorem Dev.fillBudget_pon (d : Dev) (f : Nat) : (d.fillBudget f).pon = d.pon := fillBudget_only d f .pon (by decide)
@[simp] theorem Dev.fillBudget_data (d : Dev) (f : Nat) : (d.fillBudget f).data = d.data := fillBudget_only d f .data (by decide)
@[simp] theorem Dev.fillBudget_red (d : Dev) (f : Nat) : (d.fillBudget f).red = d.red := fillBudget_only d f .red (by decide)
@[simp] theorem Dev.fillBudget_mir (d : Dev) (f : Nat) : (d.fillBudget f).mir = d.mir := fillBudget_only d f .mir (by decide)
@[simp] theorem Dev.fillBudget_redch (d : Dev) (f : Nat) : (d.fillBudget f).redch = d.redch := fillBudget_only d f .redch (by decide)
@[simp] theorem Dev.fillBudget_meas (d : Dev) (f : Nat) : (d.fillBudget f).meas = d.meas := fillBudget_only d f .meas (by decide)
@[simp] theorem Dev.fillBudget_power (d : Dev) (f : Nat) : (d.fillBudget f).power = d.power := fillBudget_only d f .power (by decide)
@[simp] theorem Dev.fillBudget_pav (d : Dev) (f : Nat) : (d.fillBudget f).pav = d.pav := fillBudget_only d f .pav (by decide)
@[simp] theorem Dev.fillBudget_otdr (d : Dev) (f : Nat) : (d.fillBudget f).otdr = d.otdr := fillBudget_only d f .otdr (by decide)
@[simp] theorem Dev.fillBudget_upd (d : Dev) (f : Nat) : (d.fillBudget f).upd = d.upd := fillBudget_only d f .upd (by decide)

theorem takeToken_only (d : Dev) (f : Nat) : Only [.funcs] d (d.takeToken f) := by
  unfold Dev.takeToken
  exact Only.ite (Only.refl _ _) ((fillBudget_only _ _).trans (onKiosk_only _ _ _))
@[simp] theorem Dev.takeToken_draws (d : Dev) (f : Nat) : (d.takeToken f).draws = d.draws := takeToken_only d f .draws (by decide)
@[simp] theorem Dev.takeToken_out (d : Dev) (f : Nat) : (d.takeToken f).out = d.out := takeToken_only d f .out (by decide)
@[simp] theorem Dev.takeToken_boot (d : Dev) (f : Nat) : (d.takeToken f).boot = d.boot := takeToken_only d f .boot (by decide)
@[simp] theorem Dev.takeToken_fuses (d : Dev) (f : Nat) : (d.takeToken f).fuses = d.fuses := takeToken_only d f .fuses (by decide)
@[simp] theorem Dev.takeToken_image (d : Dev) (f : Nat) : (d.takeToken f).image = d.image := takeToken_only d f .image (by decide)
@[simp] theorem Dev.takeToken_pins (d : Dev) (f : Nat) : (d.takeToken f).pins = d.pins := takeToken_only d f .pins (by decide)
@[simp] theorem Dev.takeToken_time (d : Dev) (f : Nat) : (d.takeToken f).time = d.time := takeToken_only d f .time (by decide)
@[simp] theorem Dev.takeToken_pcie (d : Dev) (f : Nat) : (d.takeToken f).pcie = d.pcie := takeToken_only d f .pcie (by decide)
@[simp] theorem Dev.takeToken_regs (d : Dev) (f : Nat) : (d.takeToken f).regs = d.regs := takeToken_only d f .regs (by decide)
@[simp] theorem Dev.takeToken_ctrs (d : Dev) (f : Nat) : (d.takeToken f).ctrs = d.ctrs := takeToken_only d f .ctrs (by decide)
@[simp] theorem Dev.takeToken_live (d : Dev) (f : Nat) : (d.takeToken f).live = d.live := takeToken_only d f .live (by decide)
@[simp] theorem Dev.takeToken_due (d : Dev) (f : Nat) : (d.takeToken f).due = d.due := takeToken_only d f .due (by decide)
@[simp] theorem Dev.takeToken_round (d : Dev) (f : Nat) : (d.takeToken f).round = d.round := takeToken_only d f .round (by decide)
@[simp] theorem Dev.takeToken_daeLogged (d : Dev) (f : Nat) : (d.takeToken f).daeLogged = d.daeLogged := takeToken_only d f .daeLogged (by decide)
@[simp] theorem Dev.takeToken_pon (d : Dev) (f : Nat) : (d.takeToken f).pon = d.pon := takeToken_only d f .pon (by decide)
@[simp] theorem Dev.takeToken_data (d : Dev) (f : Nat) : (d.takeToken f).data = d.data := takeToken_only d f .data (by decide)
@[simp] theorem Dev.takeToken_red (d : Dev) (f : Nat) : (d.takeToken f).red = d.red := takeToken_only d f .red (by decide)
@[simp] theorem Dev.takeToken_mir (d : Dev) (f : Nat) : (d.takeToken f).mir = d.mir := takeToken_only d f .mir (by decide)
@[simp] theorem Dev.takeToken_redch (d : Dev) (f : Nat) : (d.takeToken f).redch = d.redch := takeToken_only d f .redch (by decide)
@[simp] theorem Dev.takeToken_meas (d : Dev) (f : Nat) : (d.takeToken f).meas = d.meas := takeToken_only d f .meas (by decide)
@[simp] theorem Dev.takeToken_power (d : Dev) (f : Nat) : (d.takeToken f).power = d.power := takeToken_only d f .power (by decide)
@[simp] theorem Dev.takeToken_pav (d : Dev) (f : Nat) : (d.takeToken f).pav = d.pav := takeToken_only d f .pav (by decide)
@[simp] theorem Dev.takeToken_otdr (d : Dev) (f : Nat) : (d.takeToken f).otdr = d.otdr := takeToken_only d f .otdr (by decide)
@[simp] theorem Dev.takeToken_upd (d : Dev) (f : Nat) : (d.takeToken f).upd = d.upd := takeToken_only d f .upd (by decide)

theorem consume_only (d : Dev) (f n : Nat) (r : Req) : Only [.funcs, .out] d (d.consume f n r) := by
  unfold Dev.consume
  exact (onKiosk_only _ _ _).to.trans (kioskCause_only _ _ _)
@[simp] theorem Dev.consume_draws (d : Dev) (f n : Nat) (r : Req) : (d.consume f n r).draws = d.draws := consume_only d f n r .draws (by decide)
@[simp] theorem Dev.consume_boot (d : Dev) (f n : Nat) (r : Req) : (d.consume f n r).boot = d.boot := consume_only d f n r .boot (by decide)
@[simp] theorem Dev.consume_fuses (d : Dev) (f n : Nat) (r : Req) : (d.consume f n r).fuses = d.fuses := consume_only d f n r .fuses (by decide)
@[simp] theorem Dev.consume_image (d : Dev) (f n : Nat) (r : Req) : (d.consume f n r).image = d.image := consume_only d f n r .image (by decide)
@[simp] theorem Dev.consume_pins (d : Dev) (f n : Nat) (r : Req) : (d.consume f n r).pins = d.pins := consume_only d f n r .pins (by decide)
@[simp] theorem Dev.consume_time (d : Dev) (f n : Nat) (r : Req) : (d.consume f n r).time = d.time := consume_only d f n r .time (by decide)
@[simp] theorem Dev.consume_pcie (d : Dev) (f n : Nat) (r : Req) : (d.consume f n r).pcie = d.pcie := consume_only d f n r .pcie (by decide)
@[simp] theorem Dev.consume_regs (d : Dev) (f n : Nat) (r : Req) : (d.consume f n r).regs = d.regs := consume_only d f n r .regs (by decide)
@[simp] theorem Dev.consume_ctrs (d : Dev) (f n : Nat) (r : Req) : (d.consume f n r).ctrs = d.ctrs := consume_only d f n r .ctrs (by decide)
@[simp] theorem Dev.consume_live (d : Dev) (f n : Nat) (r : Req) : (d.consume f n r).live = d.live := consume_only d f n r .live (by decide)
@[simp] theorem Dev.consume_due (d : Dev) (f n : Nat) (r : Req) : (d.consume f n r).due = d.due := consume_only d f n r .due (by decide)
@[simp] theorem Dev.consume_round (d : Dev) (f n : Nat) (r : Req) : (d.consume f n r).round = d.round := consume_only d f n r .round (by decide)
@[simp] theorem Dev.consume_daeLogged (d : Dev) (f n : Nat) (r : Req) : (d.consume f n r).daeLogged = d.daeLogged := consume_only d f n r .daeLogged (by decide)
@[simp] theorem Dev.consume_pon (d : Dev) (f n : Nat) (r : Req) : (d.consume f n r).pon = d.pon := consume_only d f n r .pon (by decide)
@[simp] theorem Dev.consume_data (d : Dev) (f n : Nat) (r : Req) : (d.consume f n r).data = d.data := consume_only d f n r .data (by decide)
@[simp] theorem Dev.consume_red (d : Dev) (f n : Nat) (r : Req) : (d.consume f n r).red = d.red := consume_only d f n r .red (by decide)
@[simp] theorem Dev.consume_mir (d : Dev) (f n : Nat) (r : Req) : (d.consume f n r).mir = d.mir := consume_only d f n r .mir (by decide)
@[simp] theorem Dev.consume_redch (d : Dev) (f n : Nat) (r : Req) : (d.consume f n r).redch = d.redch := consume_only d f n r .redch (by decide)
@[simp] theorem Dev.consume_meas (d : Dev) (f n : Nat) (r : Req) : (d.consume f n r).meas = d.meas := consume_only d f n r .meas (by decide)
@[simp] theorem Dev.consume_power (d : Dev) (f n : Nat) (r : Req) : (d.consume f n r).power = d.power := consume_only d f n r .power (by decide)
@[simp] theorem Dev.consume_pav (d : Dev) (f n : Nat) (r : Req) : (d.consume f n r).pav = d.pav := consume_only d f n r .pav (by decide)
@[simp] theorem Dev.consume_otdr (d : Dev) (f n : Nat) (r : Req) : (d.consume f n r).otdr = d.otdr := consume_only d f n r .otdr (by decide)
@[simp] theorem Dev.consume_upd (d : Dev) (f n : Nat) (r : Req) : (d.consume f n r).upd = d.upd := consume_only d f n r .upd (by decide)

theorem sendRec_only (d : Dev) (r : Rec) : Only [.out, .ctrs, .mir] d (d.sendRec r) := by
  unfold Dev.sendRec
  exact ((emit_only _ _).to.trans (bump_only _ _ _).to).trans (onMir_only _ _).to
@[simp] theorem Dev.sendRec_draws (d : Dev) (r : Rec) : (d.sendRec r).draws = d.draws := sendRec_only d r .draws (by decide)
@[simp] theorem Dev.sendRec_boot (d : Dev) (r : Rec) : (d.sendRec r).boot = d.boot := sendRec_only d r .boot (by decide)
@[simp] theorem Dev.sendRec_fuses (d : Dev) (r : Rec) : (d.sendRec r).fuses = d.fuses := sendRec_only d r .fuses (by decide)
@[simp] theorem Dev.sendRec_image (d : Dev) (r : Rec) : (d.sendRec r).image = d.image := sendRec_only d r .image (by decide)
@[simp] theorem Dev.sendRec_pins (d : Dev) (r : Rec) : (d.sendRec r).pins = d.pins := sendRec_only d r .pins (by decide)
@[simp] theorem Dev.sendRec_time (d : Dev) (r : Rec) : (d.sendRec r).time = d.time := sendRec_only d r .time (by decide)
@[simp] theorem Dev.sendRec_pcie (d : Dev) (r : Rec) : (d.sendRec r).pcie = d.pcie := sendRec_only d r .pcie (by decide)
@[simp] theorem Dev.sendRec_funcs (d : Dev) (r : Rec) : (d.sendRec r).funcs = d.funcs := sendRec_only d r .funcs (by decide)
@[simp] theorem Dev.sendRec_regs (d : Dev) (r : Rec) : (d.sendRec r).regs = d.regs := sendRec_only d r .regs (by decide)
@[simp] theorem Dev.sendRec_live (d : Dev) (r : Rec) : (d.sendRec r).live = d.live := sendRec_only d r .live (by decide)
@[simp] theorem Dev.sendRec_due (d : Dev) (r : Rec) : (d.sendRec r).due = d.due := sendRec_only d r .due (by decide)
@[simp] theorem Dev.sendRec_round (d : Dev) (r : Rec) : (d.sendRec r).round = d.round := sendRec_only d r .round (by decide)
@[simp] theorem Dev.sendRec_daeLogged (d : Dev) (r : Rec) : (d.sendRec r).daeLogged = d.daeLogged := sendRec_only d r .daeLogged (by decide)
@[simp] theorem Dev.sendRec_pon (d : Dev) (r : Rec) : (d.sendRec r).pon = d.pon := sendRec_only d r .pon (by decide)
@[simp] theorem Dev.sendRec_data (d : Dev) (r : Rec) : (d.sendRec r).data = d.data := sendRec_only d r .data (by decide)
@[simp] theorem Dev.sendRec_red (d : Dev) (r : Rec) : (d.sendRec r).red = d.red := sendRec_only d r .red (by decide)
@[simp] theorem Dev.sendRec_redch (d : Dev) (r : Rec) : (d.sendRec r).redch = d.redch := sendRec_only d r .redch (by decide)
@[simp] theorem Dev.sendRec_meas (d : Dev) (r : Rec) : (d.sendRec r).meas = d.meas := sendRec_only d r .meas (by decide)
@[simp] theorem Dev.sendRec_power (d : Dev) (r : Rec) : (d.sendRec r).power = d.power := sendRec_only d r .power (by decide)
@[simp] theorem Dev.sendRec_pav (d : Dev) (r : Rec) : (d.sendRec r).pav = d.pav := sendRec_only d r .pav (by decide)
@[simp] theorem Dev.sendRec_otdr (d : Dev) (r : Rec) : (d.sendRec r).otdr = d.otdr := sendRec_only d r .otdr (by decide)
@[simp] theorem Dev.sendRec_upd (d : Dev) (r : Rec) : (d.sendRec r).upd = d.upd := sendRec_only d r .upd (by decide)

theorem answerOk_only (d : Dev) (b : Bool) (r : Req) (p : Bytes) : Only [.funcs, .out, .ctrs, .mir] d (d.answerOk b r p) := by
  unfold Dev.answerOk
  exact Only.ite ((sendRec_only _ _).to.trans (onMir_only _ _).to) (respond_only _ _ _ _ _ _ _).to
@[simp] theorem Dev.answerOk_draws (d : Dev) (b : Bool) (r : Req) (p : Bytes) : (d.answerOk b r p).draws = d.draws := answerOk_only d b r p .draws (by decide)
@[simp] theorem Dev.answerOk_boot (d : Dev) (b : Bool) (r : Req) (p : Bytes) : (d.answerOk b r p).boot = d.boot := answerOk_only d b r p .boot (by decide)
@[simp] theorem Dev.answerOk_fuses (d : Dev) (b : Bool) (r : Req) (p : Bytes) : (d.answerOk b r p).fuses = d.fuses := answerOk_only d b r p .fuses (by decide)
@[simp] theorem Dev.answerOk_image (d : Dev) (b : Bool) (r : Req) (p : Bytes) : (d.answerOk b r p).image = d.image := answerOk_only d b r p .image (by decide)
@[simp] theorem Dev.answerOk_pins (d : Dev) (b : Bool) (r : Req) (p : Bytes) : (d.answerOk b r p).pins = d.pins := answerOk_only d b r p .pins (by decide)
@[simp] theorem Dev.answerOk_time (d : Dev) (b : Bool) (r : Req) (p : Bytes) : (d.answerOk b r p).time = d.time := answerOk_only d b r p .time (by decide)
@[simp] theorem Dev.answerOk_pcie (d : Dev) (b : Bool) (r : Req) (p : Bytes) : (d.answerOk b r p).pcie = d.pcie := answerOk_only d b r p .pcie (by decide)
@[simp] theorem Dev.answerOk_regs (d : Dev) (b : Bool) (r : Req) (p : Bytes) : (d.answerOk b r p).regs = d.regs := answerOk_only d b r p .regs (by decide)
@[simp] theorem Dev.answerOk_live (d : Dev) (b : Bool) (r : Req) (p : Bytes) : (d.answerOk b r p).live = d.live := answerOk_only d b r p .live (by decide)
@[simp] theorem Dev.answerOk_due (d : Dev) (b : Bool) (r : Req) (p : Bytes) : (d.answerOk b r p).due = d.due := answerOk_only d b r p .due (by decide)
@[simp] theorem Dev.answerOk_round (d : Dev) (b : Bool) (r : Req) (p : Bytes) : (d.answerOk b r p).round = d.round := answerOk_only d b r p .round (by decide)
@[simp] theorem Dev.answerOk_daeLogged (d : Dev) (b : Bool) (r : Req) (p : Bytes) : (d.answerOk b r p).daeLogged = d.daeLogged := answerOk_only d b r p .daeLogged (by decide)
@[simp] theorem Dev.answerOk_pon (d : Dev) (b : Bool) (r : Req) (p : Bytes) : (d.answerOk b r p).pon = d.pon := answerOk_only d b r p .pon (by decide)
@[simp] theorem Dev.answerOk_data (d : Dev) (b : Bool) (r : Req) (p : Bytes) : (d.answerOk b r p).data = d.data := answerOk_only d b r p .data (by decide)
@[simp] theorem Dev.answerOk_red (d : Dev) (b : Bool) (r : Req) (p : Bytes) : (d.answerOk b r p).red = d.red := answerOk_only d b r p .red (by decide)
@[simp] theorem Dev.answerOk_redch (d : Dev) (b : Bool) (r : Req) (p : Bytes) : (d.answerOk b r p).redch = d.redch := answerOk_only d b r p .redch (by decide)
@[simp] theorem Dev.answerOk_meas (d : Dev) (b : Bool) (r : Req) (p : Bytes) : (d.answerOk b r p).meas = d.meas := answerOk_only d b r p .meas (by decide)
@[simp] theorem Dev.answerOk_power (d : Dev) (b : Bool) (r : Req) (p : Bytes) : (d.answerOk b r p).power = d.power := answerOk_only d b r p .power (by decide)
@[simp] theorem Dev.answerOk_pav (d : Dev) (b : Bool) (r : Req) (p : Bytes) : (d.answerOk b r p).pav = d.pav := answerOk_only d b r p .pav (by decide)
@[simp] theorem Dev.answerOk_otdr (d : Dev) (b : Bool) (r : Req) (p : Bytes) : (d.answerOk b r p).otdr = d.otdr := answerOk_only d b r p .otdr (by decide)
@[simp] theorem Dev.answerOk_upd (d : Dev) (b : Bool) (r : Req) (p : Bytes) : (d.answerOk b r p).upd = d.upd := answerOk_only d b r p .upd (by decide)

theorem received_only (d : Dev) (c : Cmd) (m : Msg) : Only [.funcs, .out, .round] d (d.received c m) := by
  unfold Dev.received
  dsimp only
  split <;> refine Only.trans (Only.trans (Only.trans ?_ (takeToken_only _ _).to) (consume_only _ _ _ _).to) (onKiosk_only _ _ _).to
  · refine Only.trans (place_only d c m).to (fun p hp => ?_)
    cases p <;> simp at hp <;> rfl
  · exact (place_only _ _ _).to
@[simp] theorem Dev.received_draws (d : Dev) (c : Cmd) (m : Msg) : (d.received c m).draws = d.draws := received_only d c m .draws (by decide)
@[simp] theorem Dev.received_boot (d : Dev) (c : Cmd) (m : Msg) : (d.received c m).boot = d.boot := received_only d c m .boot (by decide)
@[simp] theorem Dev.received_fuses (d : Dev) (c : Cmd) (m : Msg) : (d.received c m).fuses = d.fuses := received_only d c m .fuses (by decide)
@[simp] theorem Dev.received_image (d : Dev) (c : Cmd) (m : Msg) : (d.received c m).image = d.image := received_only d c m .image (by decide)
@[simp] theorem Dev.received_pins (d : Dev) (c : Cmd) (m : Msg) : (d.received c m).pins = d.pins := received_only d c m .pins (by decide)
@[simp] theorem Dev.received_time (d : Dev) (c : Cmd) (m : Msg) : (d.received c m).time = d.time := received_only d c m .time (by decide)
@[simp] theorem Dev.received_pcie (d : Dev) (c : Cmd) (m : Msg) : (d.received c m).pcie = d.pcie := received_only d c m .pcie (by decide)
@[simp] theorem Dev.received_regs (d : Dev) (c : Cmd) (m : Msg) : (d.received c m).regs = d.regs := received_only d c m .regs (by decide)
@[simp] theorem Dev.received_ctrs (d : Dev) (c : Cmd) (m : Msg) : (d.received c m).ctrs = d.ctrs := received_only d c m .ctrs (by decide)
@[simp] theorem Dev.received_live (d : Dev) (c : Cmd) (m : Msg) : (d.received c m).live = d.live := received_only d c m .live (by decide)
@[simp] theorem Dev.received_due (d : Dev) (c : Cmd) (m : Msg) : (d.received c m).due = d.due := received_only d c m .due (by decide)
@[simp] theorem Dev.received_daeLogged (d : Dev) (c : Cmd) (m : Msg) : (d.received c m).daeLogged = d.daeLogged := received_only d c m .daeLogged (by decide)
@[simp] theorem Dev.received_pon (d : Dev) (c : Cmd) (m : Msg) : (d.received c m).pon = d.pon := received_only d c m .pon (by decide)
@[simp] theorem Dev.received_data (d : Dev) (c : Cmd) (m : Msg) : (d.received c m).data = d.data := received_only d c m .data (by decide)
@[simp] theorem Dev.received_red (d : Dev) (c : Cmd) (m : Msg) : (d.received c m).red = d.red := received_only d c m .red (by decide)
@[simp] theorem Dev.received_mir (d : Dev) (c : Cmd) (m : Msg) : (d.received c m).mir = d.mir := received_only d c m .mir (by decide)
@[simp] theorem Dev.received_redch (d : Dev) (c : Cmd) (m : Msg) : (d.received c m).redch = d.redch := received_only d c m .redch (by decide)
@[simp] theorem Dev.received_meas (d : Dev) (c : Cmd) (m : Msg) : (d.received c m).meas = d.meas := received_only d c m .meas (by decide)
@[simp] theorem Dev.received_power (d : Dev) (c : Cmd) (m : Msg) : (d.received c m).power = d.power := received_only d c m .power (by decide)
@[simp] theorem Dev.received_pav (d : Dev) (c : Cmd) (m : Msg) : (d.received c m).pav = d.pav := received_only d c m .pav (by decide)
@[simp] theorem Dev.received_otdr (d : Dev) (c : Cmd) (m : Msg) : (d.received c m).otdr = d.otdr := received_only d c m .otdr (by decide)
@[simp] theorem Dev.received_upd (d : Dev) (c : Cmd) (m : Msg) : (d.received c m).upd = d.upd := received_only d c m .upd (by decide)

end Sys2Proof.Machine
end

