-- ==== Sys2Proof/Laws/Access.lean ====
section
/-! SUPPORT. A host access that is performed as it arrives. -/

namespace Sys2Proof.Machine

theorem le_length (k n : Nat) : (le k n).length = k := by
  induction k generalizing n with
  | zero => rfl
  | succ k ih => simp [le, ih]

theorem ofLe_le (k n : Nat) : ofLe (le k n) = n % 256 ^ k := by
  induction k generalizing n with
  | zero => simp [le, ofLe, Nat.mod_one]
  | succ k ih =>
    simp only [le, ofLe, ih, BitVec.toNat_ofNat, Nat.reducePow]
    rw [Nat.pow_succ, Nat.mul_comm (256 ^ k) 256, Nat.mod_mul]

/-- An access in a port that holds none, to a domain that is on, is performed. -/
theorem hostArrive_on {d : Dev} {f : Nat} {h : Held} (hh : (d.fn f).held = []) (hd : d.domOn h.domain = true) :
    d.hostArrive f h = d.access f { h with at' := d.time.now } := by
  simp [Dev.hostArrive, hh, hd]

/-- A write of one whole word outside the areas of R82. -/
theorem hostWord_reaches {d : Dev} {f off : Nat} (w : Nat) (h : Reaches d f off) (ha : off % 4 = 0)
    (hi : inArea (locate f 0 off).1 4 = false) : d.hostWord f off w = d.writePlace f (locate f 0 off).1 (le 4 w) := by
  obtain ⟨h1, h2, h3, h4⟩ := h
  simp only [Dev.hostWord, Dev.hostWrite, h1, h2, le_length, hi, ha]
  simp only [Bool.not_true, Bool.or_self, Bool.false_eq_true, if_false, Bool.true_and, Nat.reduceBEq, Bool.or_false, beq_self_eq_true,
    Bool.and_self, if_true, Nat.reduceEqDiff]
  rw [hostArrive_on h3 h4]
  simp only [Dev.access]
  rw [List.take_of_length_le (by rw [le_length])]

/-- A read of one word outside the areas of R82. -/
theorem hostRead_reaches {d : Dev} {f off : Nat} (be : Nat) (h : Reaches d f off) (ha : off % 4 = 0)
    (hi : inArea (locate f 0 off).1 4 = false) :
    d.hostRead f 0 off 4 be = d.access f
      { bar := 0, off := off, domain := (locate f 0 off).2, data := none, len := 4, be := be, at' := d.time.now } := by
  obtain ⟨h1, h2, h3, h4⟩ := h
  simp only [Dev.hostRead, h1, h2, hi, ha]
  simp only [Bool.not_true, Bool.false_eq_true, if_false, Bool.false_and, Bool.not_false, Bool.true_and, beq_self_eq_true, Bool.and_self, if_true]
  rw [hostArrive_on h3 h4]

end Sys2Proof.Machine
end

