-- ==== Sys2Proof/Laws/Requests.lean ====
section
/-! SUPPORT. How a request that its Kiosk serves at once comes to its answer: what signalling and elapsed time leave of a Kiosk, the
block as the command sees it, and the published response. -/

namespace Sys2Proof.Machine

/-! ## What signalling leaves of a function -/

/-- A signal changes nothing of a function but its pending vectors. -/
theorem raise_fn (d : Dev) (f v g : Nat) : ∃ p, (d.raise f v).fn g = { d.fn g with pba := p } := by
  unfold Dev.raise
  dsimp only
  split
  · split
    · by_cases h : g = f
      · subst h; exact ⟨_, Dev.fn_onFn _ _ _⟩
      · exact ⟨_, Dev.fn_onFn_ne _ _ h⟩
    · exact ⟨_, rfl⟩
  · exact ⟨_, rfl⟩

@[simp] theorem raise_kiosk (d : Dev) (f v g : Nat) : (d.raise f v).kiosk g = d.kiosk g := by
  obtain ⟨p, h⟩ := raise_fn d f v g
  simp [Dev.kiosk, h]

@[simp] theorem raise_tenant (d : Dev) (f v g : Nat) : ((d.raise f v).fn g).tenant = (d.fn g).tenant := by
  obtain ⟨p, h⟩ := raise_fn d f v g
  simp [h]

@[simp] theorem setReg_kiosk (d : Dev) (a v g : Nat) : (d.setReg a v).kiosk g = d.kiosk g := rfl

@[simp] theorem setBit_kiosk (d : Dev) (a i : Nat) (b : Bool) (g : Nat) : (d.setBit a i b).kiosk g = d.kiosk g := rfl

@[simp] theorem emit_kiosk (d : Dev) (o : Out) (g : Nat) : (d.emit o).kiosk g = d.kiosk g := rfl

@[simp] theorem setCause_kiosk (d : Dev) (c e f v b g : Nat) : (d.setCause c e f v b).kiosk g = d.kiosk g := by
  unfold Dev.setCause
  dsimp only
  split <;> simp

theorem perfAdd_kiosk (d : Dev) (x k j n g : Nat) : (d.perfAdd x k j n).kiosk g = d.kiosk g := by
  induction k generalizing d j n with
  | zero => rfl
  | succ k ih =>
    unfold Dev.perfAdd
    dsimp only
    split
    · rfl
    · split
      · rfl
      · split
        · rw [ih]; rfl
        · unfold Dev.perfWrap Dev.perfCauseSet
          dsimp only
          split <;> simp <;> rfl

/-- An effect repeated over a list leaves what each repetition leaves. -/
theorem foldl_keeps {β γ : Type} (π : Dev → γ) {g : Dev → β → Dev} (h : ∀ d x, π (g d x) = π d) (d : Dev) (l : List β) :
    π (l.foldl g d) = π d := by
  induction l generalizing d with
  | nil => rfl
  | cons x l ih => exact (ih (g d x)).trans (h d x)

@[simp] theorem perf_kiosk (d : Dev) (x e n : Nat) (l : Ids) (g : Nat) : (d.perf x e n l).kiosk g = d.kiosk g := by
  unfold Dev.perf
  split
  · refine foldl_keeps (fun d => d.kiosk g) (fun d x => ?_) _ _
    dsimp only
    split
    · exact perfAdd_kiosk _ _ _ _ _ _
    · rfl
  · rfl

@[simp] theorem pass_kiosk (d : Dev) (n g : Nat) : (d.pass n).kiosk g = d.kiosk g := by
  unfold Dev.pass
  split
  · rfl
  · dsimp only
    refine Eq.trans (foldl_keeps (fun d => d.kiosk g) (fun d x => perf_kiosk _ _ _ _ _ _) _ _) ?_
    split <;> rfl

@[simp] theorem passTo_kiosk (d : Dev) (n g : Nat) : (d.passTo n).kiosk g = d.kiosk g := pass_kiosk _ _ _

/-- Causes of a Kiosk change its cause register alone. -/
theorem kioskCause_kiosk (d : Dev) (f b : Nat) :
    (d.kioskCause f b).kiosk f = { d.kiosk f with cause := w32 (Nat.lor (d.kiosk f).cause.toNat b) } := by
  unfold Dev.kioskCause
  dsimp only
  split <;> split <;> simp

theorem kioskCause_kiosk_ne (d : Dev) {f g : Nat} (b : Nat) (h : g ≠ f) : (d.kioskCause f b).kiosk g = d.kiosk g := by
  unfold Dev.kioskCause
  dsimp only
  split <;> split <;> simp [Dev.kiosk_onKiosk_ne _ _ h]

theorem kioskCause_tenant (d : Dev) (f b g : Nat) : ((d.kioskCause f b).fn g).tenant = (d.fn g).tenant := by
  have h : ∀ k : Kiosk → Kiosk, ((d.onKiosk f k).fn g).tenant = (d.fn g).tenant := by
    intro k
    by_cases hg : g = f
    · subst hg; simp [Dev.fn_onKiosk]
    · simp [Dev.fn_onKiosk_ne _ _ hg]
  unfold Dev.kioskCause
  dsimp only
  split <;> split <;> simp [h]

/-! ## The request as its command sees it -/

section serving
variable {c : Cmd} {m : Msg} {d : Dev}

/-- The Kiosk's fields that a request being taken leaves alone. -/
theorem received_kiosk (d : Dev) (c : Cmd) (m : Msg) :
    ((d.received c m).kiosk m.func).level = (d.kiosk m.func).level
    ∧ ((d.received c m).kiosk m.func).interrupted = (d.kiosk m.func).interrupted
    ∧ ((d.received c m).kiosk m.func).discard = false
    ∧ ((d.received c m).kiosk m.func).executing
        = some { func := m.func, op := c.op, seq := m.seq, args := [], body := m.payload, taken := d.time.now } := by
  have key : ∀ e : Dev, (e.kiosk m.func).level = (d.kiosk m.func).level → (e.kiosk m.func).interrupted = (d.kiosk m.func).interrupted →
      ∀ r : Req,
      let k := ((((e.takeToken m.func).consume m.func (units m.payload.length) r)).onKiosk m.func fun k => k.advance c.op m.seq).kiosk m.func
      k.level = (d.kiosk m.func).level ∧ k.interrupted = (d.kiosk m.func).interrupted ∧ k.discard = false ∧ k.executing = some r := by
    intro e h1 h2 r
    have ht : ((e.takeToken m.func).kiosk m.func).level = (d.kiosk m.func).level
        ∧ ((e.takeToken m.func).kiosk m.func).interrupted = (d.kiosk m.func).interrupted := by
      unfold Dev.takeToken Dev.fillBudget
      split <;> simp [h1, h2]
    simp only [Dev.kiosk_onKiosk, Dev.consume, kioskCause_kiosk, Kiosk.advance]
    split <;> simp [ht.1, ht.2]
  unfold Dev.received
  dsimp only
  split <;> exact key _ (by simp [Dev.place, Dev.kiosk, Dev.fn, Dev.onKiosk, Dev.onFn]) (by simp [Dev.place, Dev.kiosk, Dev.fn, Dev.onKiosk, Dev.onFn]) _

/-- The response of a request that the Kiosk holds is the newest output. -/
theorem respond_answers (d : Dev) (f op : Nat) (q : W32) (st dt : Nat) (p : Bytes) (r : Req)
    (he : (d.kiosk f).executing = some r) (hop : r.op = op) (hq : r.seq = q) (hi : (d.kiosk f).interrupted = false)
    (hd : (d.kiosk f).discard = false) : (d.respond f op q st dt p).out.head? = some (.response f op q st dt p) := by
  subst hop hq
  simp [Dev.respond, Kiosk.holds, he, hi, hd]

theorem headerCheck_congr {d e : Dev} (c : Option Cmd) (f op v : Nat) (q : W32) (hl : (e.kiosk f).level = (d.kiosk f).level)
    (hx : (e.kiosk f).expected = (d.kiosk f).expected) (hi : e.image = d.image) (ht : (e.fn f).tenant = (d.fn f).tenant) :
    e.headerCheck c f op v q = d.headerCheck c f op v q := by
  have hk : ∀ x : Cmd, e.knows x = d.knows x := fun x => by simp only [Dev.knows, hi]
  have hp : ∀ x : Caller, e.permits x f = d.permits x f := fun x => by cases x <;> simp only [Dev.permits, ht]
  unfold Dev.headerCheck
  dsimp only
  rw [hl, hx]
  cases c with
  | none => rfl
  | some c => dsimp only; rw [hk, hp]

/-- What becomes of a request that its Kiosk serves at once. -/
theorem submit_serves (h : Serves c m d) : d.submit c m = (d.received c m).perform c (callOf m c d) m.dt := by
  obtain ⟨hm, h1, h2, h3, h4, h5, h6⟩ := h
  obtain ⟨⟨f, r⟩, h5, rfl⟩ := Option.map_eq_some_iff.mp h5
  have hu : ¬ free (d.kiosk m.func).reqTail (d.kiosk m.func).reqHead < units m.payload.length := by
    simp only [Msg.ok, Bool.and_eq_true, decide_eq_true_eq] at hm
    simp only [free, used, h4, BitVec.sub_self, units, ceilDiv]
    have := hm.2
    simp
    omega
  have ht : (((({ d.place c m with round := r } : Dev).takeToken m.func).kiosk m.func).level = (d.kiosk m.func).level)
      ∧ (((({ d.place c m with round := r } : Dev).takeToken m.func).kiosk m.func).expected = (d.kiosk m.func).expected)
      ∧ ((({ d.place c m with round := r } : Dev).takeToken m.func).fn m.func).tenant = (d.fn m.func).tenant := by
    have h0 : ∀ x : Dev, x.funcs = (d.place c m).funcs → (x.kiosk m.func).level = (d.kiosk m.func).level
        ∧ (x.kiosk m.func).expected = (d.kiosk m.func).expected ∧ (x.fn m.func).tenant = (d.fn m.func).tenant := by
      intro x hx
      rw [Dev.kiosk_congr hx, Dev.fn_congr hx]
      simp [Dev.place, Dev.fn_onKiosk]
    unfold Dev.takeToken Dev.fillBudget
    split
    · exact h0 _ rfl
    · simp only [Dev.kiosk_onKiosk, Dev.fn_onKiosk]
      exact h0 _ rfl
  unfold Dev.submit
  simp only [h1, h2, h4, h5, Bool.not_true, Bool.false_or]
  unfold Dev.serve
  have hh : ((({ d.place c m with round := r } : Dev).takeToken m.func).headerCheck (some c) m.func c.op m.version m.seq) = none := by
    rw [← h6]
    exact headerCheck_congr _ _ _ _ _ ht.1 ht.2.1 (by simp) ht.2.2
  simp only [hh]
  have hr : d.received c m = ((({ d.place c m with round := r } : Dev).takeToken m.func).consume m.func (units m.payload.length)
      { func := m.func, op := c.op, seq := m.seq, args := [], body := m.payload,
        taken := (({ d.place c m with round := r } : Dev).takeToken m.func).time.now }).onKiosk m.func fun k => k.advance c.op m.seq := by
    unfold Dev.received
    simp only [h5]
    simp
  rw [← hr, ht.1]
  rw [h4] at hu
  simp only [hu, decide_false, Bool.false_eq_true, if_false, decide_true, Bool.and_self, if_true]
  rfl

/-- A request that its Kiosk serves at once, whose checks pass and whose command answers OK outside the mirror's care, is answered: the
block is the command's, but for the time that passed until the answer and what the answer itself writes. -/
theorem request_ok {s : State} {e : Dev} {p : Bytes} (h : Serves c m s.dev) (hc : c.commit = false)
    (hk : c.check (s.dev.received c m) (callOf m c s.dev) = none)
    (hr : c.run (s.dev.received c m) (callOf m c s.dev) = (e, .ok p))
    (hm : (c.mirrored && e.mirroring) = false)
    (he : (e.kiosk m.func).executing = ((s.dev.received c m).kiosk m.func).executing)
    (hi : (e.kiosk m.func).interrupted = ((s.dev.received c m).kiosk m.func).interrupted)
    (hd : (e.kiosk m.func).discard = ((s.dev.received c m).kiosk m.func).discard) :
    ∃ t, request c m s = .next { s with dev := t } ∧ Answered m c.op p t
      ∧ t = (e.passTo ((s.dev.received c m).time.now + m.dt)).respond m.func c.op m.seq 0 0 p
      ∧ Only [.draws, .regs, .meas, .funcs, .out, .time] e t := by
  obtain ⟨k1, k2, k3, k4⟩ := received_kiosk s.dev c m
  have hmm : ∀ n, (e.passTo n).mirroring = e.mirroring := fun n => by simp [Dev.mirroring]
  have hx : (callOf m c s.dev).func = m.func ∧ (callOf m c s.dev).op = c.op ∧ (callOf m c s.dev).seq = m.seq := ⟨rfl, rfl, rfl⟩
  have hf : (s.dev.received c m).perform c (callOf m c s.dev) m.dt
      = (e.passTo ((s.dev.received c m).time.now + m.dt)).respond m.func c.op m.seq 0 0 p := by
    unfold Dev.perform Dev.finish
    simp only [hk, hc, hr, Bool.false_eq_true, if_false, Dev.answerOk, hmm, hm, Call.req, hx.1, hx.2.1, hx.2.2]
  refine ⟨_, ?_, ?_, rfl, ?_⟩
  · unfold request
    rw [act_ok h.1, submit_serves h, hf]
  · exact respond_answers _ _ _ _ _ _ _
      { func := m.func, op := c.op, seq := m.seq, args := [], body := m.payload, taken := s.dev.time.now }
      (by simp [he, k4]) rfl rfl (by simp [hi, k2, h.2.2.2.1]) (by simp [hd, k3])
  · exact (passTo_only _ _).to.trans (respond_only _ _ _ _ _ _ _).to

end serving

end Sys2Proof.Machine
end

