-- ==== Sys2Proof/Tests/Slice0.lean ====
section
/-! SUPPORT. Tests of the block. Each theorem gives a state and operands that meet the hypotheses of a statement's clause, all together, and
shows on them what the clause concludes; expected values are written out from the specification. Terms that name an object the device
does not have are refused. -/

namespace Sys2Proof.Tests

open Sys2Proof.Machine

set_option Elab.async false

/-! ## Helpers -/

/-- A command completes on a state, and the block then passes a test. -/
def after (c : Instr) (s : State) (p : Dev → Bool) : Bool :=
  match exec c s with
  | .next t => p t.dev && decide (t.pending = s.pending)
  | _ => false

/-- A command stops. -/
def stops (c : Instr) (s : State) : Bool :=
  match exec c s with
  | .fault .noSuchObject => true
  | _ => false

/-- The parts of the block. -/
def parts : List Part :=
  [.draws, .out, .boot, .fuses, .image, .pins, .time, .pcie, .funcs, .regs, .ctrs, .live, .due, .round, .daeLogged, .pon, .data, .red,
    .mir, .redch, .meas, .power, .pav, .otdr, .upd]

/-- Two blocks agree in a part, as a test. -/
def agree (d e : Dev) : Part → Bool
  | .draws => decide (e.draws = d.draws)
  | .out => decide (e.out = d.out)
  | .boot => decide (e.boot = d.boot)
  | .fuses => decide (e.fuses = d.fuses)
  | .image => decide (e.image = d.image)
  | .pins => decide (e.pins = d.pins)
  | .time => decide (e.time = d.time)
  | .pcie => decide (e.pcie = d.pcie)
  | .funcs => decide (e.funcs = d.funcs)
  | .regs => decide (e.regs = d.regs)
  | .ctrs => decide (e.ctrs = d.ctrs)
  | .live => decide (e.live = d.live)
  | .due => decide (e.due = d.due)
  | .round => decide (e.round = d.round)
  | .daeLogged => decide (e.daeLogged = d.daeLogged)
  | .pon => decide (e.pon = d.pon)
  | .data => decide (e.data = d.data)
  | .red => decide (e.red = d.red)
  | .mir => decide (e.mir = d.mir)
  | .redch => decide (e.redch = d.redch)
  | .meas => decide (e.meas = d.meas)
  | .power => decide (e.power = d.power)
  | .pav => decide (e.pav = d.pav)
  | .otdr => decide (e.otdr = d.otdr)
  | .upd => decide (e.upd = d.upd)

/-- Only the listed parts differ. -/
def only (l : List Part) (d e : Dev) : Bool := parts.all fun p => l.contains p || agree d e p

/-- A request of function 0 in sequence. -/
def ask (payload : Bytes) : Msg := { func := 0, version := 3, seq := 5, payload := payload }

/-- A request row: the hypotheses of `Answers` hold, and its conclusion. -/
def answersTo (c : Cmd) (row : Msg → Instr) (m : Msg) (s : State) (l : List Part) (reply : Bytes) (p : Dev → Bool) : Bool :=
  decide (Passes c m s.dev) && (!c.mirrored || !s.dev.mirroring) && after (row m) s fun e =>
    decide (e.out.head? = some (.response m.func c.op m.seq 0 0 reply)) && p e && only (served l) s.dev e

/-- The same for a request of function 0. -/
def answers (c : Cmd) (row : Msg → Instr) (payload : Bytes) (s : State) (l : List Part) (reply : Bytes) (p : Dev → Bool) : Bool :=
  answersTo c row (ask payload) s l reply p

/-- A request row that waits for a tick edge: the hypotheses of `Orders` hold, and its conclusion. -/
def orders (c : Cmd) (row : Msg → Instr) (payload : Bytes) (s : State) : Bool :=
  decide (Passes c (ask payload) s.dev) && after (row (ask payload)) s fun e =>
    decide (e.pon.commits.map (fun r => (r.func, r.op, r.seq, r.body, r.from')) = [(0, c.op, 5, payload, s.dev.nextCommit)])
    && decide ((e.kiosk 0).executing.map (fun r => (r.op, r.seq)) = some (c.op, 5)) && only [.funcs, .out, .round, .pon] s.dev e

/-- A command at its tick edge: the hypotheses of `Commits` hold, and its conclusion. -/
def commits (c : Cmd) (body : Bytes) (s : State) (l : List Part) (reply : Bytes) (p : Dev → Bool) : Bool :=
  let r : Req := { func := 0, op := c.op, seq := 5, args := [], body := body, taken := 0 }
  let d := s.dev.onKiosk 0 fun k => { k with executing := some r }
  let e := d.commitOne r
  d.permits c.caller 0 && decide (d.awaits r) && !d.mirroring && decide (c.check d (c.call 0 (d.kiosk 0).level 5 body) = none)
    && decide (e.out.head? = some (.response 0 c.op 5 0 0 reply)) && p e && only ([.funcs, .out] ++ l) d e

/-- In service, PF0 and one virtual function of tenant 1 at work, every domain on. -/
def live : State := { dev := { boot := { resetHigh := true, started := true, pd00 := true, stage := 4, memDone := true, devReady := true }, pcie := { released := true, linkUp := true, cfgOk := true }, power := { on := 0xFFFFFF }, fuses := { chanEn := 0x3FF, extEn := true }, image := { fwIfVer := 0x30002 }, funcs := [(0, { enabled := true, busMaster := true, kiosk := { ready := true, level := 3, expected := 5 } }), (2, { enabled := true, busMaster := true, tenant := 1, kiosk := { ready := true, level := 3, expected := 5 } })] } }

/-- A state with another block. -/
def edit (s : State) (f : Dev → Dev) : State := { s with dev := f s.dev }

/-- In service with two channels in two trees, ONU 1 of tenant 1 on channel 0 with flow 1, and every die link up. -/
def net : State := edit live fun d => { d.setReg A.refclk 0x3FF with pon := { chans := [(0, { state := .service, tree := some 0, laser := true }), (1, { state := .service, tree := some 1, laser := true })], trees := [(0, { chans := [0], ident := 7 }), (1, { chans := [1], ident := 8 })], onus := [(1, { state := .operating, serial := 0x4142434401020304, auth := true, tenant := 1 })], flows := [(1, { onu := 1, xgem := 2000, alloc := 1024, cls := 0, dir := 3, encrypt := 0 })], allocs := [(1, { onu := 1 }), (1024, { onu := 1, type := 1, assured := 1000 })] }, data := { d.data with dlinks := (List.range 6).map fun n => (n, { up := true, spareLeft := 2 }), nodes := [(nodeKey 2 1, {})] } }

/-! ## From power to service -/

def rails : List Nat := [800, 750, 750, 750, 750, 750, 750, 750, 900, 1200, 900, 1200, 1100, 400, 1800, 900, 1800, 900]

theorem test_sysResetNRise : State.reset.dev.boot.resetHigh = false ∧ after (.sysResetNRise 0x27 false true false rails) State.reset (fun e => e.boot.started && e.boot.resetHigh && e.boot.strapFlash == 3 && e.boot.strapSlot == 1 && e.boot.strapRole == 2 && nth 0 e.power.set 0 == 750 && only [.boot, .power, .out] State.reset.dev e) = true := by decide +kernel

theorem test_sysResetNRise_testEn : after (.sysResetNRise 0 true true true rails) State.reset (fun e => !e.boot.started && e.boot.resetHigh) = true := by decide +kernel

def waitRails1 : State := edit State.reset fun d => d.onBoot fun b => { b with resetHigh := true, waitRails := true }

theorem test_railCheck : (waitRails1.dev.boot.resetHigh = true ∧ waitRails1.dev.boot.waitRails = true) ∧ after (.railCheck rails) waitRails1 (fun e => e.boot.started && !e.boot.waitRails && only [.boot] waitRails1.dev e) = true := by decide +kernel

theorem test_sysResetNAssert : after .sysResetNAssert live (fun e => e.boot.stage == 0 && e.funcs.isEmpty && e.power.on == 1 && only [.draws, .out, .boot, .pins, .power, .pav] State.reset.dev e) = true := by decide +kernel

theorem test_inputPowerFail : after .inputPowerFail live (fun e => !e.boot.railsUp && only [.draws, .out, .boot, .pav] State.reset.dev e) = true := by decide +kernel

def begun : State := edit State.reset fun d => d.onBoot fun b => { b with resetHigh := true, started := true }

theorem test_pd00LeavesReset : (begun.dev.boot.started = true ∧ begun.dev.boot.pd00 = false) ∧ after (.pd00LeavesReset 0x3FF) begun (fun e => e.time.tick == 0 && e.time.now == 0 && e.uptimeNs == 0 && e.boot.pd00 && e.boot.stage == 1 && e.reg A.refclk == 0x3FF && only [.time, .regs, .draws, .boot] begun.dev e) = true := by decide +kernel

def fusing : State := edit begun fun d => (d.setReg A.refclk 0x3FF).onBoot fun b => { b with pd00 := true, stage := 1 }

theorem test_fuseReadDone : (fusing.dev.boot.pd00 = true ∧ fusing.dev.boot.stage = 1 ∧ fusing.dev.boot.halted = false) ∧ after (.fuseReadDone 0xFFFF true 300 true false [760, 750, 750, 750, 750, 750, 750]) fusing (fun e => e.fuses.chanEn == 0x3FF && e.fuses.corrected == 255 && e.boot.stage == 2 && nth 0 e.power.fused 0 == 760 && only [.fuses, .boot, .power, .out] fusing.dev e) = true := by decide +kernel

theorem test_fuseReadDone_stop : after (.fuseReadDone 0 false 0 false true []) fusing (fun e => e.boot.stage == 7 && e.boot.failCode == 1 && e.pcie.cfgOk) = true := by decide +kernel

def memory : State := edit fusing fun d => d.onBoot fun b => { b with stage := 2 }

theorem test_memoryInitDone : (memory.dev.boot.stage = 2 ∧ memory.dev.boot.memDone = false ∧ memory.dev.boot.halted = false) ∧ after (.memoryInitDone 0x21) memory (fun e => e.boot.memDone && e.boot.dieFail == 0x21 && e.boot.stage == 2 && only [.boot] memory.dev e) = true := by decide +kernel

theorem test_memoryInitDone_stop : after (.memoryInitDone 0x40) memory (fun e => e.boot.stage == 7 && e.boot.failCode == 6) = true ∧ after (.memoryInitDone 0x3F) memory (fun e => e.boot.stage == 7 && e.boot.failCode == 5) = true := by decide +kernel

def ready : State := edit memory fun d => d.onBoot fun b => { b with memDone := true }

theorem test_imageLoadDone_noFlash : after (.imageLoadDone false [] [] {} {} {}) ready (fun e => e.boot.stage == 7 && e.boot.failCode == 2) = true := by decide +kernel

def started : State := edit ready fun d => d.onBoot fun b => { b with stage := 3, strapRole := 1, firstSlot := some 0, tried := [0] }

theorem test_firmwareReady : (started.dev.boot.stage = 3 ∧ started.dev.boot.halted = false) ∧ after (.firmwareReady none none true none) started (fun e => e.boot.stage == 4 && e.boot.devReady && !e.boot.fallback && (e.kiosk 0).ready && (e.kiosk 63).ready && e.red.role == .syncing) = true := by decide +kernel

def late : State := edit started fun d => (d.onBoot fun b => { b with strapSlot := 0 }).onTime fun t => { t with now := 59999000, nextAt := 60001000 }

theorem test_firmwareReadyTimeout : (late.dev.boot.stage3At + 60000000 ≤ late.dev.time.nextAt ∧ late.dev.boot.tried.length < 2) ∧ after .firmwareReadyTimeout late (fun e => e.boot.slotA == 7 && e.boot.stage == 2) = true := by decide +kernel

theorem test_firmwareReadyTimeout_last : after .firmwareReadyTimeout (edit late fun d => d.onBoot fun b => { b with tried := [1, 0] }) (fun e => e.boot.stage == 7 && e.boot.failCode == 4) = true := by decide +kernel

def image : SlotFacts := { header := le 4 0x4E445345 ++ le 4 1 ++ le 4 4096 ++ le 4 0x10 ++ le 4 0x30001 ++ le 4 7 ++ le 4 1 ++ List.replicate (0x160 - 0x1C) 0 ++ le 4 0 ++ le 4 0 ++ le 4 16 ++ le 4 0 }

theorem test_imageLoadDone : (Nat.land ready.dev.boot.dieFail 0x3F ≠ 0x3F ∧ slotOrder ready.dev.boot.strapSlot (activeSlot [] []) = [0, 1] ∧ slotResult image = 1 ∧ ready.dev.boot.tried = []) ∧ after (.imageLoadDone true [] [] image {} {}) ready (fun e => e.boot.stage == 3 && e.boot.slot == 0 && e.boot.slotA == 1 && e.image.fwIfVer == 0x30001 && e.image.imageVer == 7) = true := by decide +kernel

/-! ## The PCIe port, host accesses and Kiosks -/

def unreleased : State := edit live fun d => { d.onTime (fun t => { t with now := 195000, nextAt := 203000 }) with pcie := {} }

theorem test_pcieControllerRelease : (unreleased.dev.boot.pd00 = true ∧ unreleased.dev.pcie.released = false ∧ 200000 ≤ unreleased.dev.time.nextAt) ∧ after .pcieControllerRelease unreleased (fun e => e.pcie.released && e.time.now == 200000 && only [.pcie, .draws, .regs, .meas, .funcs, .out, .time] unreleased.dev e) = true := by decide +kernel

theorem test_pciePerstNRelease : after .pciePerstNRelease live (fun e => e.pins.perstHigh && e.pcie.training && only [.pins, .pcie] live.dev e) = true := by decide +kernel

def training : State := edit live fun d => (d.setReg A.refclk 0x3FF).onPins (fun p => { p with perstHigh := true }) |>.onPcie fun p => { p with linkUp := false, training := true }

theorem test_pcieLinkUp : (training.dev.pcie.training = true ∧ training.dev.pins.perstHigh = true ∧ bit (training.dev.reg A.refclk) 6 = true) ∧ after .pcieLinkUp training (fun e => e.pcie.linkUp && !e.pcie.training && only [.pcie] training.dev e) = true := by decide +kernel

theorem test_pciePerstNAssert : after .pciePerstNAssert live (fun e => !e.pcie.linkUp && (e.fn 0).disabling && !(e.fn 0).busMaster && (e.fn 2).disabling) = true := by decide +kernel

theorem test_pcieHotReset : live.dev.pcie.linkUp = true ∧ after .pcieHotReset live (fun e => !e.pcie.linkUp && e.pcie.training && (e.fn 0).disabling) = true := by decide +kernel

theorem test_pcieLinkDisable : live.dev.pcie.linkUp = true ∧ after .pcieLinkDisable live (fun e => !e.pcie.linkUp && (e.fn 1).disabling) = true := by decide +kernel

theorem test_pcieDataLinkLoss : live.dev.pcie.linkUp = true ∧ after .pcieDataLinkLoss live (fun e => !e.pcie.linkUp && (e.fn 2).disabling) = true := by decide +kernel

theorem test_functionLevelReset : live.dev.cfgReach 2 = true ∧ after (.functionLevelReset 2) live (fun e => (e.fn 2).disabling && (e.fn 2).byFlr && !(e.fn 2).busMaster) = true := by decide +kernel

theorem test_busMasterEnableClear : (live.dev.cfgReach 2 = true ∧ (live.dev.fn 2).busMaster = true) ∧ after (.busMasterEnableClear 2) live (fun e => (e.fn 2).disabling && !(e.fn 2).busMaster) = true := by decide +kernel

theorem test_d3hotEntry : (live.dev.cfgReach 0 = true ∧ (live.dev.fn 0).d3hot = false) ∧ after (.d3hotEntry 0) live (fun e => (e.fn 0).disabling && (e.fn 0).d3hot) = true := by decide +kernel

theorem test_vfEnableSet : (live.dev.cfgReach 0 = true ∧ live.dev.pcie.vfEnable = false) ∧ after (.vfEnableSet 62) live (fun e => (e.fn 2).enabled && (e.fn 63).enabled && e.pcie.numVfs == 62 && only [.pcie, .funcs] live.dev e) = true := by decide +kernel

theorem test_vfEnableSet_high : after (.vfEnableSet 63) live (fun e => decide (e = live.dev)) = true := by decide +kernel

def virtual : State := edit live fun d => d.onPcie fun p => { p with vfEnable := true, numVfs := 1 }

theorem test_vfEnableClear : virtual.dev.cfgReach 0 = true ∧ virtual.dev.enabledVfs = [2] ∧ after .vfEnableClear virtual (fun e => !e.pcie.vfEnable && !(e.fn 2).enabled && (e.fn 2).disabling) = true := by decide +kernel

def scrubbing : State := edit live fun d => d.onFn 2 fun x => { x with disabling := true, kiosk := { x.kiosk with reqMem := [(0, 1)], level := 2, mask := 3 } }

theorem test_disableSequenceDone : (scrubbing.dev.fn 2).disabling = true ∧ after (.disableSequenceDone 2) scrubbing (fun e => !(e.fn 2).disabling && (e.kiosk 2).reqMem.isEmpty && (e.kiosk 2).level == 0 && (e.kiosk 2).mask == 0 && decide (e.kiosk 0 = scrubbing.dev.kiosk 0)) = true := by decide +kernel

theorem test_busMasterEnableSet : live.dev.cfgReach 1 = true ∧ after (.busMasterEnableSet 1 true true 512) live (fun e => (e.fn 1).busMaster && (e.fn 1).msixEn && (e.fn 1).fmask && (e.fn 1).mps == 512 && only [.funcs, .out] live.dev e) = true := by decide +kernel

theorem test_d0Entry : after (.d0Entry 0) (edit live fun d => d.onFn 0 fun x => { x with d3hot := true }) (fun e => !(e.fn 0).d3hot) = true := by decide +kernel

theorem test_registerWrite : Reaches live.dev 0 A.globalScratch ∧ after (.registerWrite 0 0 A.globalScratch [1, 2, 3, 4] true) live (fun e => e.reg A.globalScratch == 0x04030201 && only [.regs] live.dev e) = true := by decide +kernel

theorem test_registerWrite_ring : (Reaches live.dev 2 (kioskOff 2 0xFFE) ∧ (live.dev.fn 2).mps = 128) ∧ after (.registerWrite 2 0 (kioskOff 2 0xFFE) [7, 8] true) live (fun e => Mem.byte (e.kiosk 2).reqMem 0xFFE == 7 && Mem.byte (e.kiosk 2).reqMem 0xFFF == 8 && only [.funcs] live.dev e) = true := by decide +kernel

theorem test_registerWrite_w1c : Reaches live.dev 0 A.refclk ∧ after (.registerWrite 0 0 A.refclk [0, 0, 1, 0] true) (edit live fun d => d.setReg A.refclk 0x000303FF) (fun e => e.reg A.refclk == 0x000203FF) = true := by decide +kernel

theorem test_registerWrite_readOnly : Reaches live.dev 0 A.globalId ∧ after (.registerWrite 0 0 A.globalId [1, 2, 3, 4] true) live (fun e => decide (e = live.dev)) = true := by decide +kernel

theorem test_registerWrite_partial : (inBar 2 0 0x8000 = true ∧ live.dev.barUp 2 = true ∧ live.dev.stopped 0 0x8000 = false ∧ inArea (locate 2 0 0x8000).1 2 = false ∧ bit (live.dev.reg A.daeInfo) 0 = false) ∧ after (.registerWrite 2 0 0x8000 [1, 2] false) live (fun e => e.reg A.daeAddr == 0x8000 && e.reg A.daeInfo == 1 + 2 + 8 + 16 + 0x20000 && e.reg A.daeCount == 1) = true := by decide +kernel

theorem test_readClear : Reaches live.dev 2 (kioskOff 2 0x2024) ∧ after (.readClearRegisterRead 2 0 (kioskOff 2 0x2024) 4 0xF) (edit live fun d => d.onKiosk 2 fun k => { k with eventLost := 9 }) (fun e => decide (e.out = [.completion 2 [9, 0, 0, 0]]) && (e.kiosk 2).eventLost == 0) = true := by decide +kernel

theorem test_readClear_count : Reaches live.dev 0 A.daeCount ∧ after (.readClearRegisterRead 0 0 A.daeCount 4 0xF) (edit live fun d => d.setReg A.daeCount 3) (fun e => decide (e.out = [.completion 0 [3, 0, 0, 0]]) && e.reg A.daeCount == 0 && only [.regs, .out] (live.dev.setReg A.daeCount 3) e) = true := by decide +kernel

theorem test_readRing : (Reaches live.dev 2 (kioskOff 2 0x1FFC) ∧ (live.dev.kiosk 2).resetBusy = false) ∧ after (.readClearRegisterRead 2 0 (kioskOff 2 0x1FFC) 4 0) (edit live fun d => d.onKiosk 2 fun k => { k with rspMem := [(0xFFF, 5)] }) (fun e => decide (e.out = [.completion 2 [0, 0, 0, 5]])) = true := by decide +kernel

theorem test_lowWordRead : Reaches live.dev 0 A.tickNum ∧ after (.lowWordRead 0 0 A.tickNum) (edit live fun d => d.onTime fun t => { t with tick := 0x500000004 }) (fun e => decide (e.out = [.completion 0 [4, 0, 0, 0]]) && decide (Tbl.get? (e.fn 0).latch A.tickNum = some 5)) = true := by decide +kernel

theorem test_wideLowWordWrite : Reaches live.dev 0 (A.ptpSetSec 1) ∧ after (.wideLowWordWrite 0 0 (A.ptpSetSec 1) 7) live (fun e => decide (Tbl.get? (e.fn 0).low (A.ptpSetSec 1) = some 7) && only [.funcs] live.dev e) = true := by decide +kernel

def lowHeld : State := edit live fun d => d.onFn 0 fun x => { x with low := [(A.ptpSetSec 1, 7)] }

theorem test_wideHighWordWrite : (Reaches lowHeld.dev 0 (A.ptpSetSec 1 + 4) ∧ Tbl.get? (lowHeld.dev.fn 0).low (A.ptpSetSec 1) = some 7) ∧ after (.wideHighWordWrite 0 0 (A.ptpSetSec 1 + 4) 0x10001) lowHeld (fun e => e.ctr (A.ptpSetSec 1) == 0x100000007 && only [.funcs, .ctrs] lowHeld.dev e) = true := by decide +kernel

def parked : State := edit live fun d => (d.onFn 0 fun x => { x with held := [{ bar := 0, off := 0x4000004, domain := 15, data := none, at' := 0, len := 4, be := 0xF }] }).onPower fun p => { p with upAt := [(15, 15000)] }

theorem test_heldAccessComplete : (parked.dev.heldReady 0 = some 0 ∧ (parked.dev.fn 0).held.length ≤ 16) ∧ after (.heldAccessComplete 0) parked (fun e => (e.fn 0).held.isEmpty && (match e.out.head? with | some (.completion 0 _) => true | _ => false)) = true := by decide +kernel

def overdue : State := edit parked fun d => (d.onPower fun p => { p with upAt := [], on := 0x7FFF }).onTime fun t => { t with now := 19000, nextAt := 23437 }

theorem test_heldAccessTimeout : (findIdx (fun h => !overdue.dev.heldInTime h) (overdue.dev.fn 0).held = some 0 ∧ 20000 ≤ overdue.dev.time.nextAt) ∧ after (.heldAccessTimeout 0) overdue (fun e => e.out.contains (.completion 0 [0xFF, 0xFF, 0xFF, 0xFF]) && (e.fn 0).held.isEmpty && e.reg A.daeCount == 1 && e.reg A.daeInfo == 1 + 4 + 256 * 15) = true := by decide +kernel

theorem test_selectRegisterWrite_onu : Reaches live.dev 0 (A.usOnuSel 1) ∧ after (.selectRegisterWrite (A.usOnuSel 1) 7) (edit live fun d => d.onOnu 7 fun o => { o with state := .operating, channel := 130, robust := true }) (fun e => e.reg (A.usOnuSel 1) == 7 && e.reg (A.usOnuSel 1 + 4) == 1 + 2 + 512) = true := by decide +kernel

def owned : State := edit live fun d => (d.onOnu 1 fun o => { o with state := .operating }).onOwner 0x1000001 fun o => { o with pages := 4 }

theorem test_selectRegisterWrite_owner : (Reaches owned.dev 0 A.bufOwnerSel ∧ owned.dev.ownerExists 0x1000001 = true) ∧ after (.selectRegisterWrite A.bufOwnerSel 0x1000001) owned (fun e => e.reg A.bufOwnerPages == 4 && only [.regs] owned.dev e) = true := by decide +kernel

theorem test_kioskReqTailWrite : (Reaches live.dev 2 (kioskOff 2 0x2000) ∧ (live.dev.kiosk 2).resetBusy = false) ∧ after (.kioskReqTailWrite 2 256) live (fun e => (e.kiosk 2).reqTail == 256 && only [.funcs, .out] live.dev e) = true ∧ after (.kioskReqTailWrite 2 257) live (fun e => (e.kiosk 2).reqTail == 0 && (e.kiosk 2).errInfo == 257 && bit (e.kiosk 2).cause.toNat 5) = true := by decide +kernel

theorem test_kioskRspHeadWrite : Reaches live.dev 2 (kioskOff 2 0x200C) ∧ after (.kioskRspHeadWrite 2 1) live (fun e => (e.kiosk 2).rspHead == 0 && (e.kiosk 2).errInfo == 0x20001 && bit (e.kiosk 2).cause.toNat 5) = true ∧ after (.kioskRspHeadWrite 2 4) (edit live fun d => d.onKiosk 2 fun k => { k with rspTail := 4 }) (fun e => (e.kiosk 2).rspHead == 4) = true := by decide +kernel

theorem test_ringReset : Reaches live.dev 0 (kioskOff 0 0x201C) ∧ after (.ringReset 0) (edit live fun d => d.onKiosk 0 fun k => { k with reqTail := 8 }) (fun e => (e.kiosk 0).resetBusy && (e.kiosk 0).reqHead == 8) = true := by decide +kernel

def resetting : State := edit live fun d => d.onKiosk 2 fun k => { k with resetBusy := true, ringFault := true, reqTail := 8, reqHead := 8, reqMem := [(3, 1)] }

theorem test_ringResetDone : ((resetting.dev.kiosk 2).resetBusy = true ∧ (resetting.dev.kiosk 2).executing = none) ∧ after (.ringResetDone 2) resetting (fun e => !(e.kiosk 2).resetBusy && !(e.kiosk 2).ringFault && (e.kiosk 2).level == 0 && (e.kiosk 2).reqTail == 0 && (e.kiosk 2).reqMem.isEmpty && only [.funcs] resetting.dev e) = true := by decide +kernel

theorem test_publish : (live.dev.kiosk 2).rspTail = 0 ∧ ringRead ((live.dev.publish 2 3 1 4 5 0 0 [9]).kiosk 2).rspMem 0 32 = msgHeader 3 1 4 5 1 0 0 ++ [9] ++ List.replicate 15 0 ∧ ((live.dev.publish 2 3 1 4 5 0 0 [9]).kiosk 2).rspTail = 2 := by decide +kernel

theorem test_place : ringRead ((live.dev.place cmdSysEcho (ask [7, 8])).kiosk 0).reqMem 0 32 = [3, 0, 4, 0, 5, 0, 0, 0, 2, 0, 0, 0, 0, 0, 0, 0, 7, 8] ++ List.replicate 14 0 ∧ ((live.dev.place cmdSysEcho (ask [7, 8])).kiosk 0).reqTail = 2 := by decide +kernel

def echo : State := edit live fun d => d.onKiosk 2 fun k => { k with reqTail := 2, reqMem := Mem.write [] 0 (msgHeader 3 0 4 5 2 0 0 ++ [0x55, 0x66]) }

theorem test_kioskTakeRequest : (echo.dev.nextKiosk.map Prod.fst = some 2 ∧ faulty (Kiosk.header (echo.dev.kiosk 2)) = false ∧ leAt (Kiosk.header (echo.dev.kiosk 2)) 2 2 = 4) ∧ after (.kioskTakeRequest 100) echo (fun e => decide (e.out.head? = some (.response 2 4 5 0 0 [0x55, 0x66])) && (e.kiosk 2).reqHead == 2 && (e.kiosk 2).expected == 6 && only [.draws, .regs, .meas, .funcs, .out, .time, .round] echo.dev e) = true := by decide +kernel

def bad : State := edit live fun d => d.onKiosk 2 fun k => { k with reqTail := 1, reqMem := Mem.write [] 0 (msgHeader 3 1 4 5 0 0 0) }

theorem test_kioskTakeRequest_faulty : faulty (Kiosk.header (bad.dev.kiosk 2)) = true ∧ after (.kioskTakeRequest 0) bad (fun e => (e.kiosk 2).ringFault && (e.kiosk 2).errInfo == 0x10000 && e.out.contains (.response 2 4 5 0x000E 0 [])) = true := by decide +kernel

theorem test_headerCheck : (live.dev.headerCheck (some cmdSysEcho) 0 4 2 5 = some (3, 3)) ∧ live.dev.headerCheck (some cmdSysEcho) 0 4 3 6 = some (4, 5) ∧ live.dev.headerCheck (some cmdTimeSelect) 2 0x0B01 3 5 = some (7, 0) ∧ live.dev.headerCheck (some cmdSysEcho) 1 4 3 0 = some (2, 0) := by decide +kernel

theorem test_event : (2 ≤ (live.dev.kiosk 2).level ∧ (live.dev.kiosk 2).ready = true) ∧ (live.dev.eventTo 0xE007 [1] 2).out.head? = some (.event 2 0xE007 1 false [1]) ∧ ((Dev.onKiosk live.dev 2 fun k => { k with rspTail := 200 }).eventTo 0xE007 [1] 2 |>.kiosk 2).eventLost = 1 := by decide +kernel

theorem test_waits : (live.dev.hostCan 0 = true ∧ 1 ≤ free (0 : BitVec 16) 0) ∧ after (.sysEcho (ask [1, 2])) (edit live fun d => d.onKiosk 0 fun k => { k with reqTail := 1 }) (fun e => (e.kiosk 0).reqTail == 3 && (e.kiosk 0).reqHead == 0 && e.out.isEmpty) = true := by decide +kernel

/-! ## The system and power groups -/

theorem test_hello : answersTo cmdHello .hello { ask ([1, 3, 0, 0] ++ le 4 0 ++ le 8 0) with version := 1 } (edit live fun d => d.onKiosk 0 fun k => { k with level := 0, mask := 9 }) [.pav, .ctrs, .data] ([3, 0, 0, 8] ++ le 4 0x30002 ++ le 4 0 ++ le 4 0 ++ le 4 6 ++ [0xE, 0, 0, 0] ++ le 4 (live.dev.reg A.globalId) ++ le 4 0) (fun e => (e.kiosk 0).level == 3 && (e.kiosk 0).expected == 6 && (e.kiosk 0).mask == 0) = true := by decide +kernel

theorem test_sysGetInfo : Passes cmdSysGetInfo (ask []) live.dev ∧ after (.sysGetInfo (ask [])) live (fun e => (match e.out.head? with | some (.response 0 2 5 0 0 p) => p.length == 76 && decide (p.take 4 = [0xFF, 3, 1, 0]) && decide (p.drop 60 = List.replicate 16 0) | _ => false) && only (served []) live.dev e) = true := by decide +kernel

theorem test_sysSubscribe : answers cmdSysSubscribe .sysSubscribe (le 4 0xFFF) live [] (le 4 0xFFF) (fun e => (e.kiosk 0).mask == 0xFFF) = true := by decide +kernel

theorem test_sysEcho : answers cmdSysEcho .sysEcho [9, 8, 7] live [] [9, 8, 7] (fun e => (e.kiosk 0).expected == 6) = true := by decide +kernel

theorem test_sysRestart : answers cmdSysRestart .sysRestart [] live [.pav] [] (fun e => e.pav.ordered) = true := by decide +kernel

theorem test_powerGetState : answers cmdPowerGetState .powerGetState [] live [] ([0, 0xFF, 0xFF, 0xFF] ++ le 4 0xFFFFFF) (fun _ => true) = true := by decide +kernel

theorem test_powerSetWake : answers cmdPowerSetWake .powerSetWake [0x7F, 0xF, 0, 0] live [] [] (fun e => e.reg A.powerWakeCfg == 0xF7F) = true := by decide +kernel

theorem test_powerGetRails : answers cmdPowerGetRails .powerGetRails [] (edit live fun d => d.onPav fun p => { p with rails := [(1, (750, 20))] }) [] (le 4 0 ++ le 2 750 ++ le 2 20 ++ List.replicate 64 0) (fun _ => true) = true := by decide +kernel

theorem test_powerSetState : answers cmdPowerSetState .powerSetState ([1, 0, 0, 0] ++ le 4 0x100000) live [.power, .red, .mir, .redch, .pon, .data, .ctrs, .pav] [0, 0, 0, 0] (fun e => e.power.run.isSome && e.power.cur == .running) = true := by decide +kernel

theorem test_powerSetState_met : answers cmdPowerSetState .powerSetState ([0, 0, 0, 0] ++ le 4 0) live [.power, .red, .mir, .redch, .pon, .data, .ctrs, .pav] [0, 0, 0, 0] (fun e => e.power.run.isNone && e.power.on == 0xFFFFFF) = true := by decide +kernel

theorem test_powerReqGo : (Reaches live.dev 0 A.powerReq ∧ live.dev.inService = true) ∧ after (.powerReqGo 1) (edit live fun d => d.setReg A.powerReqMask 0x100000) (fun e => e.reg A.powerReq == 1 && e.power.run.isSome) = true := by decide +kernel

theorem test_powerReqGo_bad : after (.powerReqGo 3) live (fun e => bit (e.reg A.powerCause) 2 && e.power.run.isNone) = true := by decide +kernel

def draining : State := edit live fun d => d.onPower fun p => { p with run := some { req := { state := .trimmed, mask := 0x100000, src := 0 }, off := 0x100000, on := 0, phase := 1, from' := 0, drainAt := 4000 } }

theorem test_powerDrainEnd : (draining.dev.power.run.map (fun c => (c.phase, c.drained, c.drainAt)) = some (1, false, 4000) ∧ 4000 ≤ draining.dev.time.nextAt) ∧ after .powerDrainEnd draining (fun e => !e.domOn 20 && e.domOn 19 && e.domOn 0) = true := by decide +kernel

def rising : State := edit live fun d => d.onPower fun p => { p with on := 0xFFFFFD, rising := 2, riseAt := [(1, 0)] }

def risen : State := edit rising fun d => d.onTime fun t => { t with now := 10000000, nextAt := 10005000 }

theorem test_domainUp : (bit risen.dev.power.rising 1 = true ∧ Tbl.look 0 risen.dev.power.riseAt 1 + bringUp 1 ≤ risen.dev.time.nextAt ∧ risen.dev.power.run = none) ∧ after (.domainUp 1) risen (fun e => e.domOn 1 && !bit e.power.rising 1 && bit e.power.owed 1) = true := by decide +kernel

def owing : State := edit live fun d => d.onPower fun p => { p with owed := 2 }

theorem test_domainRestore : (bit owing.dev.power.owed 1 = true ∧ owing.dev.fwServes = true) ∧ after (.domainRestore 1) owing (fun e => e.power.owed == 0 && only [.power] owing.dev e) = true := by decide +kernel

def changed : State := edit live fun d => (d.onTime fun t => { t with now := 5000 }).onPower fun p => { p with run := some { req := { state := .running, mask := 0, src := 1 }, off := 0, on := 2, phase := 2, from' := 1000 } }

theorem test_powerChangeDone : (changed.dev.power.avs = [] ∧ changed.dev.power.owed = 0 ∧ changed.dev.power.queued = none ∧ Nat.land changed.dev.power.on 2 = 2) ∧ after .powerChangeDone changed (fun e => e.power.run.isNone && e.power.cur == .running && e.reg A.powerLastUs == 4 && bit (e.reg A.powerCause) 0 && only [.power, .regs, .ctrs, .funcs, .out] changed.dev e) = true := by decide +kernel

def wakeable : State := edit live fun d => d.setReg A.powerWakeCfg 0x101

theorem test_wakeEvent : (wakeable.dev.wakeHolds 0 0 true = true ∧ wakeable.dev.power.run = none ∧ wakeable.dev.power.cur = .running) ∧ after (.wakeEvent 0 0 true) wakeable (fun e => e.power.lastWake == 0 && e.reg A.powerWakeInfo == 0 && bit (e.reg A.powerCause) 1) = true := by decide +kernel

theorem test_wakeEvent_dormant : after (.wakeEvent 0 511 true) (edit wakeable fun d => d.onPower fun p => { p with cur := .dormant, on := 1 }) (fun e => e.power.lastWake == 0 && decide (e.power.run.map Change.req = some { state := .running, mask := 0, src := 0, wake := 0 })) = true ∧ after (.wakeEvent 0 0 true) (edit wakeable fun d => d.onPower fun p => { p with run := changed.dev.power.run }) (fun e => bit e.power.latch.toNat 0) = true := by decide +kernel

def movingRail : State := edit live fun d => d.onPower fun p => { p with avs := [{ rail := 3, target := 770, step := 760 }] }

theorem test_avsAck : (movingRail.dev.avsHead 1).map (fun a => (a.rail, a.step, a.again)) = some (3, 760, false) ∧ after (.avsAck 1 true) movingRail (fun e => nth 0 e.power.set 3 == 760) = true ∧ after (.avsAck 1 false) movingRail (fun e => decide (e.out = [.avs 3 760]) && e.power.avs.any (fun a => a.again) && only [.power, .out] movingRail.dev e) = true := by decide +kernel

def failing : State := edit live fun d => (d.onTime fun t => { t with now := 999999, nextAt := 1007000 }).onPower fun p => { p with avs := [{ rail := 3, target := 770, step := 760, again := true }] }

theorem test_avsTimeout : ((failing.dev.avsHead 1).map (fun a => (a.rail, a.again, a.at')) = some (3, true, 0) ∧ 1000000 ≤ failing.dev.time.nextAt) ∧ after (.avsTimeout 1) failing (fun e => bit (e.reg A.powerAvsStatus) 3 && bit (e.reg A.powerCause) 3 && nth 0 e.power.set 3 == 750) = true := by decide +kernel

theorem test_railTrim : ((fedBy 3).any live.dev.domOn = true ∧ Tbl.get? live.dev.power.trimAt 3 = none) ∧ after (.railTrim 3 775) live (fun e => e.power.avs.any (fun a => a.rail == 3 && a.target == 775) && decide (Tbl.get? e.power.trimAt 3 = some 0) && only [.power, .out] live.dev e) = true := by decide +kernel

/-! ## Channels, die links and clocks -/

theorem test_chanConfig : answers cmdChanConfig .chanConfig ([2, 0, 0, 0, 3, 4, 0, 0] ++ le 4 99) net [.pon, .due] [] (fun e => decide (e.chan 2 = { dsWl := 3, usWl := 4, ponId := 99, maxLife := 86400 }) && decide (e.chan 0 = net.dev.chan 0)) = true := by decide +kernel

theorem test_treeCreate : answers cmdTreeCreate .treeCreate ([5, 0, 2, 0, 2, 0, 3, 0, 0xFF, 0xFF, 0xFF, 0xFF] ++ le 4 77) (edit net fun d => (d.onChan 2 fun c => { c with usWl := 1 }).onChan 3 fun c => { c with dsWl := 1, usWl := 2 }) [.pon] [] (fun e => decide (e.tree? 5 = some { chans := [2, 3], ident := 77 }) && decide ((e.chan 2).tree = some 5 ∧ (e.chan 3).tree = some 5)) = true := by decide +kernel

theorem test_treeDelete : answers cmdTreeDelete .treeDelete [5, 0, 0, 0] (edit net fun d => (d.onChan 2 fun c => { c with tree := some 5 }).onPon fun p => { p with trees := Tbl.set p.trees 5 { chans := [2], ident := 0 } }) [.pon, .otdr] [] (fun e => decide (e.tree? 5 = none) && decide ((e.chan 2).tree = none)) = true := by decide +kernel

theorem test_chanGet : answers cmdChanGet .chanGet [0, 0, 0, 0] net [] ([0, 0, 0, 0] ++ le 4 0 ++ [2, 0, 0, 0, 1, 0, 0, 0] ++ le 4 0) (fun _ => true) = true := by decide +kernel

theorem test_treeGet : answers cmdTreeGet .treeGet [0, 0, 0, 0] net [] ([1, 1, 0, 0, 0xFF, 0xFF, 0xFF, 0xFF, 0xFF, 0xFF] ++ le 4 7 ++ [1, 0, 0, 0]) (fun _ => true) = true := by decide +kernel

theorem test_engineGet : answers cmdEngineGet .engineGet [0, 0, 0, 0] (edit net fun d => d.onEng 0 fun x => { x with up := true, telFail := true, temp := some 300 }) [.pon] (le 4 (1 + 8 + 0x30) ++ le 2 300 ++ le 2 0 ++ (List.replicate 16 [0, 0x80]).flatten) (fun e => !(e.eng 0).telFail && (e.eng 0).up) = true := by decide +kernel

def laserEngine : State := edit net fun d => d.onEng 0 fun x => { x with up := true }

theorem test_engineI2c : Passes cmdEngineI2c (ask [0, 1, 0x50, 1, 2, 0, 0, 0, 0xAA]) laserEngine.dev := by decide +kernel

theorem test_chanSetState : (Passes cmdChanSetState (ask [0, 0, 1, 0]) net.dev ∧ net.dev.mirroring = false) ∧ after (.chanSetState (ask [0, 0, 1, 0])) net (fun e => e.pon.commits.length == 1 && only [.funcs, .out, .round, .pon] net.dev e) = true ∧ after (.chanSetState (ask [0, 0, 2, 0])) net (fun e => decide (e.out.head? = some (.response 0 0x0202 5 0 0 [])) && only (served []) net.dev e) = true := by decide +kernel

theorem test_chanGo : (let e := net.dev.chanGo 5 .towpath; (e.chan 5).state = .towpath ∧ (e.chan 5).laser = true ∧ (e.chan 5).bcast.active = 1 ∧ (e.chan 5).bcast.k1.isSome = true) := ⟨rfl, rfl, rfl, rfl⟩

theorem test_chanGo_off : (let e := (net.dev.onPon fun p => { p with onus := [] }).chanGo 0 .off; (e.chan 0).state = .off ∧ (e.chan 0).laser = false ∧ (e.chan 0).muted = true) := by decide +kernel

def tuning : State := edit net fun d => (d.onTime fun t => { t with now := 19499000, nextAt := 19501000 }).onChan 5 (fun c => { c with dsWl := 3, usWl := 4 }) |>.onKiosk 0 (fun k => { k with executing := some { func := 0, op := 0x0202, seq := 4, args := [5, 1], body := [5, 0, 1, 0], taken := 0 } }) |>.onPon fun p => { p with commits := [{ func := 0, op := 0x0202, seq := 4, args := [5, 1], body := [5, 0, 1, 0], taken := 0 }] }

theorem test_chanTuneTimeout : (((tuning.dev.kiosk 0).executing.map fun r => (r.op, tuning.dev.awaitsTune r)) = some (0x0202, true) ∧ 19500000 ≤ tuning.dev.time.nextAt) ∧ after (.chanTuneTimeout 0) tuning (fun e => decide (e.out.head? = some (.response 0 0x0202 4 0x000C 0 [])) && e.pon.commits.isEmpty) = true := by decide +kernel

theorem test_bclTelemetryFrame : net.dev.bclRuns 0 = true ∧ after (.bclTelemetryFrame 0 true 2 []) (edit net fun d => d.onEng 0 fun x => { x with good := 3 }) (fun e => (e.eng 0).up && (e.eng 0).good == 4 && (e.eng 0).fault && only [.pon] net.dev e) = true := by decide +kernel

theorem test_bclTelemetryFrame_records : after (.bclTelemetryFrame 0 true 0 [0x20000123]) net (fun e => decide ((e.eng 0).temp = some 0x123)) = true ∧ after (.bclTelemetryFrame 0 true 0 [0x6F000009]) net (fun e => decide ((e.chan 15).dsDone = some 9)) = true ∧ after (.bclTelemetryFrame 0 false 0 []) net (fun e => (e.eng 0).telFail && (e.eng 0).good == 0 && e.ctr (A.bclCrc 0) == 1) = true := by decide +kernel

def linked : State := edit net fun d => (d.onEng 0 fun x => { x with up := true, good := 4 }).onTime fun t => { t with edges := 128 }

theorem test_bclLinkDown : ((linked.dev.eng 0).up = true ∧ (linked.dev.eng 0).lastEdge + 3 ≤ linked.dev.time.edges) ∧ after (.bclLinkDown 0) linked (fun e => !(e.eng 0).up && bit (e.reg (A.bclStatus 0)) 1 && only [.pon, .regs, .pav, .ctrs, .data, .funcs, .out] linked.dev e) = true := by decide +kernel

def unlinked : State := edit net fun d => (d.onEng 0 fun x => { x with startEdge := some 0 }).onTime fun t => { t with edges := 128 }

theorem test_bclLinkUpTimeout : (unlinked.dev.eng 0).startEdge = some 0 ∧ after (.bclLinkUpTimeout 0) unlinked (fun e => (e.eng 0).startEdge.isNone && bit (e.reg (A.bclStatus 0)) 1) = true := by decide +kernel

theorem test_bclStateRefresh : (linked.dev.eng 0).refreshed + 128 ≤ linked.dev.time.edges ∧ after (.bclStateRefresh 0) linked (fun e => (e.eng 0).refreshed == 128 && e.out.length == 65 && only [.pon, .out] linked.dev e) = true := by decide +kernel

theorem test_dieLinkFlitCrcFail : net.dev.linkCarries 5 = true ∧ after (.dieLinkFlitCrcFail 5 true false 1) net (fun e => e.ctr (A.dlink 5 8) == 1 && e.ctr (A.dlink 5 0x18) == 1 && (e.dlink 5).fails == 1) = true ∧ after (.dieLinkFlitCrcFail 5 false true 2) (edit net fun d => d.onDlink 5 fun x => { x with fails := 3 }) (fun e => e.ctr (A.dlink 5 0x10) == 1 && (e.dlink 5).retraining && (e.dlink 5).fails == 0) = true := by decide +kernel

def retraining : State := edit net fun d => d.onDlink 2 fun x => { x with retraining := true, badTrains := 2 }

theorem test_dieLinkRetrainDone : ((retraining.dev.dlink 2).retraining = true ∧ (retraining.dev.dlink 2).badTrains < 3) ∧ after (.dieLinkRetrainDone 2 true) retraining (fun e => !(e.dlink 2).retraining && (e.dlink 2).badTrains == 0 && only [.data] retraining.dev e) = true ∧ after (.dieLinkRetrainDone 2 false) retraining (fun e => (e.dlink 2).badTrains == 3 && (e.dlink 2).retraining && e.ctr (A.dlink 2 0x20) == 0 && only [.data, .ctrs] retraining.dev e) = true := by decide +kernel

theorem test_dieLinkFailed : after (.dieLinkFailed 2) (edit net fun d => (d.onRed fun r => { r with role := .active }).onDlink 2 fun x => { x with badTrains := 3 }) (fun e => (e.dlink 2).fatal && !(e.dlink 2).up && e.red.flag && e.red.flagStops) = true := by decide +kernel

theorem test_spareLaneReplace : ((net.dev.dlink 0).up = true ∧ 0 < (net.dev.dlink 0).spareLeft) ∧ after (.spareLaneReplace 0) net (fun e => (e.dlink 0).spareUsed == 1 && (e.dlink 0).spareLeft == 1 && only [.data] net.dev e) = true := by decide +kernel

theorem test_refclkLoss : bit (net.dev.reg A.refclk) 7 = true ∧ after (.refclkLoss 7) net (fun e => e.boot.halted && !e.boot.devReady && !bit (e.reg A.refclk) 7 && bit (e.reg A.refclk) 23 && !e.domOn 1 && !e.domOn 23) = true ∧ after (.refclkLoss 3) net (fun e => bit e.pon.linesOff 3 && bit (e.reg A.refclk) 19 && decide (e.power = net.dev.power)) = true := by decide +kernel

theorem test_refclkLoss_others : after (.refclkLoss 5) (edit net fun d => d.onSub 511 fun x => { x with up := true }) (fun e => !(e.sub 511).up) = true ∧ after (.refclkLoss 6) net (fun e => !e.pcie.linkUp) = true ∧ after (.refclkLoss 9) (edit net fun d => d.onMir fun m => { m with up := true }) (fun e => !e.mir.up) = true := by decide +kernel

theorem test_refclkReturn : after (.refclkReturn 8) (edit net fun d => (d.setReg A.refclk 0x0FF).onTime fun t => { t with now := 100 }) (fun e => e.reg A.refclk == 0x1FF && e.time.diffFrom == 100) = true := by decide +kernel


/-! ## The registry -/

def onu1 : Onu := { state := .operating, serial := 0x4142434401020304, auth := true, tenant := 1 }

/-- Tenant 1 may hold objects. -/
def roomy : State := edit net fun d => d.onPon fun p => { p with tenants := [(1, { onus := 2, flows := 2, allocs := 2, bufKib := 64, cmdRate := 100, cmdDepth := 10 })] }

theorem test_onuList : answers cmdOnuList .onuList [0, 0, 0, 0, 8, 0, 0, 0] net [] ([1, 0, 0xFF, 0xFF] ++ [1, 0, 3, 0, 0x41, 0x42, 0x43, 0x44, 1, 2, 3, 4, 0, 0, 0, 0]) (fun _ => true) = true := by decide +kernel

theorem test_onuGet : answers cmdOnuGet .onuGet [1, 0, 0, 0] net [] ([3, 1, 0, 0, 0, 0, 0, 0, 0x41, 0x42, 0x43, 0x44, 1, 2, 3, 4, 0, 0, 0, 0, 1, 0, 2, 0]) (fun _ => true) = true := by decide +kernel

def tunable : State := edit net fun d => (((d.onOnu 1 fun o => { o with caps := 4, tuneDs := 0xFF, tuneUs := 0xFF }).onTree 0 fun t => { t with chans := [0, 2] }).onChan 2 fun c => { c with tree := some 0, state := .service, dsWl := 1, usWl := 1 }).onTime fun t => { t with edges := 16 }

theorem test_onuMigrate : answers cmdOnuMigrate .onuMigrate [1, 0, 2, 0] tunable [.pon] [] (fun e => decide ((e.onu 1).migr.map (fun m => (m.old, m.target, m.notBefore)) = some (0, 2, tunable.dev.nextCommit))) = true := by decide +kernel

theorem test_onuDiscLimit : answers cmdOnuDiscLimit .onuDiscLimit [0, 0, 4, 0] net [.pon] [] (fun e => decide ((e.tree? 0).map (fun t => (t.rate, t.tokens)) = some (4, 4000000000)) && decide (e.tree? 1 = net.dev.tree? 1)) = true := by decide +kernel

theorem test_omciSend : answers cmdOmciSend .omciSend ([1, 0, 48, 0] ++ List.replicate 48 7) net [.pon, .ctrs] [] (fun e => decide (Out.omci 1 (List.replicate 48 7) ∈ e.out) && (e.onu 1).omci == 1) = true ∧ answers cmdOmciSend .omciSend ([1, 0, 48, 0] ++ List.replicate 48 7) (edit net fun d => d.onRed fun r => { r with role := .active, watch := some 0 }) [.pon, .ctrs] [] (fun e => e.ctr A.redDsDiscard == 1 && (e.onu 1).omci == 0) = true := by decide +kernel

def held : State := edit net fun d => (d.onTime fun t => { t with uptime := 2000000000 }).onPon fun p => { p with omci := [{ handle := 5, onu := 1, msg := [1, 2, 3], at' := 900000000 }, { handle := 6, onu := 1, msg := [9], at' := 1500000000 }], omciNext := 7 }

theorem test_omciRecv : answers cmdOmciRecv .omciRecv (le 4 6) held [] ([1, 0, 1, 0, 9]) (fun _ => true) = true ∧ decide (Passes cmdOmciRecv (ask (le 4 5)) held.dev) = false := by decide +kernel

theorem test_omciHandleExpiry : after (.omciHandleExpiry 5) held (fun e => e.pon.omci.map (·.handle) == [6] && only [.pon] held.dev e) = true ∧ after (.omciHandleExpiry 6) held (fun e => e.pon.omci.length == 2) = true := by decide +kernel

def found : State := edit net fun d => d.onPon fun p => { p with onus := [(1, { onu1 with state := .discovered, auth := false, tenant := 0 }), (2, { onu1 with state := .quarantined, auth := true, serial := 9, lineId := 1 })] }

theorem test_onuAuthorise : orders cmdOnuAuthorise .onuAuthorise ([1, 0, 0, 0] ++ List.replicate 36 8) found = true ∧ commits cmdOnuAuthorise ([1, 0, 0, 0] ++ List.replicate 36 8) found [.pon] [] (fun e => decide ((e.onu 1).state = .ranging ∧ (e.onu 1).step = 1 ∧ (e.onu 1).auth = true ∧ (e.onu 1).regId = List.replicate 36 8)) = true := by decide +kernel

theorem test_onuAuthorise_quarantined : commits cmdOnuAuthorise ([2, 0, 1, 0] ++ List.replicate 36 8) found [.pon] [] (fun e => decide ((e.onu 2).state = .discovered) && decide (Out.ploam 0 none "Disable_Serial_Number" [0, 0, 0, 0, 0, 0, 0, 0, 9] ∈ e.out)) = true := by decide +kernel

theorem test_onuSuspend : orders cmdOnuSuspend .onuSuspend [1, 0, 0, 0] net = true ∧ commits cmdOnuSuspend [1, 0, 0, 0] net [.pon, .data] [] (fun e => decide ((e.onu 1).state = .suspended) && (e.onu 1).held) = true := by decide +kernel

theorem test_onuDeregister : orders cmdOnuDeregister .onuDeregister [1, 0, 0, 0] net = true ∧ commits cmdOnuDeregister [1, 0, 0, 0] net [.pon, .data, .ctrs, .regs, .meas, .pav] [] (fun e => decide ((e.onu 1).state = .absent) && e.pon.allocs.isEmpty && e.pon.flows.isEmpty && e.pon.omci.isEmpty) = true := by decide +kernel

/-! ## Discovery, activation and migration -/

def quiet : Win := { kind := 0, who := 0, grant := 100, lo := 90, hi := 200, eqdPre := 5000 }

def listening : State := edit net fun d => (d.onRecv 0 fun r => { r with wins := [quiet, { quiet with kind := 3, who := 5, grant := 400, lo := 390, hi := 500 }] }).onPon fun p => { p with onus := [] }

theorem test_quietWindowBurst : listening.dev.rngRuns 0 = true ∧ after (.quietWindowBurst 0 0 (-640)) listening (fun e => decide ((e.recv 0).heard = [(quiet, -640)]) && only [.pon] listening.dev e) = true ∧ after (.quietWindowBurst 0 0 6399) listening (fun e => decide ((e.recv 0).heard = [(quiet, 6399)])) = true ∧ after (.quietWindowBurst 0 0 6400) listening (fun e => decide (e = listening.dev)) = true := by decide +kernel

def heard : State := edit listening fun d => d.onRecv 0 fun r => { r with heard := [(quiet, 700)] }

theorem test_serialNumberRx_new : ((heard.dev.tree? 0).map fun t => (t.rate, decide (1000000000 ≤ (Tree.fill t heard.dev.uptimeNs).tokens))) = some (16, true) ∧ after (.serialNumberRx 0 77) heard (fun e => decide (e.onu 0 = { serial := 77, tree := 0, channel := 0, lineId := 0, caps := 0, moveTo := some (.discovered, 1), est := (0, -4300) }) && e.ctr (A.rngSnRx 0) == 1 && only [.pon, .ctrs] heard.dev e) = true := by decide +kernel

def authed : State := edit heard fun d => d.onPon fun p => { p with onus := [(3, { onu1 with state := .discovered, serial := 77 })] }

theorem test_serialNumberRx_known : after (.serialNumberRx 0 77) authed (fun e => decide ((e.onu 3).moveTo = some (.ranging, 1) ∧ (e.onu 3).moveCh = some 0 ∧ (e.onu 3).state = .discovered)) = true := by decide +kernel

theorem test_discoveryHoldExpiry : after (.discoveryHoldExpiry 3) (edit authed fun d => (d.onOnu 3 fun o => { o with auth := false }).onTime fun t => { t with uptime := 8000000000 }) (fun e => decide ((e.onu 3).moveTo = some (.quarantined, 4))) = true ∧ after (.discoveryHoldExpiry 3) (edit authed fun d => (d.onOnu 3 fun o => { o with auth := false }).onTime fun t => { t with uptime := 7999000000 }) (fun e => decide ((e.onu 3).moveTo = none)) = true := by decide +kernel

def atStep (n : Nat) : State := edit net fun d => (d.onOnu 1 fun o => { o with state := .ranging, step := n, tries := 2, regId := [9], stepBy := 0, lineId := 4 }).onRecv 0 fun r => { r with wins := [{ quiet with kind := 1, who := 1 }], heard := [({ quiet with kind := 1, who := 1 }, 3000)] }

theorem test_rangingResponse : (atStep 1).dev.rngRuns 0 = true ∧ after (.rangingResponse 1) (atStep 1) (fun e => decide ((e.onu 1).eqd = 2000 ∧ (e.onu 1).step = 3 ∧ (e.onu 1).tries = 1 ∧ (e.onu 1).stepBy = 8 ∧ Out.ploam 0 (some 4) "Ranging_Time" (le 4 2000) ∈ e.out) && only [.pon, .out] (atStep 1).dev e) = true := by decide +kernel

theorem test_activationStepTimeout : after (.activationStepTimeout 1) (atStep 3) (fun e => (e.onu 1).tries == 3 && (e.onu 1).stepBy == 8 && (e.onu 1).step == 3) = true ∧ after (.activationStepTimeout 1) (edit (atStep 3) fun d => d.onOnu 1 fun o => { o with tries := 3 }) (fun e => decide ((e.onu 1).moveTo = some (.discovered, 3)) && only [.pon, .out] (atStep 3).dev e) = true := by decide +kernel

theorem test_registrationRx : after (.registrationRx 1 [9, 0]) (atStep 3) (fun e => (e.onu 1).step == 4 && (e.onu 1).stepBy == 8) = true ∧ after (.registrationRx 1 [8]) (atStep 3) (fun e => decide ((e.onu 1).moveTo = some (.quarantined, 5))) = true := by decide +kernel

theorem test_extCapsRx : after (.extCapsRx 1 6 0xF 0xF0 20) (atStep 4) (fun e => decide ((e.onu 1).caps = 6 ∧ (e.onu 1).tuneDs = 0xF ∧ (e.onu 1).tuneUs = 0xF0 ∧ (e.onu 1).tuneMs = 20 ∧ (e.onu 1).step = 5)) = true := by decide +kernel

theorem test_onuKeyRx : after (.onuKeyRx 1 (List.replicate 16 3)) (atStep 5) (fun e => decide ((e.onu 1).keys.active = 1 ∧ (e.onu 1).keys.k1 = some { alg := 0, key := List.replicate 16 3 } ∧ (e.onu 1).step = 6)) = true := by decide +kernel

theorem test_activationComplete : after (.activationComplete 1) (atStep 6) (fun e => decide ((e.onu 1).moveTo = some (.operating, 2))) = true ∧ after (.activationComplete 1) (edit (atStep 6) fun d => d.onOnu 1 fun o => { o with held := true }) (fun e => decide ((e.onu 1).moveTo = some (.suspended, 2))) = true := by decide +kernel

theorem test_dyingGasp : after (.dyingGasp 1) net (fun e => decide ((e.onu 1).moveTo = some (.discovered, 8)) && only [.pon] net.dev e) = true := by decide +kernel

theorem test_eqdDriftBlock_below : after (.eqdDriftBlock 1) (edit net fun d => d.onOnu 1 fun o => { o with blockN := 128, blockSum := 100, eqd := 900 }) (fun e => decide ((e.onu 1).blockN = 0 ∧ (e.onu 1).eqdNext = none ∧ e.ctrs = net.dev.ctrs)) = true := by decide +kernel

def spreading : State := edit net fun d => { (d.onTime fun t => { t with tick := 256 }).onRecv 0 fun r => { r with noAck := [7] } with live := Tbl.set d.live (A.rngCfg 0) (2 ^ 14) }

theorem test_spreadIntegrationEnd : (spreading.dev.rngServes 0 = true ∧ bit (spreading.dev.live' (A.rngCfg 0)) 14 = true ∧ 256 % (64 * min 4 (max 1 (fld (spreading.dev.live' (A.rngParam 0)) 8 3))) = 0) ∧ after (.spreadIntegrationEnd 0 [(7, 100), (8, 200)]) spreading (fun e => decide ((e.recv 0).acks = [(8, 200)] ∧ (e.recv 0).noAck = [] ∧ (e.recv 0).integFrom = 256) && e.ctr (A.rngSpreadDet 0) == 2) = true := by decide +kernel

def moving : Migr := { old := 0, target := 2, started := true, fs := 20, answerBy := 8, sends := 1 }

def migrating : State := edit tunable fun d => (d.onOnu 1 fun o => { o with state := .migrating, migr := some moving, tuneSeq := 4, eqd := 500, tuneMs := 10 }).onTime fun t => { t with tick := 160 }

theorem test_extTuneRespRx_before : after (.extTuneRespRx 1 4 0 0) migrating (fun e => decide ((e.onu 1).migr = some { moving with accepted := true })) = true ∧ after (.extTuneRespRx 1 4 1 0) migrating (fun e => decide ((e.onu 1).moveTo = some (.operating, 9) ∧ (e.onu 1).moveCh = some 0)) = true := by decide +kernel

def tuned : State := edit migrating fun d => d.onTime fun t => { t with tick := 16 * 400 }

theorem test_extTuneRespRx_after : after (.extTuneRespRx 1 4 2 (-7)) tuned (fun e => decide ((e.onu 1).moveCh = some 2 ∧ (e.onu 1).eqdNext = some 507 ∧ (e.onu 1).moveTo = some (.operating, 9))) = true ∧ after (.extTuneRespRx 1 4 3 0) (edit tuned fun d => d.onOnu 1 fun o => { o with migr := some { moving with rollback := true } }) (fun e => decide ((e.onu 1).moveCh = some 0 ∧ (e.onu 1).moveTo = some (.operating, 9))) = true := by decide +kernel

theorem test_extTuneRespTimeout : after (.extTuneRespTimeout 1) migrating (fun e => decide ((e.onu 1).migr = some { moving with sends := 2, fs := 26, answerBy := 14 } ∧ (e.onu 1).tuneSeq = 5)) = true ∧ after (.extTuneRespTimeout 1) (edit migrating fun d => d.onOnu 1 fun o => { o with migr := some { moving with sends := 3 } }) (fun e => decide ((e.onu 1).moveCh = some 0 ∧ (e.onu 1).moveTo = some (.operating, 9))) = true := by decide +kernel

theorem test_migrationRollbackExpiry : after (.migrationRollbackExpiry 1) tuned (fun e => decide ((e.onu 1).migr = some { moving with rollback := true, waitTo := 560 })) = true ∧ after (.migrationRollbackExpiry 1) (edit tuned fun d => d.onChan 0 fun c => { c with state := .off }) (fun e => decide ((e.onu 1).moveTo = some (.discovered, 6))) = true := by decide +kernel

theorem test_migrationRollbackExpiry_end : after (.migrationRollbackExpiry 1) (edit tuned fun d => d.onOnu 1 fun o => { o with migr := some { moving with rollback := true, waitTo := 400 } }) (fun e => decide ((e.onu 1).moveTo = some (.discovered, 6))) = true := by decide +kernel

/-! ## Tables and rules -/

/-- A route command's payload: VRF 3, IPv4, 8 bits, 10.0.0.0. -/
def ten (nh : Nat) : Bytes := [3, 0, 4, 8, 10, 0, 0, 0] ++ List.replicate 12 0 ++ le 4 nh

def routed : State := edit net fun d => d.onTrie fun t => { t with routes := [{ vrf := 3, af := 4, len := 8, pfx := 10 * 2 ^ 120, nh := 9 }, { vrf := 3, af := 4, len := 16, pfx := 10 * 2 ^ 120, nh := 8, hidden := true }], restores := [{ word := 40, vrf := 3, af := 4, len := 12, pfx := 10 * 2 ^ 120, stage := 2, opened := 7 }] }

theorem test_routeAdd : answers cmdRouteAdd .routeAdd (ten 5) net [.data] [] (fun e => decide (e.data.trie.routes = [{ vrf := 3, af := 4, len := 8, pfx := 10 * 2 ^ 120, nh := 5 }])) = true := by decide +kernel

theorem test_routeDelete : answers cmdRouteDelete .routeDelete (ten 0) routed [.data] [] (fun e => e.data.trie.routes.map (·.len) == [16]) = true := by decide +kernel

theorem test_routeBatch : answers cmdRouteBatch .routeBatch ([2, 0, 0, 0] ++ [1, 0, 0, 0] ++ ten 0 ++ [0, 0, 0, 0] ++ ten 6) routed [.data] [] (fun e => e.data.trie.routes.map (·.nh) == [6, 8]) = true := by decide +kernel

theorem test_routeGet : answers cmdRouteGet .routeGet ((ten 0).take 20) routed [] ([1, 0, 0, 0] ++ le 4 9) (fun _ => true) = true ∧ answers cmdRouteGet .routeGet ((ten 0).take 20) net [] (List.replicate 8 0) (fun _ => true) = true := by decide +kernel

theorem test_nhSet : answers cmdNhSet .nhSet (le 4 9 ++ [63, 0, 0, 0, 1, 2, 3, 4, 5, 6, 0xFF, 0xFF, 0, 0, 0, 0]) net [.data] [] (fun e => decide (Tbl.get? e.data.trie.nh 9 = some { port := 63, sub := 0, dmac := 0x010203040506, vlan := 0xFFFF })) = true := by decide +kernel

/-- A learnt address: KIND 1, VRF 3, its destination flow 1 or uplink 1. -/
def learnt (kind dest : Nat) (mark : Bool) (i : Nat) : Bytes := emEntry 1 3 0 [10, 0, 0, 1] (kind, dest) mark i

def tabled : State := edit net fun d => (d.onDie 2 fun x => { x with em := [(1048575, learnt 0 1 true 1048575)], emBad := [1048639], scan := 1048575 }).setReg (A.emScanMs 2) 300000

theorem test_emRead : answers cmdEmRead .emRead ([2, 0, 0, 0] ++ le 4 5) tabled [] ([1, 0, 0, 0, 0xFF, 0xFF, 0xFF, 0xFF] ++ learnt 0 1 true 1048575) (fun _ => true) = true := by decide +kernel

theorem test_emRead_trie : answers cmdEmRead .emRead ([6, 1, 0, 0] ++ le 4 40) routed [] ([1, 0, 0, 0, 0xFF, 0xFF, 0xFF, 0xFF] ++ le 4 40 ++ [3, 0, 4, 12, 10] ++ List.replicate 15 0 ++ [2, 0, 0, 0] ++ le 4 7) (fun _ => true) = true := by decide +kernel

theorem test_emRestore : answers cmdEmRestore .emRestore ([2, 0, 0, 0] ++ le 4 1048639 ++ learnt 1 1 false 1048639) (edit tabled fun d => d.onDie 2 fun x => { x with em := [] }) [.data] [] (fun e => decide ((e.die 2).emBad = [] ∧ e.emAt 2 1048639 = some (learnt 1 1 false 1048639))) = true := by decide +kernel

theorem test_emRestore_trie : answers cmdEmRestore .emRestore ([6, 1, 0, 0] ++ le 4 40 ++ (le 4 40 ++ [3, 0, 4, 12, 10] ++ List.replicate 15 0 ++ [2, 0, 0, 0] ++ le 4 7)) routed [.data] [] (fun e => e.data.trie.restores.isEmpty && e.data.trie.routes.map (·.hidden) == [false, false]) = true := by decide +kernel

theorem test_ageSet : answers cmdAgeSet .ageSet ([0xFF, 0, 0, 0] ++ le 4 1000) net [] [] (fun e => (List.range 6).all fun n => e.reg (A.emScanMs n) == 1000) = true ∧ answers cmdAgeSet .ageSet ([3, 0, 0, 0] ++ le 4 3600000) net [] [] (fun e => e.reg (A.emScanMs 3) == 3600000 && e.reg (A.emScanMs 2) == net.dev.reg (A.emScanMs 2)) = true := by decide +kernel

/-- With an empty table a learnt key takes the first slot of its first bucket. -/
theorem test_learnRequest : ∃ i, (edit net fun d => d.onDie 2 fun x => { x with learn := [learnt 1 1 false 0] }).dev.emFind 2 (emKey (learnt 1 1 false 0)) = none ∧ (edit net fun d => d.onDie 2 fun x => { x with learn := [learnt 1 1 false 0] }).dev.emFree 2 (net.dev.emBuckets 2 (emKey (learnt 1 1 false 0))) = some i := ⟨_, rfl, rfl⟩

theorem test_agingVisit_removes : after (.agingVisit 2 true) tabled (fun e => (e.die 2).em.isEmpty && (e.die 2).scan == 1048576 && e.ctr (A.em 2 0x048) == 1 && e.ctr (A.em 2 0x050) == 1 && only [.data, .ctrs] tabled.dev e) = true := by decide +kernel

theorem test_agingVisit_marks : after (.agingVisit 2 false) (edit tabled fun d => d.onDie 2 fun x => { x with em := [(1048639, learnt 0 1 false 1048639)], scan := 1048639 }) (fun e => decide (e.emAt 2 1048639 = some (learnt 0 1 true 1048639)) && (e.die 2).scan == 0) = true ∧ after (.agingVisit 2 true) (edit tabled fun d => d.onDie 2 fun x => { x with em := [(0, learnt 0 1 false 0)], scan := 0 }) (fun e => decide (e.emAt 2 0 = some (learnt 0 1 false 0)) && (e.die 2).scan == 1) = true := by decide +kernel

theorem test_eccScrub_slot : after (.eccScrub 0 2 1048575 true 0 0 0 0 0) tabled (fun e => (e.die 2).em.isEmpty && (e.die 2).emBad == [1048575, 1048639] && e.ctr (A.em 2 0x070) == 1) = true ∧ after (.eccScrub 0 2 0 false 0 0 0 0 0) tabled (fun e => e.ctr (A.em 2 0x068) == 1 && only [.ctrs] tabled.dev e) = true := by decide +kernel

theorem test_eccScrub_trie : after (.eccScrub 1 0 77 true 3 4 9 (10 * 2 ^ 120) 1) routed (fun e => e.data.trie.routes.map (·.len) == [8] && e.data.trie.restores.length == 2 && e.ctr (A.trie 0x030) == 1) = true := by decide +kernel

/-- The bank that is not active holds a rule and a pattern. -/
def ruled : State := edit net fun d => d.onCls fun c => { c with bankB := { rules := [(5, List.replicate 32 1)], patterns := [(4095, [1, 2])] } }

theorem test_ruleWrite_empty : answers cmdRuleWrite .ruleWrite (le 4 5 ++ [16, 0, 0, 0] ++ List.replicate 16 0) ruled [.data] [] (fun e => e.data.cls.bankB.rules.isEmpty && decide (e.data.cls.bankA = ruled.dev.data.cls.bankA) && decide (e.data.cls.bankB.patterns = [(4095, [1, 2])])) = true := by decide +kernel

theorem test_patternWrite : answers cmdPatternWrite .patternWrite [0xFF, 0xF, 3, 0, 7, 8, 9] ruled [.data] [] (fun e => decide (e.data.cls.bankB.patterns = [(4095, [7, 8, 9])])) = true ∧ answers cmdPatternWrite .patternWrite [0xFF, 0xF, 0, 0, 0] ruled [.data] [] (fun e => e.data.cls.bankB.patterns.isEmpty) = true := by decide +kernel

theorem test_ruleRead : answers cmdRuleRead .ruleRead ([1, 1, 0, 0] ++ le 4 4095) ruled [] [2, 0, 0, 0, 1, 2] (fun _ => true) = true ∧ answers cmdRuleRead .ruleRead ([0, 0, 0, 0] ++ le 4 5) ruled [] [0, 0, 0, 0] (fun _ => true) = true := by decide +kernel

theorem test_ruleCopy : answers cmdRuleCopy .ruleCopy [] ruled [.data] [] (fun e => decide (e.data.cls.bankB = ruled.dev.data.cls.bankA)) = true := by decide +kernel

theorem test_ruleStatus : answers cmdRuleStatus .ruleStatus [] (edit net fun d => d.onCls fun c => { c with epoch := 3, swaps := 3 }) [] ([1, 0, 0, 0] ++ le 4 3 ++ le 4 3) (fun _ => true) = true := by decide +kernel

theorem test_excClassSet : answers cmdExcClassSet .excClassSet ([0xFF, 0, 0, 0] ++ le 4 5000 ++ le 4 20) net [.data] [] (fun e => decide ((e.exc 16).rate = 5000 ∧ (e.exc 16).burst = 20 ∧ (e.exc 16).tokens = 20 * 1000000000) && decide (e.exc 15 = net.dev.exc 15)) = true := by decide +kernel

theorem test_excClassGet : answers cmdExcClassGet .excClassGet [15, 0, 0, 0] (edit net fun d => d.bump (A.excPassed 15) 6) [] (le 4 100000 ++ le 4 1000 ++ le 8 6 ++ le 8 0) (fun _ => true) = true ∧ decide (Passes cmdExcClassGet (ask [0xFF, 0, 0, 0]) net.dev) = true := by decide +kernel

theorem test_ruleSwap : decide (Passes cmdRuleSwap (ask []) net.dev) = true ∧ after (.ruleSwap (ask [])) net (fun e => e.data.cls.pending && !e.data.cls.done && e.pon.commits.length == 1 && only [.funcs, .out, .round, .pon, .data] net.dev e) = true := by decide +kernel

theorem test_ruleSwap_edge : commits cmdRuleSwap [] (edit net fun d => d.onTime fun t => { t with tick := 48 }) [.data] ([1, 0, 0, 0] ++ le 4 1 ++ le 8 48) (fun e => e.data.cls.epoch == 1 && e.data.cls.swaps == 1 && e.data.cls.done) = true ∧ (let d := (edit net fun d => (d.onDie 3 fun x => { x with recirc := [{ data := [], epoch := 0 }] }).onKiosk 0 fun k => { k with executing := some { func := 0, op := 0x0705, seq := 5, args := [], body := [], taken := 0 } }).dev; let e := d.commitOne { func := 0, op := 0x0705, seq := 5, args := [], body := [], taken := 0 }; e.data.cls.draining = true ∧ e.out = d.out) := by decide +kernel

theorem test_swapDrainEnd : after .swapDrainEnd (edit net fun d => d.onCls fun c => { c with draining := true, done := false }) (fun e => e.data.cls.done && !e.data.cls.draining) = true := by decide +kernel

/-! ## Pipelines, bursts and frames -/

/-- A frame of no known protocol, and rules for its second pass: one that recirculates it with META 9. -/
def frame : Bytes := List.replicate 12 2 ++ [0x12, 0x34] ++ List.replicate 50 0
def second : Pkt := { data := frame, len := 64, die := 2, src := 7, pass := 2, seq := 3 }
def again : Body := [1, 0, 3, 2, 0, 0, 0xFF, 0xFF] ++ List.replicate 8 0 ++ [4, 0, 1, 0xFF, 0xFF, 0xFF, 0xFF, 0xFF, 0xFF, 0xFF, 0, 0, 9, 0, 0, 0]

def passing : State := edit net fun d => (d.onDie 2 fun x => { x with recirc := [second] }).onCls fun c => { c with bankA := { rules := [(5, again)] } }

theorem test_recirculatePass : ((parse frame 64).malformed = false ∧ (parse frame 64).frag = none ∧ ((passing.dev.data.cls.bank 0).decide' { die := 2, src := 7, xgem := 0, flow := none, metaVal := 0 } (parse frame 64) frame 64 2).map (·.action) = some 4) ∧ after (.recirculatePass 2) passing (fun e => (e.die 2).recirc.map (fun p => (p.data.length, p.pass, p.metaVal, p.seq)) == [(50, 3, 9, 3)] && e.ctr (A.cls 2 0x030) == 1 && only [.data, .ctrs, .meas] passing.dev e) = true := by decide +kernel

theorem test_recirculatePass_none : after (.recirculatePass 2) (edit net fun d => (d.onDie 2 fun x => { x with recirc := [{ second with loose := true }] }).onExc 0 fun b => { b with rate := 0 }) (fun e => (e.die 2).recirc.isEmpty && e.ctr (A.cls 2 0x018) == 1 && e.ctr (A.excDropped 0) == 1) = true := by decide +kernel

def waiting : State := edit net fun d => (d.onDie 3 fun x => { x with fence := true, order := [(7, { assign := 5, expect := 2, done := [(4, some second, 1000)] })] }).onTime fun t => { t with now := 2000, nextAt := 7812 }

theorem test_reorderTimeout : (orderKey 0 7 = 7 ∧ 1000 + 2000 ≤ waiting.dev.time.nextAt) ∧ after (.reorderTimeout 3 7) waiting (fun e => decide (Tbl.look {} (e.die 3).order 7 = { assign := 5, expect := 5, done := [] } ∧ (e.die 3).fenced = [second]) && e.ctr (A.cls 3 0x070) == 1) = true := by decide +kernel

def decision : FragDec := { key := [1], action := 0, exc := 0, cls := 0, flow := 0, vrf := 0, lookup := 0, metaVal := 0, rule := none, born := 500 }

theorem test_fragmentDecisionExpiry : after (.fragmentDecisionExpiry 1) (edit net fun d => (d.onDie 1 fun x => { x with frags := [decision, { decision with born := 501 }] }).onTime fun t => { t with uptime := 2000500 }) (fun e => (e.die 1).frags.map (·.born) == [501]) = true := by decide +kernel

theorem test_fragmentHoldTimeout : after (.fragmentHoldTimeout 1) (edit net fun d => ((d.onDie 1 fun x => { x with holding := [([1], second, 0)] }).onExc 3 fun b => { b with rate := 0 }).onTime fun t => { t with now := 499000, nextAt := 500000 }) (fun e => (e.die 1).holding.isEmpty && e.ctr (A.cls 1 0x060) == 1 && e.ctr (A.excDropped 3) == 1) = true := by decide +kernel

def fencing : State := edit net fun d => (d.onDie 1 fun x => { x with fence := true, fenceAt := some 100, fenced := [second] }).onTime fun t => { t with now := 20000, nextAt := 20100 }

theorem test_fenceTokenArrival : after (.fenceTokenArrival 1 none) fencing (fun e => (e.die 1).fenced.isEmpty && !(e.die 1).fence && decide (e.ctrs ≠ fencing.dev.ctrs)) = true ∧ after (.fenceTokenArrival 1 (some 6)) (edit net fun d => d.onDie 1 fun x => { x with onuFences := [(6, 0, none, false), (6, 0, none, true), (5, 0, none, false)] }) (fun e => (e.die 1).onuFences == [(6, 0, none, true), (5, 0, none, false)]) = true := by decide +kernel

theorem test_fenceWaitTimeout : after (.fenceWaitTimeout 1 none) fencing (fun e => (e.die 1).fenced.isEmpty && !(e.die 1).fence && (e.die 1).late && e.time.now == 20100) = true ∧ after (.fenceWaitTimeout 1 (some 6)) (edit fencing fun d => d.onDie 1 fun x => { x with fence := false, onuFences := [(6, 0, some 100, false)] }) (fun e => (e.die 1).fenced.isEmpty && (e.die 1).onuFences == [(6, 0, some 100, true)]) = true := by decide +kernel

/-- A burst of ONU 1 is in reception on channel 0. -/
def bursting : State := edit net fun d => { d.onRecv 0 fun r => { r with burst := some (1, 31, 2, none) } with live := Tbl.set d.live (A.usCfg 0) 0x30000 }

theorem test_burstLocked : bursting.dev.rxRuns 0 = true ∧ after (.burstLocked 0 1 32 400 (-3) (some 5)) (edit bursting fun d => d.onOnu 1 fun o => { o with missRun := 1, lockRun := 127, robustNext := true }) (fun e => decide ((e.recv 0).burst = some (1, 32, 0, some 5) ∧ (e.recv 0).lastOffset = -3 ∧ (e.onu 1).missRun = 0 ∧ (e.onu 1).lockRun = 128 ∧ (e.onu 1).robustNext = false ∧ (e.onu 1).acc.offset = -3 ∧ (e.onu 1).blockSum = -3) && bit (e.reg (A.usStatus 0)) 5 && e.ctr (A.usBursts 0) == 1) = true := by decide +kernel

theorem test_burstMissed : after (.burstMissed 0 1) (edit bursting fun d => d.onOnu 1 fun o => { o with missRun := 1 }) (fun e => decide ((e.onu 1).missRun = 2 ∧ (e.onu 1).robustNext = true ∧ (e.onu 1).moveTo = none)) = true ∧ after (.burstMissed 0 1) (edit bursting fun d => d.onOnu 1 fun o => { o with missRun := 62 }) (fun e => decide ((e.onu 1).moveTo = some (.discovered, 6))) = true := by decide +kernel

theorem test_burstOutsideWindow : after (.burstOutsideWindow 0 1) bursting (fun e => (e.onu 1).acc.window == 1 && (e.recv 0).outside == [(1, 0)]) = true := by decide +kernel

theorem test_codewordDecoded_counts : after (.codewordDecoded 0 14592 3 false []) bursting (fun e => e.ctr (A.usCw 0) == 1 && e.ctr (A.usBits 0) == 14592 && e.ctr (A.usPrefec 0) == 3 && decide ((e.recv 0).burst = some (1, 31, 3, none)) && !(e.recv 0).stopped) = true ∧ after (.codewordDecoded 0 14592 3 true []) bursting (fun e => e.ctr (A.usPrefec 0) == 14592 && e.ctr (A.usCwUncorr 0) == 1 && (e.recv 0).stopped) = true := by decide +kernel

theorem test_codewordDecoded_report : after (.codewordDecoded 0 0 0 false [.alloc 1024 (some 0xFFFFFE), .burstEnd]) bursting (fun e => decide ((e.alloc? 1024).map (fun a => (a.d, a.out)) = some (4 * 0xFFFFFE, 0)) && (e.recv 0).burst.isNone) = true := by decide +kernel

def receiving : State := edit bursting fun d => d.onRecv 0 fun r => { r with openF := some { onu := 1, mf := 31, xgem := 1, pli := 5, lf := true, idx := 0, key := none, nonce := [], pos := 0, hdr := 0 } }

theorem test_codewordDecoded_omci : padded 0 5 = 8 ∧ after (.codewordDecoded 0 0 0 false [.bytes [1, 2, 3, 4, 5, 0, 0, 0]]) receiving (fun e => decide (e.pon.omci.map (fun m => (m.onu, m.msg)) = [(1, [1, 2, 3, 4, 5])]) && (e.recv 0).openF.isNone) = true := by decide +kernel

def poisoned : Pkt := { second with die := 0, src := 1, poisoned := true, whole := false }

theorem test_poisonedTailArrival : after (.poisonedTailArrival 0 1) (edit net fun d => (d.onData fun x => { x with sending := [(.uplink 0, poisoned), (.flow 1, second)] }).onPon fun p => { p with queues := [(1, [poisoned, second])] }) (fun e => decide (e.data.sending = [(.flow 1, second)] ∧ e.queue 1 = [second]) && decide (Out.badTail (.uplink 0) (le 4 (0xFFFFFFFF - crc32 (frame.take 60))) ∈ e.out)) = true := by decide +kernel

theorem test_reassemblyTimeout : after (.reassemblyTimeout 1 2000) (edit net fun d => (d.onDie 0 fun x => { x with reasm := [(reasmKeyOf 1 2000, 1, [1], 0, false)] }).onTime fun t => { t with edges := 16 }) (fun e => (e.die 0).reasm.isEmpty && e.ctr (A.usPoisoned 0) == 1 && decide ((e.flow? 1).map Flow.poisoned = some 1)) = true := by decide +kernel

theorem test_rogueDetect : after (.rogueDetect 0 0 0) (edit bursting fun d => d.setReg A.pavCfg 3) (fun e => bit (e.reg (A.usStatus 0)) 1 && decide ((e.die 0).rogue.map (fun r => (r.channel, r.kind, r.round)) = some (0, 0, 0)) && e.reg (A.rogueStatus 0) == 0xFFFF0080) = true ∧ after (.rogueDetect 0 3 0) (edit bursting fun d => d.onRecv 0 fun r => { r with lossRun := 32 }) (fun e => bit (e.reg (A.usStatus 0)) 4) = true := by decide +kernel

theorem test_rogueDetect_outside : after (.rogueDetect 0 2 1) (edit bursting fun d => d.onRecv 0 fun r => { r with outside := [(1, 0), (1, 0), (1, 0), (1, 0)] }) (fun e => bit (e.reg (A.usStatus 0)) 3) = true ∧ after (.rogueDetect 0 2 1) (edit bursting fun d => d.onRecv 0 fun r => { r with outside := [(1, 0), (1, 0), (1, 0)] }) (fun e => !bit (e.reg (A.usStatus 0)) 3) = true := by decide +kernel

def isolating (r : Isolation) : State := edit net fun d => ((d.onDie 0 fun x => { x with rogue := some r }).onTime fun t => { t with edges := 18 }).onPon fun p => { p with onus := [(1, onu1), (2, { onu1 with serial := 2, lineId := 1 }), (3, { onu1 with serial := 3, lineId := 2 })] }

theorem test_rogueRoundEnd_halves : after (.rogueRoundEnd 0 true) (isolating { channel := 0, kind := 0, cands := [1, 2, 3] }) (fun e => decide ((e.die 0).rogue.map (fun r => (r.off, r.round, r.from')) = some ([1, 2], 1, 18)) && (e.onu 1).rogueOff && (e.onu 2).rogueOff && !(e.onu 3).rogueOff) = true := by decide +kernel

theorem test_rogueRoundEnd_ends : after (.rogueRoundEnd 0 false) (isolating { channel := 0, kind := 0, cands := [1, 2, 3] }) (fun e => (e.die 0).rogue.isNone && e.reg (A.rogueStatus 0) == 0xFFFF0300) = true ∧ after (.rogueRoundEnd 0 false) (isolating { channel := 0, kind := 0, cands := [2], off := [2], round := 2 }) (fun e => (e.die 0).rogue.isNone && e.reg (A.rogueStatus 0) == 0x20100 && decide ((e.onu 2).moveTo = some (.discovered, 6))) = true := by decide +kernel

/-! ## Flows, tenants, allocations and keys -/

def flowMsg : Bytes := le 4 2097151 ++ le 2 1 ++ le 2 1024 ++ le 2 1024 ++ [5, 3, 1, 0, 0, 0]

theorem test_flowCreate : orders cmdFlowCreate .flowCreate flowMsg roomy = true := by decide +kernel

theorem test_flowCreate_edge : commits cmdFlowCreate flowMsg roomy [.pon, .data] [] (fun e => decide (e.flow? 2097151 = some { onu := 1, xgem := 1024, alloc := 1024, cls := 5, dir := 3, encrypt := 1 } ∧ e.node (nodeKey 2 2097151) = { prio := 5 } ∧ e.pol 2097151 = {})) = true := by decide +kernel

theorem test_flowDelete : orders cmdFlowDelete .flowDelete (le 4 1) net = true ∧ commits cmdFlowDelete (le 4 1) (edit net fun d => (d.onPon fun p => { p with queues := [(1, [second]), (2, [second])] }).onPol 1 fun p => { p with passed := 9 }) [.pon, .data, .ctrs, .regs, .pav, .meas] [] (fun e => decide (e.flow? 1 = none ∧ e.queue 1 = [] ∧ e.queue 2 = [second] ∧ e.pol 1 = {})) = true := by decide +kernel

theorem test_flowGet : answers cmdFlowGet .flowGet (le 4 1) net [] ([1, 0] ++ le 2 2000 ++ le 2 1024 ++ [0, 3, 0, 1, 0, 0]) (fun _ => true) = true := by decide +kernel

theorem test_tenantBind : answers cmdTenantBind .tenantBind [62, 63, 0, 0] net [] [] (fun e => (e.fn 63).tenant == 62 && (e.fn 2).tenant == 1) = true := by decide +kernel

theorem test_tenantUnbind : answers cmdTenantUnbind .tenantUnbind [1, 0, 0, 0] (edit net fun d => (d.onFn 2 fun f => { f with grant := true, tk := some [1] }).onFn 1 fun f => { f with tenant := 0 }) [] [] (fun e => (e.fn 2).tenant == 0 && !(e.fn 2).grant && (e.fn 2).tk.isNone && decide ((e.page 2).slot 7 = {})) = true := by decide +kernel

theorem test_tenantSetQuota : answers cmdTenantSetQuota .tenantSetQuota ([1, 0] ++ le 2 9 ++ le 4 8 ++ le 4 7 ++ le 4 6 ++ le 4 1000 ++ le 2 4 ++ [0, 0]) net [.pon] [] (fun e => decide (e.tenant 1 = { onus := 9, flows := 8, allocs := 7, bufKib := 6, cmdRate := 1000, cmdDepth := 4 }) && decide (e.tenant 2 = net.dev.tenant 2) && decide ((e.kiosk 2).tokens ≤ 4000000000)) = true := by decide +kernel

theorem test_tenantGet : answers cmdTenantGet .tenantGet [1, 0, 0, 0] (edit net fun d => d.onPon fun p => { p with tenants := [(1, { onus := 9, flows := 8, allocs := 7, bufKib := 6, cmdRate := 5, cmdDepth := 4 })] }) [] ([2, 1, 1, 0] ++ le 4 1 ++ le 4 1 ++ le 4 0 ++ le 2 9 ++ le 4 8 ++ le 4 7 ++ le 4 6 ++ le 4 5 ++ le 2 4 ++ [0, 0]) (fun _ => true) = true := by decide +kernel

theorem test_counterGrant : answers cmdCounterGrant .counterGrant [1, 1, 0, 0] net [] [] (fun e => (e.fn 2).grant && !(e.fn 3).grant) = true ∧ answers cmdCounterGrant .counterGrant [1, 0, 0, 0] (edit net fun d => d.onFn 2 fun f => { f with grant := true }) [] [] (fun e => !(e.fn 2).grant) = true := by decide +kernel

theorem test_measOnu : answers cmdMeasOnu .measOnu [1, 0, 0, 0] (edit net fun d => d.onOnu 1 fun o => { o with acc := { rxPower := 0xFF00, lock := 400, offset := -2, preFec := 3, bits := 4, bursts := 5 } }) [] (le 2 0xFF00 ++ le 2 400 ++ le 4 0xFFFFFFFE ++ le 8 3 ++ le 8 4 ++ le 8 5) (fun _ => true) = true := by decide +kernel

theorem test_measChan : answers cmdMeasChan .measChan [1, 0, 0, 0] (edit net fun d => (d.bump (A.usBits 1) 7).setReg (A.usRogue 1) 2) [] (le 8 0 ++ le 8 7 ++ le 8 0 ++ le 4 2 ++ le 4 0) (fun _ => true) = true := by decide +kernel

def allocMsg (id assured : Nat) : Bytes := le 2 0 ++ le 2 id ++ le 2 1 ++ [2, 0] ++ le 4 0 ++ le 4 assured ++ le 4 4096 ++ le 2 3 ++ [16, 0]

theorem test_allocSet_new : orders cmdAllocSet .allocSet (allocMsg 16383 2048) roomy = true ∧ commits cmdAllocSet (allocMsg 16383 2048) roomy [.pon] [] (fun e => decide ((e.alloc? 16383).map (fun a => [a.onu, a.type, a.assured, a.max, a.weight, a.maxWait, a.d, a.out]) = some [1, 2, 2048, 4096, 3, 16, 0, 0]) && decide (e.alloc? 1024 = net.dev.alloc? 1024)) = true := by decide +kernel

theorem test_allocSet_old : commits cmdAllocSet (allocMsg 1024 2048) (edit net fun d => d.onPon fun p => { p with allocs := Tbl.modify p.allocs 1024 fun a => { a with d := 50, out := 60, last := 70 } }) [.pon] [] (fun e => decide ((e.alloc? 1024).map (fun a => (a.type, a.assured, a.d, a.out, a.last)) = some (2, 2048, 50, 60, 70))) = true := by decide +kernel

theorem test_allocDelete : orders cmdAllocDelete .allocDelete (le 2 0 ++ le 2 1024) (edit net fun d => d.onPon fun p => { p with flows := [] }) = true ∧ commits cmdAllocDelete (le 2 0 ++ le 2 1024) (edit net fun d => d.onPon fun p => { p with flows := [] }) [.pon] [] (fun e => decide (e.alloc? 1024 = none) && (e.alloc? 1).isSome) = true := by decide +kernel

theorem test_allocGet : answers cmdAllocGet .allocGet (le 2 0 ++ le 2 1024) net [] (le 2 1 ++ [1, 0] ++ le 4 0 ++ le 4 1000 ++ le 4 1024000 ++ le 2 1 ++ [0, 0] ++ le 4 0 ++ le 4 0) (fun _ => true) = true := by decide +kernel

def hintMsg (tick bytes period count : Nat) : Bytes := le 2 0 ++ le 2 1024 ++ le 8 tick ++ le 4 bytes ++ le 2 period ++ le 2 count

theorem test_dbaHint : answers cmdDbaHint .dbaHint (hintMsg 40 100 4 0) (edit net fun d => d.onTime fun t => { t with tick := 20 }) [.pon] [] (fun e => decide ((e.alloc? 1024).bind (·.hintNext) = some { tick := 40, bytes := 100, period := 4, left := none })) = true ∧ answers cmdDbaHint .dbaHint (hintMsg 40 0 0 0) (edit net fun d => d.onTime fun t => { t with tick := 20 }) [.pon] [] (fun e => decide ((e.alloc? 1024).map (·.hintNext) = some none)) = true := by decide +kernel

theorem test_dbaPolicy : answers cmdDbaPolicy .dbaPolicy [0, 0, 1, 0] net [.due] [] (fun e => bit (e.reg (A.dbaCfg 0)) 17 && e.due.any (fun x => x.1 == net.dev.nextCommit && x.2.1 == A.dbaCfg 0 && bit x.2.2.toNat 17)) = true := by decide +kernel

def keyed (k : Keys) : State := edit net fun d => (d.onOnu 1 fun o => { o with keys := { k with active := 1, k1 := some { alg := 0, key := [1] } } }).onTime fun t => { t with uptime := 86400000000000, tick := 16 * 1065 }

theorem test_keyRoll : answers cmdKeyRoll .keyRoll [1, 0, 0, 0] (keyed {}) [.pon] [] (fun e => decide ((e.onu 1).keys.rolling = true ∧ (e.onu 1).keys.sent = 1 ∧ (e.onu 1).keys.sentAt = 86400000000000 ∧ (e.onu 1).keys.active = 1 ∧ Out.ploam 0 (some 0) "Key_Control" [2, 0] ∈ e.out)) = true ∧ answers cmdKeyRoll .keyRoll [1, 0, 0, 0] (keyed { rolling := true, sent := 3 }) [.pon] [] (fun e => (e.onu 1).keys.sent == 3) = true := by decide +kernel

theorem test_keyRoll_broadcast : decide (Passes cmdKeyRoll (ask [0xFF, 0xFF, 1, 0]) net.dev) = true := by decide +kernel

theorem test_keyGet : answers cmdKeyGet .keyGet [1, 0, 0, 0] (keyed { rolls := 4, fromFrame := 1000 }) [] ([1, 0, 0, 0] ++ le 4 4 ++ le 8 65) (fun _ => true) = true := by decide +kernel

theorem test_keyPolicy : answers cmdKeyPolicy .keyPolicy ([1, 0, 1, 0] ++ le 4 60) (edit net fun d => d.onChan 1 fun c => { c with mode := 2 }) [.pon] [] (fun e => (e.chan 1).alg == 1 && (e.chan 1).maxLife == 60 && (e.chan 0).maxLife == 0) = true := by decide +kernel

theorem test_keyExchange : decide (Passes cmdKeyExchange (ask (4 :: (be 48 P384.gx ++ be 48 P384.gy) ++ [0, 0, 0])) net.dev ∧ net.dev.trngOk = true) = true := by decide +kernel

/-- The example of RFC 3394 with a 256-bit transport key and a 128-bit key is a key that PAGE_KEY_UNWRAP takes. -/
def transport : Bytes := (List.range 32).map (BitVec.ofNat 8)
def wrappedKey : Bytes := be 8 0x64E8C3F9CE0F5BA2 ++ be 8 0x63E9777905818A2A ++ be 8 0x93C8191E7D6E8AE7

theorem test_pageKeyUnwrap : Passes cmdPageKeyUnwrap (ask ([7, 0] ++ le 2 24 ++ wrappedKey)) (net.dev.onFn 0 fun f => { f with tk := some transport }) ∧ net.dev.trngOk = true ∧ (net.dev.page 0).job = none ∧ (net.dev.page 0).slots.length = 8 := by decide +kernel

theorem test_keyRollStart : ((keyed {}).dev.rollable (.onu 1) = true ∧ ((keyed {}).dev.chan 0).maxLife = 0) ∧ after (.keyRollStart 1 0) (edit (keyed {}) fun d => d.onChan 0 fun c => { c with maxLife := 86400 }) (fun e => (e.onu 1).keys.rolling && (e.onu 1).keys.sent == 1) = true := by decide +kernel

theorem test_keyRequestRepeat : after (.keyRequestRepeat 1 0) (keyed { rolling := true, sent := 3 }) (fun e => (e.onu 1).keys.sent == 4 && only [.pon, .out] (keyed {}).dev (e.onOnu 1 fun o => { o with keys := ((keyed {}).dev.onu 1).keys })) = true ∧ after (.keyRequestRepeat 1 0) (keyed { rolling := true, sent := 4 }) (fun e => decide ((e.onu 1).keys.rolling = false ∧ (e.onu 1).keys.retryAt = some 86410000000000 ∧ (e.onu 1).keys.active = 1)) = true := by decide +kernel

theorem test_keyRollRetry : after (.keyRollRetry 1 0) (keyed { retryAt := some 86400000000000 }) (fun e => decide ((e.onu 1).keys.rolling = true ∧ (e.onu 1).keys.retryAt = none ∧ (e.onu 1).keys.sent = 1)) = true := by decide +kernel

theorem test_oldKeyExpiry : after (.oldKeyExpiry 1 0) (keyed { rolling := true, switched := true, switchAt := some 1000, k2 := some { alg := 0, key := [2] }, rolls := 1 }) (fun e => decide ((e.onu 1).keys.rolling = false ∧ (e.onu 1).keys.rolls = 2 ∧ (e.onu 1).keys.k2 = none ∧ (e.onu 1).keys.k1.isSome = true)) = true ∧ after (.oldKeyExpiry 1 0) (keyed { rolling := true, switched := true, switchAt := some 1001, k2 := some { alg := 0, key := [2] } }) (fun e => (e.onu 1).keys.k2.isSome) = true := by decide +kernel

/-! ## Shaping, gates and buffers -/

/-- A node with a spent bucket, 101 edges on; NODE of a flow is its number. -/
def shaped : State := edit net fun d => (d.onNode (nodeKey 2 1) fun n => { n with rate := 1000, tokens := -2048, edge := 0 }).onTime fun t => { t with edges := 101 }

theorem test_shaperSet : nodeOf 1 = nodeKey 2 1 ∧ orders cmdShaperSet .shaperSet (le 4 1 ++ le 4 500 ++ le 4 16384 ++ [0, 0, 0, 0]) shaped = true ∧ commits cmdShaperSet (le 4 1 ++ le 4 500 ++ le 4 16384 ++ [0, 0, 0, 0]) shaped [.data] [] (fun e => decide ((e.node (nodeKey 2 1)).rate = 500 ∧ (e.node (nodeKey 2 1)).burst = 16384 ∧ (e.node (nodeKey 2 1)).tokens = 97952)) = true := by decide +kernel

theorem test_shaperSet_clear : commits cmdShaperSet (le 4 1 ++ le 4 500 ++ le 4 16384 ++ [1, 0, 0, 0]) shaped [.data] [] (fun e => decide ((e.node (nodeKey 2 1)).tokens = 0)) = true := by decide +kernel

theorem test_shaperGet : answers cmdShaperGet .shaperGet (le 4 1) shaped [.data] (le 4 1000 ++ le 4 65536 ++ le 8 96) (fun _ => true) = true := by decide +kernel

theorem test_policerSet : orders cmdPolicerSet .policerSet (le 4 1 ++ le 4 8 ++ le 4 1) shaped = true ∧ commits cmdPolicerSet (le 4 1 ++ le 4 8 ++ le 4 1) shaped [.data] [] (fun e => decide ((e.pol 1).rate = 8 ∧ (e.pol 1).burst = 1 ∧ (e.pol 1).tokens = 1024)) = true := by decide +kernel

theorem test_schedSet : orders cmdSchedSet .schedSet (le 4 1 ++ [7, 0, 0xFF, 0xFF]) net = true ∧ commits cmdSchedSet (le 4 1 ++ [7, 0, 0xFF, 0xFF]) net [.data] [] (fun e => (e.node (nodeKey 2 1)).prio == 7 && (e.node (nodeKey 2 1)).weight == 65535) = true := by decide +kernel

/-- The owner of tag 0x1000001: ONU 1. -/
def quotaMsg : Bytes := le 4 0x1000001 ++ [3, 0, 0, 0] ++ le 4 2 ++ le 4 5

theorem test_bufQuotaSet : orders cmdBufQuotaSet .bufQuotaSet quotaMsg roomy = true ∧ commits cmdBufQuotaSet quotaMsg (edit roomy fun d => d.onPon fun p => { p with tenants := Tbl.modify p.tenants 1 fun t => { t with bufKib := 1000 } }) [.data, .regs] [] (fun e => decide ((e.owner 0x1000001).reserved = [0, 0, 0, 2] ∧ (e.owner 0x1000001).quota = [4096, 1024, 1024, 5])) = true := by decide +kernel

theorem test_bufQuotaGet : answers cmdBufQuotaGet .bufQuotaGet (le 4 0x1000001 ++ [3, 0, 0, 0]) (edit net fun d => d.onOwner 0x1000001 fun o => { o with inUse := [1, 1, 1, 3], peak := [9, 9, 9, 9] }) [.data] (le 4 0 ++ le 4 128 ++ le 4 3 ++ le 4 9) (fun e => decide ((e.owner 0x1000001).peak = [9, 9, 9, 3])) = true := by decide +kernel

/-- Port 63 is enabled in mode 0 and its subport 504 is up. -/
def ported : State := edit net fun d => (d.setReg (A.uplCfg 63) 0x40000001).onSub 504 fun x => { x with up := true }

theorem test_gateWrite : answers cmdGateWrite .gateWrite ([63, 0] ++ le 2 255 ++ le 2 1 ++ [0, 0] ++ [0xF0, 0, 0, 0] ++ le 4 1000) ported [.data] [] (fun e => decide (Tbl.get? (e.sub 504).pend 255 = some (0xF0, 1000))) = true := by decide +kernel

theorem test_gateCommit : answers cmdGateCommit .gateCommit ([63, 0] ++ le 2 2 ++ le 4 3000 ++ le 8 0) (edit ported fun d => d.onSub 504 fun x => { x with pend := [(0, 1, 1000), (1, 2, 2000)] }) [.data] [] (fun e => decide ((e.sub 504).sched = some { entries := [(1, 1000), (2, 2000)], cycle := 3000, base := 0 } ∧ (e.sub 504).change = 12000)) = true := by decide +kernel

theorem test_preemptSet : orders cmdPreemptSet .preemptSet [63, 0, 7, 0] ported = true ∧ commits cmdPreemptSet [63, 0, 7, 0] ported [.data] [] (fun e => (e.sub 504).preempt == 7) = true := by decide +kernel

def gated : State := edit ported fun d => (d.onSub 504 fun x => { x with force := some { entries := [(0xFF, 600), (0x0F, 400)], cycle := 1000, base := 0 } }).onTime fun t => { t with nextAt := 7812 }

theorem test_gateEntryChange : (gated.dev.selNs = 0 ∧ gated.dev.selDeadline 600 = 600) ∧ after (.gateEntryChange 504) gated (fun e => e.time.now == 600 && only [.time, .draws, .regs, .meas, .funcs, .out] gated.dev e) = true := by decide +kernel

theorem test_gateListChange : after (.gateListChange 504) (edit ported fun d => d.onSub 504 fun x => { x with sched := some { entries := [(1, 1000)], cycle := 1000, base := 500 }, change := 500 }) (fun e => e.time.now == 500 && (e.sub 504).force.isSome && (e.sub 504).sched.isNone) = true ∧ after (.gateListChange 504) (edit gated fun d => d.onSub 504 fun x => { x with sched := some { entries := [], cycle := 1000, base := 500 }, change := 500 }) (fun e => (e.sub 504).force.isNone) = true := by decide +kernel

theorem test_preemptVerify : after (.preemptVerify 504 true) (edit ported fun d => d.onSub 504 fun x => { x with preempt := 1 }) (fun e => (e.sub 504).verified) = true ∧ after (.preemptVerify 504 false) (edit ported fun d => d.onSub 504 fun x => { x with preempt := 1, verifyAt := 100 }) (fun e => !(e.sub 504).verified && (e.sub 504).verifyAt == 10000100) = true := by decide +kernel

def sendable : Pkt := { data := frame, len := 64, cls := 3, buf := some (0, 9), dest := .uplink 504 }

theorem test_uplinkFrameStart : upBytes sendable = frame ∧ after (.uplinkFrameStart 504) (edit ported fun d => d.onSub 504 fun x => { x with queues := [(2, [second]), (3, [sendable, second])] }) (fun e => decide (Out.upFrame 504 frame ∈ e.out) && decide (Tbl.look [] (e.sub 504).queues 3 = [second] ∧ Tbl.look [] (e.sub 504).queues 2 = [second]) && (e.sub 504).busyTo == lineTime (ported.dev.upRate 504) 64 && decide ((0, 9) ∈ e.data.buf.egress)) = true := by decide +kernel

theorem test_downstreamSelect_idle : after (.downstreamSelect 0 0 8) net (fun e => match e.out with | .dsFrame 0 2097152 0 b :: _ => b.length == 8 && only [.out] net.dev e | _ => false) = true := by decide +kernel

/-- ONU 1's flow 1 is owed the turn, with deficit enough for one frame. -/
def turned : State := edit net fun d => (((d.onNode (nodeKey 2 1) fun n => { n with deficit := 72 }).onNode (nodeKey 1 1) fun n => { n with deficit := 72, turns := [(0, 2)] }).onNode (nodeKey 0 0) fun n => { n with turns := [(0, 2)] }).onPon fun p => { p with queues := [(1, [{ sendable with dest := .flow 1 }])] }

theorem test_downstreamSelect_frame : after (.downstreamSelect 0 16383 72) turned (fun e => decide (e.queue 1 = []) && (e.node (nodeKey 2 1)).sent == 72 && (e.node (nodeKey 0 0)).sent == 72 && (match e.out with | .dsFrame 0 1 0 b :: _ => b.length == 72 && decide (b.drop 8 = frame) | _ => false)) = true := by decide +kernel

/-- Buffer (0, 5) is held by ONU 1's tag. -/
def buffered : State := edit net fun d => (d.onBuf fun b => { b with alloc := [(bufKey 0 5, 0x1000001)] }).onOwner 0x1000001 fun o => { o with reserved := [4, 0, 0, 0], inUse := [1, 0, 0, 0] }

theorem test_toPolder : let d := { buffered.dev with live := Tbl.set buffered.dev.live A.bufCtrl 0x0A00 }; d.domOn 15 = true ∧ d.linkCarries 2 = true ∧ d.isHeld 2 = false ∧ d.shadow = false ∧ d.power.run = none ∧ d.queue 1 = [] ∧ poolOf 64 = some 0 ∧ bit (d.live' A.bufCtrl) 1 = false ∧ (d.owner 0x1000001).inUse.length = 4 ∧ nth 0 (d.owner 0x1000001).inUse 0 < nth 0 (d.owner 0x1000001).reserved 0 ∧ 0 < d.poolFree 0 := by decide +kernel

theorem test_bufferFree : after (.bufferFree 0 5 0x1000001) buffered (fun e => e.data.buf.alloc.isEmpty && decide ((e.owner 0x1000001).inUse = [0, 0, 0, 0])) = true ∧ after (.bufferFree 0 5 7) buffered (fun e => bit (e.reg A.bufCause) 5 && e.ctr A.bufFfree == 1 && e.reg A.bufErrInfo == 3 && e.reg A.bufErrAddr == 5 && e.reg A.bufErrReq == 7) = true := by decide +kernel

theorem test_bufferFree_twice : after (.bufferFree 3 3071 9) buffered (fun e => bit (e.reg A.bufCause) 4 && e.ctr A.bufDfree == 1 && e.reg A.bufErrInfo == 13 && decide (e.data = buffered.dev.data)) = true := by decide +kernel

theorem test_bufferReclaimSweep : after .bufferReclaimSweep buffered (fun e => e.data.buf.orphans == [bufKey 0 5] && e.data.buf.alloc.length == 1) = true ∧ after .bufferReclaimSweep (edit buffered fun d => d.onBuf fun b => { b with orphans := [bufKey 0 5] }) (fun e => e.data.buf.alloc.isEmpty && e.ctr A.bufReclaim == 1 && bit (e.reg A.bufCause) 6) = true := by decide +kernel

/-- A request of the Sluice's link is held for pool 0. -/
def waitingBuf : HeldBuf := { who := 2, pkt := { sendable with dest := .uplink 504, die := 2, buf := none }, pool := 0, at' := 0 }

theorem test_heldBufferGrant : (let d := (edit ported fun d => (d.onBuf fun b => { b with held := [waitingBuf] }).onOwner (ported.dev.ownerOf waitingBuf.pkt) fun o => { o with reserved := [1, 0, 0, 0] }).dev; nth 0 (d.owner (d.ownerOf waitingBuf.pkt)).inUse 0 < nth 0 (d.owner (d.ownerOf waitingBuf.pkt)).reserved 0 ∧ 0 < d.poolFree 0) := by decide +kernel

theorem test_bufferHoldExpiry : after (.bufferHoldExpiry 2) (edit ported fun d => d.onBuf fun b => { b with held := [waitingBuf] }) (fun e => e.data.buf.held.isEmpty && e.ctr A.bufHoldDrop == 1) = true := by decide +kernel

theorem test_basinStageRead : after (.basinStageRead 0 1 0 none) (edit net fun d => d.setQueue 1 [{ second with seg := 2 }]) (fun e => (e.queue 1).map (·.seg) == [1] && e.data.buf.staged == 64) = true := by decide +kernel

theorem test_basinStackDrainEnd : after (.basinStackDrainEnd 3) (edit net fun d => d.onBuf fun b => { b with draining := [(3, 0)] }) (fun e => e.data.buf.draining.isEmpty && only [.data] net.dev e) = true := by decide +kernel

theorem test_stackPlacesPages : after (.stackPlacesPages 3) (edit net fun d => d.onTime fun t => { t with now := 1999000, nextAt := 2000000 }) (fun e => e.data.buf.placing == [false, false, false, true]) = true := by decide +kernel

/-! ## Uplinks -/

theorem test_uplinkLinkUp : after (.uplinkLinkUp 504 5 0 false) (edit ported fun d => d.onSub 504 fun x => { x with up := false }) (fun e => (e.sub 504).up && (e.lane 255).locked && e.reg (A.uplDeskew 63) == 5 && bit (e.reg (A.uplCause 63)) 0 && only [.data, .regs, .funcs, .out] ported.dev e) = true := by decide +kernel

theorem test_uplinkLinkDown : after (.uplinkLinkDown 504 0 0) ported (fun e => !(e.sub 504).up && bit (e.reg (A.uplCause 63)) 0) = true := by decide +kernel

theorem test_laneFaultCheck : after (.laneFaultCheck 255 1) ported (fun e => (e.lane 255).fault == 1 && !(e.sub 504).up && decide (Out.lane 255 false ∈ e.out) && bit (e.reg (A.uplCause 63)) 1) = true ∧ after (.laneFaultCheck 255 0) (edit ported fun d => d.onLane 255 fun x => { x with fault := 5, clean := 1 }) (fun e => (e.lane 255).fault == 0 && decide (e.out.head? = some (.lane 255 true))) = true := by decide +kernel

theorem test_laneFaultCheck_first : after (.laneFaultCheck 255 0) (edit ported fun d => d.onLane 255 fun x => { x with fault := 5 }) (fun e => (e.lane 255).fault == 5 && (e.lane 255).clean == 1) = true := by decide +kernel

theorem test_uplCfgEnClear : Reaches ported.dev 0 (A.uplCfg 63) ∧ after (.uplCfgEnClear 63) (edit ported fun d => d.onSub 504 fun x => { x with queues := [(3, [sendable])] }) (fun e => !e.portEn 63 && !(e.sub 504).up && decide (Tbl.look [] (e.sub 504).queues 3 = [])) = true := by decide +kernel

theorem test_uplCfgModeWrite : after (.uplCfgModeWrite 62 2) ported (fun e => fld (e.reg (A.uplCfg 62)) 1 2 == 2 && e.reg (A.uplRxCorr 62) == 2413 && e.reg (A.uplTxCorr 62) == 972) = true ∧ after (.uplCfgModeWrite 63 1) ported (fun e => bit (e.reg (A.uplCause 63)) 4 && fld (e.reg (A.uplCfg 63)) 1 2 == 0) = true := by decide +kernel

theorem test_uplCfgEnSet : after (.uplCfgEnSet 62) ported (fun e => e.portEn 62 && fld (e.reg (A.uplCfg 62)) 1 31 == fld (ported.dev.reg (A.uplCfg 62)) 1 31) = true := by decide +kernel

theorem test_tsfHeadRead : after (.tsfHeadRead 511) (edit ported fun d => d.onSub 511 fun x => { x with fifo := [(7, 1, 2, 3), (8, 4, 5, 6)] }) (fun e => decide (e.out.head? = some (.completion 0 (le 4 (1 + 2 + 65536 * 7)))) && decide ((e.sub 511).readout = (1, 2, 3)) && (e.sub 511).fifo.length == 1) = true ∧ (let _ := Reaches ported.dev 0 (A.tsfHead 0); Reaches ported.dev 0 (A.tsfHead 511)) := by decide +kernel

def good : Bytes := withFcs (frame.take 60)

theorem test_uplinkFrameRx_drops : after (.uplinkFrameRx 504 (good.drop 1) false 1 2) ported (fun e => e.ctr (A.subRxFrames 504) == 1 && e.ctr (A.subFecCorr 504) == 1 && e.ctr (A.subFecUncorr 504) == 2 && decide (e.data = ported.dev.data)) = true ∧ after (.uplinkFrameRx 504 frame false 0 0) ported (fun e => e.ctr (A.subFcsErr 504) == 1) = true ∧ after (.uplinkFrameRx 504 good true 0 0) ported (fun e => e.ctr (A.subInOverrun 504) == 1) = true := by decide +kernel

theorem test_uplinkFrameRx_control : after (.uplinkFrameRx 504 (withFcs (List.replicate 12 2 ++ [0x88, 0x08] ++ List.replicate 46 0)) false 0 0) ported (fun e => e.ctr (A.subCtrlDrop 504) == 1) = true ∧ after (.uplinkFrameRx 504 good false 0 0) (edit ported fun d => d.setReg (A.uplCfg 63) (0x003F0001)) (fun e => e.ctr (A.subOversize 504) == 1) = true := by decide +kernel

theorem test_uplinkFrameRx_spread : after (.uplinkFrameRx 504 good false 0 0) ported (fun e => e.ctr (A.subRxFrames 504) == 1 && e.ctr (A.subFcsErr 504) == 0 && e.ctr (A.subInOverrun 504) == 0) = true := by decide +kernel

theorem test_synceOutputReturn : after (.synceOutputReturn 1) (edit ported fun d => (d.onSynce 1 fun _ => { enable := true, sub := 248 }).onTime fun t => { t with now := 9999000, nextAt := 10000000 }) (fun e => (e.synce 1).active && decide (e.out.head? = some (.synce 1 true))) = true := by decide +kernel

theorem test_synceSet : answers cmdSynceSet .synceSet [1, 63, 0, 1] ported [.data] [] (fun e => decide (e.synce 1 = { enable := true, sub := 248, active := false })) = true := by decide +kernel

theorem test_ptpPortSet : answers cmdPtpPortSet .ptpPortSet [63, 0, 1, 1] ported [] [] (fun e => e.reg (A.subPtpCfg 504) == 3) = true := by decide +kernel

/-! ## Time -/

/-- Both domains are declared locked by the host. -/
def locked : State := edit net fun d => (d.setReg (A.ptpCtrl 0) 1).setReg (A.ptpCtrl 1) 1

theorem test_timeSelect : orders cmdTimeSelect .timeSelect [1, 0, 0, 0] locked = true ∧ commits cmdTimeSelect [1, 0, 0, 0] locked [.time, .data, .ctrs] [] (fun e => e.time.selected == 1) = true := by decide +kernel

theorem test_timeGet : answers cmdTimeGet .timeGet [] (edit locked fun d => (d.setReg (A.ptpCtrl 1) 0).onTime fun t => { t with tick := 77, uptime := 1000 }) [] ([0, 1, 0, 0] ++ le 8 77 ++ le 8 1000) (fun _ => true) = true := by decide +kernel

theorem test_todSet : answers cmdTodSet .todSet [1, 0, 1, 0] net [.pon] [] (fun e => (e.chan 1).tod && !(e.chan 0).tod) = true ∧ Passes cmdTodSet (ask [0xFF, 0xFF, 1, 0]) net.dev := by decide +kernel

def timed : State := edit net fun d => (d.onPtp 0 fun p => { p with count := (5000000000 * 1000000000 + 7) * 2 ^ 32 + 9 }).onTime fun t => { t with selected := 1 }

theorem test_ptpNowFracRead : Reaches timed.dev 0 (A.ptpNowFrac 0) ∧ after (.ptpNowFracRead 0) timed (fun e => decide (e.out.head? = some (.completion 0 (le 4 9))) && decide (Tbl.get? (e.fn 0).latch (A.ptpNowNs 0) = some 7 ∧ Tbl.get? (e.fn 0).latch (A.ptpNowSec 0) = some 705032704 ∧ Tbl.get? (e.fn 0).latch (A.ptpNowSec 0 + 4) = some 1)) = true := by decide +kernel

theorem test_ptpLoad : Reaches net.dev 0 (A.ptpCtrl 1) ∧ after (.ptpLoad 1) (edit net fun d => (d.setCtr (A.ptpSetSec 1) 3).setReg (A.ptpSetNs 1) 999999999) (fun e => (e.ptp 1).count == 3999999999 * 2 ^ 32 && e.reg (A.ptpSteps 1) == 1) = true ∧ after (.ptpLoad 1) (edit net fun d => d.setReg (A.ptpSetNs 1) 1000000000) (fun e => bit (e.reg (A.ptpCtrl 1)) 2 && (e.ptp 1).count == 0) = true := by decide +kernel

theorem test_ptpStep : Reaches net.dev 0 (A.ptpStep 0 + 4) ∧ after (.ptpStep 0 0xFFFFFFFF) (edit net fun d => (d.onPtp 0 fun p => { p with count := 5 * 2 ^ 32 }).onFn 0 fun f => { f with low := [(A.ptpStep 0, 0xFFFFFFFD)] }) (fun e => (e.ptp 0).count == 2 * 2 ^ 32) = true ∧ after (.ptpStep 0 0xFFFFFFFF) (edit net fun d => d.onFn 0 fun f => { f with low := [(A.ptpStep 0, 0xFFFFFFFD)] }) (fun e => bit (e.reg (A.ptpCtrl 0)) 2) = true := by decide +kernel

theorem test_ptpIncrWrite : Reaches net.dev 0 (A.ptpIncr 1 + 4) ∧ after (.ptpIncrWrite 1 1) (edit net fun d => d.onFn 0 fun f => { f with low := [(A.ptpIncr 1, 0x418938)] }) (fun e => (e.ptp 1).incr == 0x100418937 && bit (e.reg (A.ptpCtrl 1)) 3) = true ∧ after (.ptpIncrWrite 1 1) (edit net fun d => d.onFn 0 fun f => { f with low := [(A.ptpIncr 1, 0x418937)] }) (fun e => (e.ptp 1).incr == 0x100418937 && decide (e.regs = net.dev.regs)) = true := by decide +kernel

theorem test_cmpArm : Reaches net.dev 0 (A.cmpCtrl 3) ∧ after (.cmpArm 3 0x1F) (edit net fun d => (d.setCtr (A.cmpTgtSec 3) 1).setReg (A.cmpTgtNs 3) 5) (fun e => decide (e.cmp 3 = { armed := true, target := 1000000005, late := false }) && e.reg (A.cmpCtrl 3) == 0x1E) = true ∧ after (.cmpArm 3 0) (edit net fun d => d.onCmp 3 fun c => { c with armed := true, target := 9 }) (fun e => decide (e.cmp 3 = { armed := false, target := 9 })) = true := by decide +kernel

/-- Unit 2 stands 100 ns ahead of domain A. -/
def armed (ctrl : Nat) : State := edit net fun d => ((d.setReg (A.cmpCtrl 2) ctrl).setReg (A.cmpPeriod 2) 200).setReg (A.cmpWidth 2) 500 |>.onCmp 2 fun _ => { armed := true, target := 100 }

theorem test_compareFire : after (.compareFire 2) (armed 0) (fun e => e.time.now == 100 && e.ctr (A.cmpFired 2) == 1 && e.reg (A.cmpStatus 2) == 2 && !(e.cmp 2).armed) = true ∧ after (.compareFire 2) (armed 0x1A) (fun e => (e.cmp 2).armed && (e.cmp 2).target == 300 && decide (Out.pulse 2 true 100 ∈ e.out)) = true := by decide +kernel

theorem test_ptpRefDiffMeasure : after (.ptpRefDiffMeasure 0xFFFFFFF0) (edit net fun d => d.onTime fun t => { t with now := 999999000, nextAt := 1000000000 }) (fun e => e.reg A.ptpRefDiff == 0xFFFFFFF0 && e.time.diffFrom == 1000000000) = true := by decide +kernel

theorem test_frameDriftCheck : after (.frameDriftCheck 3 4000) net (fun e => decide (e = net.dev)) = true ∧ after (.frameDriftCheck 3 4001) net (fun e => bit (e.reg A.tickStatus) 6 && decide (e.pav.log.head?.map (fun x => (x.code, x.source, x.data)) = some (0x0204, 3, [3]))) = true := by decide +kernel

theorem test_alignReq : Reaches net.dev 0 A.tickCtrl ∧ after .alignReq net (fun e => e.time.alignReq && only [.regs, .time] net.dev e) = true := by decide +kernel

def aligning : State := edit live fun d => ((d.setReg (A.ptpCtrl 0) 1).setReg A.tickCtrl 1).setReg A.refclk 0x3FF |>.onTime fun t => { t with now := 7812, edgeAt := 7812, nextAt := 15624, edges := 1, tick := 1, nextTick := 2, ptpA := { count := 1000 * 2 ^ 32 } }

theorem test_alignmentStep : (aligning.dev.alignDue = true ∧ aligning.dev.allChanOff = true ∧ aligning.dev.holdover = false) ∧ after .alignmentStep aligning (fun e => e.time.stepping && e.time.nextTick == 2 && e.time.nextAt == 7812 + 14625 && only [.time] aligning.dev e) = true := by decide +kernel

theorem test_tickEdge : after (.tickEdge [0]) (edit live fun d => d.onTime fun t => { t with now := 5 }) (fun e => e.time.tick == 1 && e.time.nextTick == 2 && e.time.edges == 1 && e.time.now == 7812 && e.time.nextAt == 15625) = true ∧ after (.tickEdge []) { live with dev := { live.dev with due := [(1, A.dbaCfg 3, 5)] } } (fun e => e.live' (A.dbaCfg 3) == 5) = true := by decide +kernel

theorem test_tickEdge_sync : after (.tickEdge []) (edit net fun d => (d.onChan 0 fun c => { c with state := .towpath }).onChan 1 fun c => { c with mode := 2, state := .towpath }) (fun e => e.out.any (fun o => match o with | .syncBlock c w => c == 1 && w.head? == some 0x6E3A91C50F4DB2A7#64 && w.length == 3 | _ => false) && !e.out.any (fun o => match o with | .syncBlock c _ => c == 0 | _ => false)) = true := by decide +kernel

/-! ## Crypto pages, the DMA engine and measurement -/

/-- Function 2's page: a key in slot 3, one byte of input. -/
def slot3 : Slot := { alg := 1, ctr := 4, epoch := 0x01020304, key := List.replicate 16 7 }
def paged (op : BitVec 32) : State := edit net fun d => d.onFn 2 fun f => { f with page := { op := op, len := 1, slots := [{}, {}, {}, slot3, {}, {}, {}, {}], inp := [(0, 9)] } }

theorem test_cryptoStart : Reaches net.dev 2 (pageOff 2 8) ∧ after (.cryptoStart 2) (paged 0x30) (fun e => decide ((e.page 2).job.map (fun j => (j.op, j.slot, j.data, j.nonce)) = some (0, 3, [9], be 4 0x01020304 ++ be 8 4)) && ((e.page 2).slot 3).ctr == 5 && !((e.page 2).slot 3).retired) = true ∧ after (.cryptoStart 2) (paged 0x50) (fun e => (e.page 2).job.isNone && (e.page 2).done && decide (Page.check ((paged 0x50).dev.page 2) = some (e.page 2).result) && (e.page 2).ops == 1) = true := by decide +kernel

def working : State := edit (paged 0x32) fun d => d.onFn 2 fun f => { f with page := { f.page with job := some { op := 2, slot := 3, key := List.replicate 16 7, nonce := be 4 0x01020304 ++ be 8 4, tag := [], aad := [], data := [9] } } }

theorem test_cryptoStart_busy : after (.cryptoStart 2) working (fun e => (e.page 2).startErr && (e.page 2).job.isSome) = true := by decide +kernel

theorem test_cryptoClear : after (.cryptoClear 2 8) (paged 0) (fun e => decide ((e.page 2).slots = List.replicate 8 {})) = true ∧ after (.cryptoClear 2 8) working (fun e => decide ((e.page 2).waiting = [(3, {})]) && ((e.page 2).slot 3).alg == 1) = true := by decide +kernel

/-- AES-128 in counter mode from block 1 (SP 800-38A): one byte under the key stream. -/
theorem test_cryptoOperationDone : after (.cryptoOperationDone 2) working (fun e => (e.page 2).job.isNone && (e.page 2).done && (e.page 2).result == 0 && (e.page 2).outLen == 1 && (e.page 2).ops == 1 && decide ((e.page 2).nonce = [0x04030201, 0, 0x04000000])) = true := by decide +kernel

/-- The example of FIPS 197, appendix C.1. -/
theorem test_aes : aesEnc ((List.range 16).map (BitVec.ofNat 8)) (be 16 0x00112233445566778899AABBCCDDEEFF) = be 16 0x69C4E0D86A7B0430D8CDB78070B4C55A := by decide +kernel

theorem test_cryptoZeroisePage : Reaches net.dev 0 A.cryptoEngZeroise ∧ after (.cryptoZeroisePage 2) working (fun e => decide ((e.page 2).slots = List.replicate 8 {}) && (e.page 2).result == 6 && (e.page 2).ops == 1) = true := by decide +kernel

theorem test_cryptoZeroiseAll : after .cryptoZeroiseAll working (fun e => (e.page 2).job.isNone && decide ((e.page 2).slots = List.replicate 8 {})) = true := by decide +kernel

theorem test_trngHealthFail : after .trngHealthFail net (fun e => bit (e.reg A.cryptoEngStatus) 1 && e.reg A.cryptoTrngFail == 1 && !e.trngOk) = true := by decide +kernel

/-- Channel 31 serves requester 1, descriptors in host memory at 0x1000. -/
def dma31 (c : Dma) : State := edit net fun d => (d.setReg (A.dmaCfg 31) 0x103).onDma 31 fun _ => c

theorem test_dmaEnable : Reaches net.dev 0 (A.dma 31 0) ∧ after (.dmaEnable 31) (dma31 { desc := 0x1000 }) (fun e => (e.dmaCh 31).en && decide ((e.dmaCh 31).state = .run)) = true ∧ after (.dmaEnable 31) (edit net fun d => d.setReg (A.dmaCfg 31) 0x1400) (fun e => !(e.dmaCh 31).en && bit (e.reg (A.dmaCause 31)) 3) = true := by decide +kernel

theorem test_dmaDisable : Reaches (dma31 { en := true }).dev 0 (A.dma 31 0) ∧ ((dma31 { en := true }).dev.dmaCh 31).en = true := by decide +kernel

theorem test_dmaResume : after (.dmaResume 31) (dma31 { en := true, state := .halt, haltCause := 1 }) (fun e => decide ((e.dmaCh 31).state = .run)) = true := by decide +kernel

theorem test_dmaKick : after (.dmaKick 31) (dma31 { en := true, state := .wait }) (fun e => decide ((e.dmaCh 31).state = .run)) = true ∧ after (.dmaKick 31) (dma31 { en := true, state := .fin, descNew := true }) (fun e => decide ((e.dmaCh 31).state = .run)) = true ∧ after (.dmaKick 31) (dma31 { en := true, state := .fin }) (fun e => decide ((e.dmaCh 31).state = .fin)) = true := by decide +kernel

/-- A descriptor: address 0x2000, LEN bytes, CTRL, next 0x1020. -/
def desc (len ctrl : Nat) : Bytes := le 8 0x2000 ++ le 4 len ++ le 4 ctrl ++ le 8 0x1020 ++ le 8 0

/-- Its owner may issue requests. -/
def dma31ok (c : Dma) : State := edit (dma31 c) fun d => (d.onFn 1 fun f => { f with enabled := true, busMaster := true }).onFn 0 fun f => { f with busMaster := true }

theorem test_dmaDescriptorFetch : after (.dmaDescriptorFetch 31 (desc 64 3) 0) (dma31ok { en := true, state := .run, desc := 0x1000 }) (fun e => decide (Out.dmaRead ((dma31ok {}).dev.dmaOwner 31) 0x1000 32 ∈ e.out) && decide ((e.dmaCh 31).cur = some (desc 64 3) ∧ (e.dmaCh 31).count = 64 ∧ (e.dmaCh 31).state = .run)) = true := by decide +kernel

theorem test_dmaDescriptorFetch_cases : (dma31ok {}).dev.mayIssue ((dma31ok {}).dev.dmaOwner 31) = true ∧ after (.dmaDescriptorFetch 31 (desc 64 2) 0) (dma31ok { en := true, state := .run, desc := 0x1000 }) (fun e => decide ((e.dmaCh 31).state = .wait) && bit (e.reg (A.dmaCause 31)) 2) = true ∧ after (.dmaDescriptorFetch 31 (desc 0 3) 0) (dma31ok { en := true, state := .run, desc := 0x1000 }) (fun e => decide ((e.dmaCh 31).state = .halt) && (e.dmaCh 31).haltCause == 1 && e.ctr (A.dmaErrAddr 31) == 0x1000) = true := by decide +kernel

theorem test_dmaDescriptorComplete_unit : after (.dmaDescriptorComplete 31 []) (dma31ok { en := true, state := .run, desc := 0x1000, cur := some (desc 3 3), unit := some [1, 2, 3, 4] }) (fun e => decide (Out.dmaWrite ((dma31ok {}).dev.dmaOwner 31) 0x2000 [1, 2, 3] ∈ e.out) && decide ((e.dmaCh 31).desc = 0x1020 ∧ (e.dmaCh 31).done = 3 ∧ (e.dmaCh 31).cur = none) && bit (e.reg (A.dmaCause 31)) 0) = true ∧ after (.dmaDescriptorComplete 31 []) (dma31ok { en := true, state := .run, desc := 0x1000, cur := some (desc 4 0x11), unit := some [1, 2, 3, 4] }) (fun e => decide ((e.dmaCh 31).state = .fin ∧ (e.dmaCh 31).unit = none)) = true := by decide +kernel

/-- Channel 30 injects. -/
def dma30 (c : Dma) : State := edit (dma31ok {}) fun d => (d.setReg (A.dmaCfg 30) 3).onDma 30 fun _ => c

theorem test_dmaDescriptorComplete_inject : (dma30 {}).dev.dmaReq 30 = 0 ∧ after (.dmaDescriptorComplete 30 [1, 2]) (dma30 { en := true, state := .run, desc := 0x1000, sopAt := some 0x1000, cur := some (desc 2 1) }) (fun e => decide (Out.dmaRead ((dma30 {}).dev.dmaOwner 30) 0x2000 2 ∈ e.out) && decide ((e.dmaCh 30).part = [1, 2] ∧ (e.dmaCh 30).desc = 0x1020)) = true := by decide +kernel

theorem test_dmaBusError : after (.dmaBusError 31 0x2000 true true false 5) (dma31ok { en := true, state := .run, desc := 0x1000, cur := some (desc 4 1), unit := some [1] }) (fun e => decide ((e.dmaCh 31).state = .halt ∧ (e.dmaCh 31).errDir = 1 ∧ (e.dmaCh 31).lastBeat = true ∧ (e.dmaCh 31).count = 5) && e.ctr (A.dmaErrAddr 31) == 0x2000 && e.ctr (A.dmaErrs 31) == 1) = true := by decide +kernel

theorem test_dmaUnitWithdrawn : after (.dmaUnitWithdrawn 31 1) (dma31ok { en := true, state := .run, desc := 0x1000, cur := some (desc 4 1), unit := some [1, 2] }) (fun e => decide ((e.dmaCh 31).unit = none ∧ (e.dmaCh 31).cur = none ∧ (e.dmaCh 31).desc = 0x1020) && e.ctr (A.dmaDescs 31) == 1) = true := by decide +kernel

theorem test_perfFreezeSet : Reaches net.dev 0 A.perfCtrl ∧ after .perfFreezeSet net (fun e => e.frozen && only [.regs] net.dev e) = true := by decide +kernel

def counted : State := edit net fun d => (d.onMeas fun m => { m with perf := [(5, { val := 7, snap := 2 })] }).onTime fun t => { t with tick := 9 }

theorem test_perfSnap : after .perfSnap counted (fun e => e.meas.busy && e.ctr A.perfSnapTick == 9 && decide (e.meas.perf = [(5, { val := 7, snap := 2, shadow := 7 })])) = true ∧ after .perfSnap (edit counted fun d => d.onMeas fun m => { m with busy := true }) (fun e => e.reg A.perfSnapMissed == 1) = true := by decide +kernel

theorem test_perfClear : after .perfClear counted (fun e => decide (e.meas.perf = [(5, { val := 0, snap := 2 })])) = true := by decide +kernel

theorem test_perfFreezePin : after (.perfFreezePin true) net (fun e => e.pins.perfFreeze && only [.pins] net.dev e) = true ∧ after (.perfFreezePin true) (edit counted fun d => d.setReg A.perfCtrl 0x20) (fun e => e.meas.busy && e.ctr A.perfSnapTick == 9) = true := by decide +kernel

theorem test_perfSnapDone : after .perfSnapDone (edit net fun d => d.onMeas fun m => { m with busy := true, perf := [(5, { val := 8, snap := 2, shadow := 7 })] }) (fun e => !e.meas.busy && e.reg A.perfSnapSeq == 1 && bit (e.reg A.perfCause) 0 && decide (e.meas.perf = [(5, { val := 8, snap := 7 })])) = true := by decide +kernel

theorem test_bwWindowEnd : after (.bwWindowEnd 31) (edit net fun d => ((d.setReg (A.bwCfg 31) 0x1000).setReg (A.bwWin 31) 0).onMeas fun m => { m with bw := [(31, { curBytes := 50, curFrames := 2, winFrom := some 0 })] }) (fun e => e.ctr (A.bwBytes 31) == 50 && e.reg (A.bwFrames 31) == 2 && e.ctr (A.bwPeak 31) == 50 && decide (e.meas.bw = [(31, { winFrom := some 1000 })])) = true := by decide +kernel

theorem test_traceSlotClose : after (.traceSlotClose 15) (edit net fun d => d.onMeas fun m => { m with slots := [(15, { at' := 0, src := 1, die := 2, ended := some 1 })] }) (fun e => e.meas.slots.isEmpty && e.ctr A.traceLost == 1) = true ∧ after (.traceSlotClose 15) (edit (dma31ok { en := true, state := .run }) fun d => ((d.setReg (A.dmaCfg 31) 0x1203).onMeas fun m => { m with slots := [(15, { at' := 0, src := 1, die := 2 })] }).onTime fun t => { t with uptime := 1000000000 }) (fun e => e.meas.slots.isEmpty && (Tbl.look [] e.data.units 0x12).length == 1) = true := by decide +kernel

theorem test_traceSlotClose_early : after (.traceSlotClose 15) (edit net fun d => d.onMeas fun m => { m with slots := [(15, { at' := 0, src := 1, die := 2 })] }) (fun e => e.meas.slots.length == 1) = true := by decide +kernel

theorem test_cwSnap : after (.cwSnap 2) net (fun e => decide (e = net.dev)) = true ∧ (Reaches net.dev 2 (cwOff 2 0) ∧ after (.cwSnap 2) (edit net fun d => d.onFn 2 fun f => { f with grant := true }) (fun e => (e.fn 2).cw.busy) = true) := by decide +kernel

theorem test_cwReady : (edit net fun d => d.onFn 0 fun f => { f with cw := { busy := true, captured := true } }).dev.cwOpen 0 = true ∧ after (.cwReady 0) (edit net fun d => d.onFn 0 fun f => { f with cw := { busy := true, captured := true } }) (fun e => (e.fn 0).cw.ready && !(e.fn 0).cw.busy) = true := by decide +kernel

/-! ## Protection -/

/-- A device of a pair in a role, its mirror link up at version 1.2 with partner 9. -/
def pair (r : Role) : State := edit net fun d => (d.onRed fun x => { x with role := r, peer := 3, pairId := 9, enable := true, lvdsAt := some 0, mirAt := some 0 }).onMir fun m => { m with up := true, version := 0x0102, peerVer := 0x0102, peerPair := 9 }

theorem test_redConfig : answers cmdRedConfig .redConfig (le 4 7 ++ [1, 0, 0, 0]) net [.red] [] (fun e => e.red.pairId == 7 && e.red.enable) = true := by decide +kernel

theorem test_redGet : answers cmdRedGet .redGet [] (pair .active) [] ([0x41, 0x43, 0, 0, 2, 1, 2, 1] ++ le 4 0) (fun _ => true) = true := by decide +kernel

/-- The example of RFC 3394 with a 256-bit transport key and a 256-bit key. -/
theorem test_redPairKey : Passes cmdRedPairKey (ask (le 2 40 ++ [0, 0] ++ be 8 0x28C9F404C4B810F4 ++ be 8 0xCBCCB35CFB87F826 ++ be 8 0x3F5786E2D80ED326 ++ be 8 0xCBC7F0E71A99F43B ++ be 8 0xFB988B9B7A02DD21)) (net.dev.onFn 0 fun f => { f with tk := some ((List.range 32).map (BitVec.ofNat 8)) }) := by decide +kernel

theorem test_redResync : answers cmdRedResync .redResync [] (pair .syncing) [.pon, .data, .red, .mir, .redch, .ctrs, .pav] [] (fun e => e.pon.chans.isEmpty && e.pon.onus.isEmpty && e.pon.flows.isEmpty && decide (e.red.role = .syncing) && decide (Out.record 0 .request ∈ e.out)) = true := by decide +kernel

theorem test_redSwitch : Passes cmdRedSwitch (ask []) (pair .active).dev ∧ after (.redSwitch (ask [])) (pair .active) (fun e => decide (e.red.planned.map (fun p => (p.2.1, p.2.2)) = some (7, false, false)) && decide (Out.record 0 (.switch 7) ∈ e.out)) = true ∧ (pair .active).dev.t0Of 6 < 50000 ∧ 50000 ≤ (pair .active).dev.t0Of 7 := by decide +kernel

theorem test_heartbeatSend : after .heartbeatSend (pair .active) (fun e => e.red.sentAt == 1000 && decide (Out.heartbeat 200 ∈ e.out)) = true ∧ after .heartbeatSend (edit (pair .syncing) fun d => d.onRed fun r => { r with flag := true }) (fun e => decide (Out.heartbeat 400 ∈ e.out)) = true := by decide +kernel

theorem test_heartbeatRx_lvds : after (.heartbeatRx 0 125 0 0) (edit (pair .active) fun d => (d.onRed fun r => { r with tookOver := true }).onTime fun t => { t with now := 500 }) (fun e => decide (e.red.lvdsAt = some 375) && e.red.peer == 3 && !e.red.tookOver) = true ∧ after (.heartbeatRx 0 175 0 0) (pair .active) (fun e => decide (e.red.role = .syncing) && e.red.lastCause == 4 && (e.chan 0).muted) = true := by decide +kernel

theorem test_heartbeatRx_flag : after (.heartbeatRx 0 425 0 0) (pair .ready) (fun e => decide (e.red.role = .active) && e.red.lastCause == 2 && e.red.tookOver && bit (e.reg A.redCause) 3) = true ∧ after (.heartbeatRx 0 426 0 0) (pair .ready) (fun e => decide (e = (pair .ready).dev)) = true := by decide +kernel

theorem test_heartbeatRx_mirror : after (.heartbeatRx 1 0 11 (-400)) (pair .ready) (fun e => e.reg A.redPhase == 0xFFFFFE70 && decide (e.red.role = .ready)) = true ∧ after (.heartbeatRx 1 0 11 401) (pair .ready) (fun e => bit (e.reg A.redCause) 4 && decide (e.red.role = .syncing) && e.red.lastCause == 9) = true := by decide +kernel

theorem test_heartbeatPathLoss : after (.heartbeatPathLoss 0) (pair .ready) (fun e => e.red.lvdsAt.isNone && e.ctr A.redLvdsMiss == 3 && bit (e.reg A.redCause) 1 && decide (e.red.role = .ready)) = true ∧ after (.heartbeatPathLoss 1) (edit (pair .ready) fun d => d.onRed fun r => { r with lvdsAt := none }) (fun e => e.red.failedPeer && e.red.peer == 4 && decide (e.red.role = .active) && e.red.lastCause == 1) = true := by decide +kernel

theorem test_heartbeatPathLoss_active : after (.heartbeatPathLoss 0) (edit (pair .active) fun d => d.onRed fun r => { r with mirAt := none }) (fun e => decide (e.red.role = .active) && e.red.watch.isSome && e.red.lastCause == 6) = true := by decide +kernel

theorem test_failureFlagEnd : after .failureFlagEnd (edit (pair .syncing) fun d => (d.onRed fun r => { r with flag := true }).onTime fun t => { t with nextAt := 10000 }) (fun e => !e.red.flag && e.red.since == 10000) = true := by decide +kernel

theorem test_arbGrantChange : after (.arbGrantChange true) (edit (pair .syncing) fun d => d.onRed fun r => { r with failedPeer := true }) (fun e => e.pins.arbGrant && decide (e.red.role = .active) && e.red.lastCause == 0xA && e.red.tookOver) = true ∧ after (.arbGrantChange true) (pair .syncing) (fun e => e.pins.arbGrant && only [.pins] (pair .syncing).dev e) = true := by decide +kernel

theorem test_formation : after .formation (edit (pair .syncing) fun d => { d.onTime fun t => { t with now := 9999, nextAt := 10000 } with pins := { d.pins with arbGrant := true } }) (fun e => decide (e.red.role = .active) && e.red.lastCause == 0 && !(e.chan 0).muted) = true := by decide +kernel

theorem test_watchEnd : after (.watchEnd false) (edit (pair .active) fun d => { d.onRed fun r => { r with watch := some 100 } with pins := { d.pins with arbGrant := true } }) (fun e => e.red.watch.isNone && e.red.lastCause == 7 && e.time.now == 7812) = true ∧ after (.watchEnd false) (edit (pair .active) fun d => d.onRed fun r => { r with watch := some 100 }) (fun e => decide (e.red.role = .syncing) && e.red.lastCause == 6) = true := by decide +kernel

/-- Every condition of R455 holds. -/
def prepared : State := edit (pair .syncing) fun d => { (d.onRed fun r => { r with pairKey := some [] }).onMir (fun m => { m with bulk := true }) |>.onTime (fun t => { t with aligned := true }) with redch := [(0, { samples := List.replicate 16 0 }), (1, { samples := List.replicate 16 0 })] }

theorem test_standbyReadyEntry : prepared.dev.readyNow true true true true = true ∧ after (.standbyReadyEntry true true true true) prepared (fun e => decide (e.red.role = .ready) && e.red.lastCause == 8) = true ∧ after (.standbyReadyEntry true true true false) prepared (fun e => decide (e = prepared.dev)) = true := by decide +kernel

theorem test_divergedTimeout : after (.divergedTimeout 1) (edit (pair .ready) fun d => (d.onRedCh 1 fun r => { r with diverged := true }).onTime fun t => { t with now := 999000, nextAt := 1000000 }) (fun e => decide (e.red.role = .syncing) && e.red.lastCause == 9) = true := by decide +kernel

theorem test_plannedSwitchEdge : after .plannedSwitchEdge (edit (pair .active) fun d => d.onRed fun r => { r with planned := some (none, 1, true, false) }) (fun e => decide (e.red.planned = some (none, 1, true, true)) && (e.chan 0).muted) = true ∧ after .plannedSwitchEdge (edit (pair .ready) fun d => d.onRed fun r => { r with planned := some (none, 1, true, true) }) (fun e => e.red.planned.isNone && decide (e.red.role = .active) && e.red.lastCause == 3) = true := by decide +kernel

theorem test_plannedSwitchEdge_answers : after .plannedSwitchEdge (edit (pair .active) fun d => (d.onRed fun r => { r with planned := some (some { func := 0, op := 0x0A03, seq := 5, args := [], body := [], taken := 0 }, 1, true, true) }).onKiosk 0 fun k => { k with executing := some { func := 0, op := 0x0A03, seq := 5, args := [], body := [], taken := 0 } }) (fun e => decide (Out.response 0 0x0A03 5 0 0 [] ∈ e.out) && decide (e.red.role = .syncing)) = true := by decide +kernel

theorem test_timingSampleRx : after (.timingSampleRx 0 (-5)) (pair .ready) (fun e => decide ((e.redCh 0).samples = [-5]) && decide (e.regs = net.dev.regs)) = true := by decide +kernel

theorem test_censusRx : after (.censusRx 0 40 0 (censusCrc [])) (edit (pair .ready) fun d => d.onRedCh 0 fun r => { r with diverged := true }) (fun e => !(e.redCh 0).diverged && e.ctr (A.redCensusOk 0) == 1) = true ∧ after (.censusRx 0 40 1 0) (pair .ready) (fun e => (e.redCh 0).diverged && e.ctr (A.redDiverge 0) == 1 && bit (e.reg A.redCause) 5 && decide (Out.record 0 (.snapRequest 0) ∈ e.out)) = true := by decide +kernel

def holding : State := edit (pair .ready) fun d => (d.onRedCh 0 fun r => { r with heldF := [(0, [sendable]), (1, [])] }).onTime fun t => { t with tick := 255, nextTick := 256, now := 1999000, nextAt := 2000000 }

theorem test_censusTimeout : holding.dev.posClock 0 (1 * mfBlocks 0) + 23438 ≤ 2000000 ∧ after (.censusTimeout 0) holding (fun e => (e.redCh 0).heldF.length == 1 && e.ctr (A.redHoldDrop 0) == 1) = true := by decide +kernel

theorem test_listenModeBurst : after (.listenModeBurst 0 1 9 false) (pair .ready) (fun e => e.ctr (A.redListenFail 0) == 1 && only [.ctrs] (pair .ready).dev e) = true ∧ after (.listenModeBurst 0 1 9 true) (pair .ready) (fun e => e.ctr (A.usBursts 0) == 1 && decide ((e.recv 0).burst = some (1, 9, 0, none)) && (e.onu 1).acc.bursts == 1) = true := by decide +kernel

theorem test_belvedereStateUncorrectable : after .belvedereStateUncorrectable (pair .active) (fun e => e.red.flag && decide (e.red.role = .syncing) && e.red.lastCause == 5 && e.red.peer == 4 && e.mir.up) = true := by decide +kernel

theorem test_mirrorLinkUp : after (.mirrorLinkUp 9 0x0101 0x0103 5) (edit (pair .syncing) fun d => d.onMir fun m => { m with up := false, version := 0 }) (fun e => e.mir.up && e.mir.version == 0x0102 && e.mir.peerVer == 0x0103 && e.reg A.mirLaneMap == 5 && e.mir.copying && decide (Out.record 0 .request ∈ e.out)) = true ∧ mirrorVersion 0x0103 0x0103 = 0 ∧ mirrorVersion 0x0100 0x0200 = 0 := by decide +kernel

theorem test_mirrorLinkDown : after (.mirrorLinkDown 0x7F) (pair .ready) (fun e => !e.mir.up && e.mir.version == 0 && e.mir.lock == 0x7F && decide (e.red.role = .syncing) && e.red.lastCause == 9) = true ∧ after (.mirrorLinkDown 0) (pair .active) (fun e => only [.mir] (pair .active).dev e) = true := by decide +kernel

theorem test_mirrorRecordRx_bad : after (.mirrorRecordRx 0 false .demote) (pair .ready) (fun e => e.ctr A.mirCrc == 1 && only [.ctrs] (pair .ready).dev e) = true ∧ after (.mirrorRecordRx 5 true .demote) (pair .ready) (fun e => decide (Out.ack 0xFFFFFFFF ∈ e.out) && only [.out] (pair .ready).dev e) = true := by decide +kernel

theorem test_mirrorRecordRx : after (.mirrorRecordRx 0 true (.snapshot 0 [(1, 77)])) (pair .ready) (fun e => decide ((e.flow? 1).map (·.rseq) = some 77) && e.mir.nextRx == 1 && decide (Out.ack 0 ∈ e.out)) = true ∧ after (.mirrorRecordRx 0 true .request) (pair .active) (fun e => e.mir.bulk && e.out.any fun o => match o with | .record _ .bulkDone => true | _ => false) = true := by decide +kernel

theorem test_mirrored : (edit (pair .active) fun d => d.onMir fun m => { m with bulk := true }).dev.mirroring = true ∧ after (.onuDiscLimit (ask [0, 0, 4, 0])) (edit (pair .active) fun d => d.onMir fun m => { m with bulk := true }) (fun e => e.mir.waiting.length == 1 && decide ((e.kiosk 0).executing.isSome) && decide (Out.record 0 (.command 0x0307 [0, 4] [0, 0, 4, 0]) ∈ e.out)) = true := by decide +kernel

def sentReq : Req := { func := 0, op := 0x0307, seq := 5, args := [0, 4], body := [], taken := 0 }

theorem test_mirrorAckRx : after (.mirrorAckRx 3) (edit (pair .active) fun d => (d.onMir fun m => { m with store := [(3, .command 0x0307 [0, 4] [], 0)], waiting := [(3, sentReq, 0, 0, [])] }).onKiosk 0 fun k => { k with executing := some sentReq }) (fun e => decide (e.out.head? = some (.response 0 0x0307 5 0 0 [])) && e.mir.store.isEmpty && e.mir.waiting.isEmpty) = true := by decide +kernel

theorem test_mirrorReplayTimeout : after .mirrorReplayTimeout (edit (pair .active) fun d => (d.onMir fun m => { m with store := [(3, .demote, 0)] }).onTime fun t => { t with now := 19999, nextAt := 20000 }) (fun e => decide (Out.record 3 .demote ∈ e.out) && e.ctr A.mirReplay == 1 && e.mir.ackAt == 20000) = true := by decide +kernel

theorem test_mirrorAckTimeout : after .mirrorAckTimeout (edit (pair .active) fun d => ((d.onMir fun m => { m with bulk := true, store := [(3, .command 0x0307 [0, 4] [], 0)], waiting := [(3, sentReq, 0, 0, [])] }).onKiosk 0 fun k => { k with executing := some sentReq }).onTime fun t => { t with now := 199999, nextAt := 200000 }) (fun e => e.mir.stopped && e.mir.waiting.isEmpty && e.red.peer == 2 && (e.out.any fun o => match o with | .record _ .demote => true | _ => false)) = true := by decide +kernel

theorem test_bulkCopyDone : after .bulkCopyDone (edit (pair .syncing) fun d => (d.onMir fun m => { m with copying := true }).onRedCh 1 fun r => { r with diverged := true }) (fun e => e.mir.bulk && !e.mir.copying && !(e.redCh 1).diverged) = true := by decide +kernel

theorem test_switchRecordRx : after (.switchRecordRx 0 50) (pair .ready) (fun e => decide (e.red.planned = some (none, 50, true, false)) && decide (Out.ack 0 ∈ e.out) && e.mir.nextRx == 1) = true := by decide +kernel

/-! ## Management -/

theorem test_otdrStart : answers cmdOtdrStart .otdrStart ([0, 0] ++ le 2 60000 ++ le 2 1 ++ [0, 0]) net [.otdr] [] (fun e => decide ((e.otdrOf 0).ordered = some (60000, 1)) && (e.otdrOf 0).channel == 0) = true := by decide +kernel

/-- The last run on tree 0 found two events. -/
def probed : State := edit net fun d => d.onOtdr 0 fun o => { o with done := 70000, count := 2, valid := true, events := [(10, 1, 2), (20, 0xFFFF, 4)] }

theorem test_otdrStatus : answers cmdOtdrStatus .otdrStatus [0, 0, 0, 0] probed [] [0, 0, 0, 0, 0xFF, 0xFF, 2, 0] (fun _ => true) = true := by decide +kernel

theorem test_otdrRead : answers cmdOtdrRead .otdrRead [0, 0, 1, 0] probed [] ([1, 0, 0, 0] ++ le 4 20 ++ [0xFF, 0xFF, 4, 0]) (fun _ => true) = true := by decide +kernel

theorem test_sensorRead : answers cmdSensorRead .sensorRead [6, 0, 0, 0] (edit net fun d => d.onPav fun p => { p with temps := [(96, 300), (111, 0xFFF6)] }) [] (le 2 300 ++ (List.replicate 14 [0, 0x80]).flatten ++ le 2 0xFFF6) (fun _ => true) = true := by decide +kernel

def entry (i : Nat) : LogEntry := { index := i, boot := 1, uptime := 2, ptp := none, domain := 0, osc := false, sev := 3, source := 6, code := 0x0101, repeats := 0, data := [i] }
def logged : State := edit net fun d => d.onPav fun p => { p with log := [entry 1, entry 0], logNext := 2 }

theorem test_logRead : answers cmdLogRead .logRead (le 4 0 ++ [1, 0, 0, 0]) logged [] ([1, 0, 0, 0] ++ le 4 1 ++ (le 4 0 ++ le 4 1 ++ le 8 2 ++ List.replicate 7 0 ++ [3] ++ le 4 0 ++ le 2 6 ++ le 2 0x0101 ++ le 4 0 ++ List.replicate 28 0)) (fun _ => true) = true ∧ answers cmdLogRead .logRead (le 4 2 ++ [9, 0, 0, 0]) logged [] ([0, 0, 0, 0] ++ le 4 2) (fun _ => true) = true := by decide +kernel

theorem test_updBegin : answers cmdUpdBegin .updBegin (le 4 8192 ++ [0, 0, 0, 0]) net [.upd, .pav, .ctrs, .data] [1, 0, 0, 0] (fun e => decide (e.upd = { state := .receiving, slot := 1, len := 8192 })) = true := by decide +kernel

/-- 8,192 bytes are expected, some received. -/
def updating (st : UpdState) (got : Nat) : State := edit net fun d => d.onUpd fun u => { u with state := st, slot := 1, len := 8192, received := got }

theorem test_updWrite : Passes cmdUpdWrite (ask (le 4 8188 ++ [4, 0, 0, 0] ++ [1, 2, 3, 4])) (updating .receiving 8188).dev ∧ after (.updWrite (ask (le 4 8188 ++ [4, 0, 0, 0] ++ [1, 2, 3, 4]))) (updating .receiving 8188) (fun e => e.upd.received == 8192 && decide (Out.flashWrite "SLOT B" [1, 2, 3, 4] ∈ e.out)) = true := by decide +kernel

theorem test_updCommit : answers cmdUpdCommit .updCommit [1, 0, 0, 0] (updating .receiving 8192) [.upd, .pav, .ctrs, .data] [] (fun e => decide (e.upd.state = .verifying) && e.upd.activate) = true ∧ answers cmdUpdCommit .updCommit [0, 0, 0, 0] (updating .verified 8192) [.upd, .pav, .ctrs, .data] [] (fun e => decide (e.upd.state = .verified)) = true := by decide +kernel

theorem test_updCommit_activate : answers cmdUpdCommit .updCommit [1, 0, 0, 0] (updating .verified 8192) [.upd, .pav, .ctrs, .data] [] (fun e => decide (e.upd.state = .activating)) = true := by decide +kernel

theorem test_updStatus : answers cmdUpdStatus .updStatus [] (updating .receiving 77) [] ([0x51, 0, 0, 0] ++ le 4 77) (fun _ => true) = true := by decide +kernel

theorem test_updRollback : answers cmdUpdRollback .updRollback [] net [.upd, .pav, .ctrs, .data] [] (fun e => decide (e.upd = { state := .activating, slot := 1 })) = true := by decide +kernel

def nearTrip : State := edit net fun d => (d.onPav fun p => { p with tripNear := [(0, 1)] }).onTime fun t => { t with now := 999000, nextAt := 1000000 }

theorem test_sensorSample : after (.sensorSample [1050, 1180] []) nearTrip (fun e => Tbl.look 0x8000 e.pav.temps 1 == 1180 && Tbl.look 0x8000 e.pav.temps 2 == 0x8000 && e.pav.sampleAt == 1000000 && bit e.pav.throttleNext 0 && e.pav.tripped) = true ∧ after (.sensorSample [1049, 1179] []) nearTrip (fun e => !e.pav.tripped) = true := by decide +kernel

theorem test_throttleExit : after (.throttleExit 6) (edit net fun d => (d.onPav fun p => { p with cool := [(6, 0)], throttleNext := 0x41 }).onTime fun t => { t with now := 999999000, uptime := 999999000, nextAt := 1000000000 }) (fun e => e.pav.throttleNext == 1) = true := by decide +kernel

theorem test_hbmHotExit : after (.hbmHotExit 3) (edit net fun d => (d.onPav fun p => { p with hbmCool := [(3, 0)], hbmHot := 8 }).onTime fun t => { t with now := 999999000, uptime := 999999000, nextAt := 1000000000 }) (fun e => e.pav.hbmHot == 0 && e.data.buf.placing == [false, false, false, true]) = true := by decide +kernel

theorem test_lockstepMismatch : after .lockstepMismatch (pair .active) (fun e => !e.pav.lockstep && e.pav.restarting && e.pav.unplanned && bit (e.reg A.pavCause) 1 && e.red.flag && bit e.red.flagWait 0 && !(e.kiosk 63).ready && (e.kiosk 63).restarting) = true := by decide +kernel

theorem test_watchdogExpiry : net.dev.pavRuns = true ∧ after .watchdogExpiry net (fun e => e.pav.restarting && e.pav.unplanned && !(e.kiosk 2).ready && bit (e.kiosk 2).cause.toNat 3) = true := by decide +kernel

theorem test_pavilionSramUncorrectable : after (.pavilionSramUncorrectable 1 [2]) (edit net fun d => d.onKiosk 2 fun k => { k with mask := 5 }) (fun e => (e.kiosk 2).level == 0 && (e.kiosk 2).mask == 0 && (e.kiosk 0).level == 3 && only [.funcs] net.dev e) = true ∧ after (.pavilionSramUncorrectable 0 []) net (fun e => e.pav.restarting && e.pav.unplanned) = true := by decide +kernel

theorem test_plannedRestart : after .plannedRestart (edit net fun d => d.onPav fun p => { p with ordered := true }) (fun e => e.pav.restarting && !e.pav.unplanned && !e.pav.ordered && (e.kiosk 0).restarting && (e.kiosk 0).level == 3) = true := by decide +kernel

def restarting : State := edit net fun d => (d.onPav fun p => { p with restarting := true, restarts := 4 }).onUpd fun u => { u with state := .activating, slot := 1, written := true }

theorem test_restartComplete : after (.restartComplete 1 0x30003 5) restarting (fun e => !e.pav.restarting && e.pav.restarts == 5 && (e.kiosk 0).ready && e.boot.slot == 1 && decide (e.upd.state = .idle) && e.upd.result == 1 && e.image.fwIfVer == 0x30003) = true := by decide +kernel

theorem test_restartComplete_interrupted : after (.restartComplete 2 0 0) (edit restarting fun d => (d.onPav fun p => { p with unplanned := true }).onKiosk 0 fun k => { k with interrupted := true, executing := some sentReq }) (fun e => decide (Out.response 0 0x0307 5 0x000D 0 [] ∈ e.out)) = true := by decide +kernel

theorem test_pavilionFailed : after .pavilionFailed (edit (pair .active) fun d => (d.onPav fun p => { p with restarting := true }).onTime fun t => { t with now := 1999999000, uptime := 1999999000, nextAt := 2000000000 }) (fun e => e.pav.failed && !e.boot.devReady && e.red.flag && e.red.flagStops) = true ∧ (edit net fun d => d.onPav fun p => { p with restarting := true, unplanned := true, recent := [60000000000, 5, 0] }).dev.restartThree = true := by decide +kernel

theorem test_logFlashFlush : after (.logFlashFlush true) (edit logged fun d => d.onPav fun p => { p with toFlash := [(0, 9)] }) (fun e => e.pav.toFlash.isEmpty && decide (Out.flashWrite "LOG" (LogEntry.bytes (entry 0)) ∈ e.out)) = true ∧ after (.logFlashFlush false) (edit logged fun d => d.onPav fun p => { p with toFlash := [(0, 9)] }) (fun e => e.ctr A.pavFlashErr == 1 && bit (e.reg A.pavCause) 4 && e.pav.flashAfter == 1000000000 && decide ((0, 9) ∈ e.pav.toFlash)) = true := by decide +kernel

theorem test_updateVerifyDone : after (.updateVerifyDone 1) (updating .verifying 8192) (fun e => decide (e.upd.state = .verified)) = true ∧ after (.updateVerifyDone 6) (updating .verifying 8192) (fun e => decide (e.upd.state = .idle) && e.upd.result == 6) = true := by decide +kernel

theorem test_updateActivate : after .updateActivate (updating .activating 8192) (fun e => e.upd.written && e.pav.ordered && (match e.out with | .flashWrite _ b :: _ => b.length == 16 && leAt b 8 4 == 1 | _ => false)) = true := by decide +kernel

theorem test_otdrRunDone : after (.otdrRunDone 0 [(10, 1, 2)]) (edit net fun d => d.onOtdr 0 fun o => { o with run := some (0, 1000, 64), done := 64 }) (fun e => decide ((e.otdrOf 0).events = [(10, 1, 2)]) && (e.otdrOf 0).valid && (e.otdrOf 0).run.isNone && (e.otdrOf 0).count == 1) = true := by decide +kernel

theorem test_otdrRunAbandon : after (.otdrRunAbandon 0) (edit net fun d => d.onOtdr 0 fun o => { o with run := some (0, 1000, 64), role := .active }) (fun e => !e.otdrBusy 0 && !(e.otdrOf 0).valid) = true := by decide +kernel

theorem test_pinFaultCheck : after (.pinFaultCheck 0 5 true) net (fun e => decide (e.pinFault? 0 5 = some 0) && decide (Out.driver 0 5 false ∈ e.out)) = true ∧ after (.pinFaultCheck 0 5 false) (edit net fun d => d.setPin 0 5 (some 1)) (fun e => decide (e.pinFault? 0 5 = none) && decide (Out.driver 0 5 true ∈ e.out)) = true := by decide +kernel

theorem test_pinFaultCheck_first : after (.pinFaultCheck 0 5 false) (edit net fun d => d.setPin 0 5 (some 0)) (fun e => decide (e.pinFault? 0 5 = some 1) && only [.pav] net.dev e) = true ∧ after (.pinFaultCheck 0 5 false) net (fun e => decide (e = net.dev)) = true := by decide +kernel

/-! ## The queue -/

theorem test_step_front : (match step { live with pending := [.arbGrantChange true, .formation] } with
    | .next t => decide (t.pending = [.formation])
    | _ => false) = true := by decide +kernel

theorem test_step_idle : (match step State.reset with
    | .next t => decide (t.pending = []) && only [] State.reset.dev t.dev
    | _ => false) = true := by decide +kernel

theorem test_no_word_spells_a_command : decodeTableWord 32 0 = none ∧ (State.withFetchWord State.reset 32 0).pending = [] := by decide +kernel

theorem test_queue_runs_to_its_end : allWf [.arbGrantChange true, .formation] = true ∧ (match Host.Core.run Sys2Proof.core 2 { live with pending := [.arbGrantChange true, .formation] } with
    | .next t => decide (t.pending = [])
    | _ => false) = true := by decide +kernel

/-! ## Memories in canonical form -/

theorem test_memory_reset : Memory.wf State.reset.dev.data.descRam = true := by decide +kernel

theorem test_memory_write : Memory.wf (Mem.write [] 10 [3, 0, 5]) = true ∧ Mem.read (Mem.write [] 10 [3, 0, 5]) 9 5 = [0, 3, 0, 5, 0] := by decide +kernel

theorem test_memory_zero_is_unlisted : Mem.poke (Mem.poke [] 7 1) 7 0 = [] := by decide +kernel

/-- `Dev.memoriesWf` as a test. -/
def memoriesOk (d : Dev) : Bool :=
  Memory.wf d.data.descRam && d.funcs.all fun x => Memory.wf x.2.kiosk.reqMem && Memory.wf x.2.kiosk.rspMem && Memory.wf x.2.page.aad
    && Memory.wf x.2.page.inp && Memory.wf x.2.page.outp

theorem memoriesWf_of_ok (d : Dev) (h : memoriesOk d = true) : d.memoriesWf := by
  simpa [memoriesOk, Dev.memoriesWf, and_assoc] using h

theorem test_memories_reset : State.reset.dev.memoriesWf := memoriesWf_of_ok _ (by decide)

theorem test_memories_kept : live.dev.memoriesWf ∧ (match step { live with pending := [.registerWrite 0 0 0x600010 [0, 7, 0, 9] true] } with
    | .next t => memoriesOk t.dev && Mem.read (t.dev.kiosk 0).reqMem 16 4 == [0, 7, 0, 9]
    | _ => false) = true := ⟨memoriesWf_of_ok _ (by decide +kernel), by decide +kernel⟩

/-! ## Terms that name an object the device does not have -/

/-- An ill-formed command: the check refuses it, and running it stops. -/
def ill (c : Instr) : Bool := !Instr.wf c && stops c live

theorem test_ill_func : (ill (.functionLevelReset 64) && ill (.busMasterEnableClear 64) && ill (.busMasterEnableSet 64 true true 0)
    && ill (.d3hotEntry 64) && ill (.d0Entry 64) && ill (.disableSequenceDone 64) && ill (.heldAccessComplete 64) && ill (.heldAccessTimeout 64)
    && ill (.kioskReqTailWrite 64 0) && ill (.kioskRspHeadWrite 64 0) && ill (.ringReset 64) && ill (.ringResetDone 64)
    && ill (.chanTuneTimeout 64) && ill (.cwSnap 64) && ill (.cwReady 64)) = true := by decide +kernel

theorem test_ill_crypto_func : (ill (.cryptoStart 64) && ill (.cryptoClear 64 0) && ill (.cryptoOperationDone 64) && ill (.cryptoZeroisePage 64)
    && ill (.pavilionSramUncorrectable 0 [64]) && ill (.pavilionSramUncorrectable 3 [])) = true := by decide +kernel

theorem test_ill_message : (ill (.hello { ask [] with func := 64 }) && ill (.sysEcho { ask [] with func := 64 })) = true := by decide +kernel

theorem test_ill_access : (ill (.registerWrite 64 0 0 [0, 0, 0, 0] true) && ill (.registerWrite 2 0 0x100000000 [0] true)
    && ill (.readClearRegisterRead 64 0 0 4 15) && ill (.lowWordRead 0 0 4) && ill (.lowWordRead 64 0 0)
    && ill (.wideLowWordWrite 0 0 0 0) && ill (.wideHighWordWrite 0 0 0 0) && ill (.selectRegisterWrite 0 0)) = true := by decide +kernel

theorem test_ill_channel : (ill (.tickEdge [512]) && ill (.burstLocked 512 1 0 0 0 none) && ill (.burstMissed 512 1) && ill (.burstOutsideWindow 512 1)
    && ill (.quietWindowBurst 512 0 0) && ill (.codewordDecoded 512 0 0 false []) && ill (.rogueDetect 512 0 1) && ill (.serialNumberRx 512 0)
    && ill (.downstreamSelect 512 0 8) && ill (.divergedTimeout 512) && ill (.timingSampleRx 512 0) && ill (.censusRx 512 0 0 0)
    && ill (.censusTimeout 512) && ill (.listenModeBurst 512 1 0 true) && ill (.wakeEvent 0 512 true)) = true := by decide +kernel

theorem test_ill_onu : (ill (.burstLocked 0 65536 0 0 0 none) && ill (.burstMissed 0 65536) && ill (.burstOutsideWindow 0 65536)
    && ill (.reassemblyTimeout 65536 2000) && ill (.reassemblyTimeout 1 65536) && ill (.rogueDetect 0 0 65536) && ill (.discoveryHoldExpiry 65536)
    && ill (.rangingResponse 65536) && ill (.activationStepTimeout 65536) && ill (.registrationRx 65536 []) && ill (.activationComplete 65536)
    && ill (.dyingGasp 65536) && ill (.eqdDriftBlock 65536) && ill (.listenModeBurst 0 65536 0 true)) = true := by decide +kernel

theorem test_ill_onu_more : (ill (.extCapsRx 65536 0 0 0 0) && ill (.extCapsRx 1 256 0 0 0) && ill (.extCapsRx 1 0 65536 0 0) && ill (.extCapsRx 1 0 0 65536 0)
    && ill (.extCapsRx 1 0 0 0 65536) && ill (.extTuneRespRx 65536 0 0 0) && ill (.extTuneRespRx 1 256 0 0) && ill (.extTuneRespRx 1 0 4 0)
    && ill (.extTuneRespTimeout 65536) && ill (.migrationRollbackExpiry 65536) && ill (.keyRollStart 65536 0) && ill (.keyRollStart 1 512)
    && ill (.keyRequestRepeat 65536 0) && ill (.keyRequestRepeat 1 512) && ill (.keyRollRetry 65536 0) && ill (.keyRollRetry 1 512)
    && ill (.oldKeyExpiry 65536 0) && ill (.oldKeyExpiry 1 512) && ill (.onuKeyRx 65536 (List.replicate 16 0)) && ill (.onuKeyRx 1 (List.replicate 15 0))
    && ill (.registrationRx 1 (List.replicate 37 0))) = true := by decide +kernel

theorem test_ill_burst : (ill (.burstLocked 0 1 0 65536 0 none) && ill (.codewordDecoded 0 14593 0 false []) && ill (.rogueDetect 0 4 1)
    && ill (.spreadIntegrationEnd 512 []) && ill (.spreadIntegrationEnd 0 [(0, 0), (1, 0), (2, 0), (3, 0), (4, 0)])
    && ill (.spreadIntegrationEnd 0 [(1024, 0)]) && ill (.spreadIntegrationEnd 0 [(0, 77760)])) = true := by decide +kernel

theorem test_ill_die : (ill (.frameDriftCheck 4 0) && ill (.poisonedTailArrival 4 0) && ill (.fenceTokenArrival 6 none) && ill (.fenceWaitTimeout 6 none)
    && ill (.recirculatePass 6) && ill (.reorderTimeout 6 0) && ill (.fragmentDecisionExpiry 6) && ill (.fragmentHoldTimeout 6) && ill (.learnRequest 6)
    && ill (.agingVisit 6 0) && ill (.bufferHoldExpiry 6) && ill (.throttleExit 7) && ill (.rogueRoundEnd 4 true)) = true := by decide +kernel

theorem test_ill_link : (ill (.dieLinkFlitCrcFail 6 true true 1) && ill (.dieLinkFlitCrcFail 0 true true 0) && ill (.dieLinkRetrainDone 6 true)
    && ill (.dieLinkFailed 6) && ill (.spareLaneReplace 6) && ill (.refclkLoss 10) && ill (.refclkReturn 10) && ill (.bclStateRefresh 32)
    && ill (.bclTelemetryFrame 32 true 0 []) && ill (.bclTelemetryFrame 0 true 0 (List.replicate 3841 0)) && ill (.bclLinkDown 32) && ill (.bclLinkUpTimeout 32)) = true := by decide +kernel

theorem test_ill_memory : (ill (.eccScrub 4 0 0 false 0 0 0 0 0) && ill (.eccScrub 0 7 0 false 0 0 0 0 0) && ill (.eccScrub 0 0 0 false 0 0 129 0 0)
    && ill (.eccScrub 0 0 0 false 0 0 0 0 8) && ill (.heldBufferGrant 4) && ill (.bufferFree 4 0 0) && ill (.bufferFree 3 3072 0)
    && ill (.bufferFree 0 0 (2 ^ 32)) && ill (.basinStageRead 3 0 0 none) && ill (.basinStageRead 1 512 0 none) && ill (.basinStageRead 1 0 8 none)
    && ill (.basinStageRead 2 16 0 none) && ill (.basinStackDrainEnd 4) && ill (.stackPlacesPages 4) && ill (.hbmHotExit 4)) = true := by decide +kernel

theorem test_ill_port : (ill (.downstreamSelect 0 16384 8) && ill (.downstreamSelect 0 0 4) && ill (.downstreamSelect 0 0 9)
    && ill (.uplinkFrameRx 512 [] false 0 0) && ill (.uplinkFrameStart 512) && ill (.gateEntryChange 512) && ill (.gateListChange 512)
    && ill (.preemptVerify 512 true) && ill (.uplinkLinkUp 512 0 0 false) && ill (.uplinkLinkDown 512 0 0) && ill (.tsfHeadRead 512)
    && ill (.laneFaultCheck 256 0) && ill (.laneFaultCheck 0 6) && ill (.uplCfgEnClear 64) && ill (.uplCfgEnSet 64) && ill (.uplCfgModeWrite 64 0)
    && ill (.uplCfgModeWrite 0 4) && ill (.synceOutputReturn 2)) = true := by decide +kernel

theorem test_ill_clock : (ill (.ptpNowFracRead 2) && ill (.ptpLoad 2) && ill (.ptpStep 2 0) && ill (.ptpIncrWrite 2 0) && ill (.cmpArm 4 0) && ill (.compareFire 4)) = true := by decide +kernel

theorem test_ill_dma : (ill (.dmaEnable 32) && ill (.dmaDisable 32) && ill (.dmaResume 32) && ill (.dmaKick 32) && ill (.dmaDescriptorFetch 32 [] 0)
    && ill (.dmaDescriptorComplete 32 []) && ill (.dmaBusError 32 0 false false false 0) && ill (.dmaUnitWithdrawn 32 0) && ill (.bwWindowEnd 32)
    && ill (.traceSlotClose 16)) = true := by decide +kernel

theorem test_ill_power : (ill (.powerReqGo 4) && ill (.domainUp 24) && ill (.domainRestore 24) && ill (.avsAck 2 true) && ill (.avsTimeout 2)
    && ill (.wakeEvent 7 0 true) && ill (.railTrim 7 750)) = true := by decide +kernel

theorem test_ill_firmware : (ill (.restartComplete 0 0 0) && ill (.restartComplete 8 0 0) && ill (.updateVerifyDone 0) && ill (.updateVerifyDone 7)
    && ill (.otdrRunDone 512 []) && ill (.otdrRunDone 0 [(2 ^ 32, 0, 0)]) && ill (.otdrRunDone 0 [(0, 65536, 0)]) && ill (.otdrRunDone 0 [(0, 0, 65536)])
    && ill (.otdrRunAbandon 512) && ill (.pinFaultCheck 6 2 true) && ill (.pinFaultCheck 7 0 true) && ill (.omciHandleExpiry (2 ^ 32))) = true := by decide +kernel

theorem test_ill_pair : (ill (.heartbeatRx 2 0 0 0) && ill (.heartbeatRx 0 0 16 0) && ill (.heartbeatPathLoss 2) && ill (.mirrorLinkUp 0 65536 0 0)
    && ill (.mirrorLinkUp 0 0 65536 0) && ill (.mirrorLinkDown 256)) = true := by decide +kernel

end Sys2Proof.Tests
end

