-- ==== Sys2Proof/Proofs/KioskRings.lean ====
section
/-! PROOF. The rings of a Kiosk: what a message written into a ring leaves there and what it leaves alone (R96, R97), and the causes that
signal it (Table 5-3). Settles O18. -/

namespace Sys2Proof.Machine

/-! ## Cause bits -/

theorem bit_eq_testBit (n i : Nat) : bit n i = n.testBit i := by
  simp only [bit, Nat.testBit_eq_decide_div_mod_eq]
  rfl

/-- A cause that is set stands in KIOSK_CAUSE (Table 5-3). -/
theorem bit_kioskCause (d : Dev) (f : Nat) {b i : Nat} (hi : i < 32) (hb : b.testBit i = true) :
    bit ((d.kioskCause f b).kiosk f).cause.toNat i = true := by
  rw [kioskCause_kiosk, bit_eq_testBit]
  simp only [w32, BitVec.toNat_ofNat, Nat.testBit_mod_two_pow, hi, decide_true, Bool.true_and]
  exact (Nat.testBit_or _ _ i).trans (by rw [hb, Bool.or_true])

/-! ## Units -/

theorem units_eq (n : Nat) : units n = 1 + (n + 15) / 16 := by simp [units, ceilDiv]

theorem units_le_of_length_le {n : Nat} (h : n ≤ 2032) : units n ≤ 128 := by rw [units_eq]; omega

@[simp] theorem msgHeader_length (version flags op : Nat) (seq : W32) (len status detail : Nat) :
    (msgHeader version flags op seq len status detail).length = 16 := by simp [msgHeader, le_length]

/-- R97: a message as it stands in a ring: its header, its payload, and zero bytes to a whole unit. -/
def ringBytes (header payload : Bytes) : Bytes :=
  header ++ payload ++ List.replicate (16 * units payload.length - 16 - payload.length) 0

theorem ringBytes_length {header : Bytes} (payload : Bytes) (hh : header.length = 16) :
    (ringBytes header payload).length = 16 * units payload.length := by
  simp only [ringBytes, List.length_append, List.length_replicate, hh, units_eq]
  omega

/-! ## Reading a ring after a write -/

/-- R96: the byte of a ring that holds byte `i` of a message at unit position `pos`. -/
def ringAddr (pos i : Nat) : Nat := (pos % 256 * 16 + i) % 4096

theorem ringRead_eq (m : Mem) (pos len : Nat) : ringRead m pos len = (List.range len).map fun i => Mem.byte m (ringAddr pos i) := rfl

/-- A string no longer than the ring does not meet itself. -/
theorem ringAddr_injOn {pos i j : Nat} (hi : i < 4096) (hj : j < 4096) (h : ringAddr pos i = ringAddr pos j) : i = j := by
  unfold ringAddr at h
  omega

theorem ringWrite_concat (m : Mem) (pos : Nat) (bs : Bytes) (b : Byte) :
    ringWrite m pos (bs ++ [b]) = Mem.poke (ringWrite m pos bs) (ringAddr pos bs.length) b := by
  simp [ringWrite, ringAddr, List.range_succ, List.zip_append]

/-- Writing a string into a ring leaves every byte outside it as it was. -/
theorem byte_ringWrite_outside (m : Mem) (pos a : Nat) (bs : Bytes) (h : ∀ i < bs.length, a ≠ ringAddr pos i) :
    Mem.byte (ringWrite m pos bs) a = Mem.byte m a := by
  induction bs using List.reverseRecOn with
  | nil => rfl
  | append_singleton bs b ih =>
    simp only [List.length_append, List.length_singleton] at h
    rw [ringWrite_concat, Mem.byte_poke_ne _ _ (h _ (by omega)), ih fun i hi => h i (by omega)]

/-- Reading a string that was written into a ring gives its bytes. -/
theorem byte_ringWrite_inside (m : Mem) (pos : Nat) (bs : Bytes) (hb : bs.length ≤ 4096) {i : Nat} (hi : i < bs.length) :
    Mem.byte (ringWrite m pos bs) (ringAddr pos i) = bs[i] := by
  induction bs using List.reverseRecOn with
  | nil => simp at hi
  | append_singleton bs b ih =>
    simp only [List.length_append, List.length_singleton] at hb hi
    rw [ringWrite_concat]
    rcases Nat.lt_succ_iff_lt_or_eq.mp hi with hlt | rfl
    · have hne : ringAddr pos i ≠ ringAddr pos bs.length := fun h => by
        have := ringAddr_injOn (by omega) (by omega) h
        omega
      rw [Mem.byte_poke_ne _ _ hne, ih (by omega) hlt, List.getElem_append_left hlt]
    · simp

theorem ringRead_ringWrite_same (m : Mem) (pos : Nat) (bs : Bytes) (hb : bs.length ≤ 4096) :
    ringRead (ringWrite m pos bs) pos bs.length = bs := by
  refine List.ext_getElem (by simp [ringRead_eq]) fun i _ hi => ?_
  simp only [ringRead_eq, List.getElem_map, List.getElem_range]
  exact byte_ringWrite_inside m pos bs hb hi

/-- A message within R97 reads back whole from the ring that it was written into. -/
theorem ringRead_ringBytes (m : Mem) (pos : Nat) {header payload : Bytes} (hh : header.length = 16) (hp : payload.length ≤ 2032) :
    ringRead (ringWrite m pos (ringBytes header payload)) pos (16 * units payload.length) = ringBytes header payload := by
  have hl := ringBytes_length payload hh
  have hu := units_le_of_length_le hp
  rw [← hl]
  exact ringRead_ringWrite_same m pos _ (by omega)

/-- A message leaves every byte of its ring outside its units as it was. -/
theorem byte_ringBytes_outside (m : Mem) (pos a : Nat) {header payload : Bytes} (hh : header.length = 16)
    (h : ∀ i < 16 * units payload.length, a ≠ ringAddr pos i) :
    Mem.byte (ringWrite m pos (ringBytes header payload)) a = Mem.byte m a :=
  byte_ringWrite_outside m pos a _ fun i hi => h i (by rwa [ringBytes_length payload hh] at hi)

/-! ## A message in a Kiosk's ring -/

/-- R97, R103: publishing writes the response ring, moves its tail and sets RSP_AVAIL. -/
theorem publish_kiosk (d : Dev) (f version flags op : Nat) (seq : W32) (status detail : Nat) (payload : Bytes) :
    (d.publish f version flags op seq status detail payload).kiosk f =
      { d.kiosk f with
        rspMem := ringWrite (d.kiosk f).rspMem (d.kiosk f).rspTail.toNat
          (ringBytes (msgHeader version flags op seq payload.length status detail) payload)
        rspTail := (d.kiosk f).rspTail + BitVec.ofNat 16 (units payload.length)
        cause := w32 (Nat.lor (d.kiosk f).cause.toNat 1) } := by
  simp only [Dev.publish, kioskCause_kiosk, Dev.kiosk_onKiosk, ringBytes]

theorem publish_kiosk_ne (d : Dev) {f g : Nat} (version flags op : Nat) (seq : W32) (status detail : Nat) (payload : Bytes) (h : g ≠ f) :
    (d.publish f version flags op seq status detail payload).kiosk g = d.kiosk g := by
  simp only [Dev.publish, kioskCause_kiosk_ne _ _ h, Dev.kiosk_onKiosk_ne _ _ h]

/-- R97, R100: the host's message is written into the request ring, and its doorbell moves the tail. -/
theorem place_kiosk (d : Dev) (c : Cmd) (m : Msg) :
    (d.place c m).kiosk m.func =
      { d.kiosk m.func with
        reqMem := ringWrite (d.kiosk m.func).reqMem (d.kiosk m.func).reqTail.toNat
          (ringBytes (msgHeader m.version 0 c.op m.seq m.payload.length 0 0) m.payload)
        reqTail := (d.kiosk m.func).reqTail + BitVec.ofNat 16 (units m.payload.length) } := by
  simp only [Dev.place, Dev.kiosk_onKiosk, ringBytes]

theorem place_kiosk_ne (d : Dev) (c : Cmd) (m : Msg) {g : Nat} (h : g ≠ m.func) : (d.place c m).kiosk g = d.kiosk g := by
  simp only [Dev.place, Dev.kiosk_onKiosk_ne _ _ h]

theorem bit_publish_rspAvail (d : Dev) (f version flags op : Nat) (seq : W32) (status detail : Nat) (payload : Bytes) :
    bit ((d.publish f version flags op seq status detail payload).kiosk f).cause.toNat 0 = true :=
  bit_kioskCause _ f (by decide) (by decide)

/-- Settles O18: a message of at most 128 units never meets itself in a ring of 256, so it reads back whole. -/
theorem messagesStandInTheirRings : Obligations.MessagesStandInTheirRings := by
  unfold Obligations.MessagesStandInTheirRings
  refine ⟨fun n hn => ⟨units_eq n, units_le_of_length_le hn⟩, fun _ _ _ _ _ _ _ => msgHeader_length .., fun pos i hi => ?header,
    ?response, ?request⟩
  case header => omega
  case response =>
    intro d f version flags op status detail seq payload hp
    refine ⟨?_, bit_publish_rspAvail .., ?_, fun a _ ha => ?_, ?_, ?_, fun g hg => publish_kiosk_ne _ _ _ _ _ _ _ _ hg,
      publish_only _ _ _ _ _ _ _ _ _⟩ <;>
      rw [publish_kiosk]
    · exact ringRead_ringBytes _ _ (msgHeader_length ..) hp
    · exact byte_ringBytes_outside _ _ a (msgHeader_length ..) ha
  case request =>
    intro d c m hp
    refine ⟨?_, ?_, fun a _ ha => ?_, ?_, fun g hg => place_kiosk_ne _ _ _ hg, place_only _ _ _⟩ <;> rw [place_kiosk]
    · exact ringRead_ringBytes _ _ (msgHeader_length ..) hp
    · exact byte_ringBytes_outside _ _ a (msgHeader_length ..) ha

end Sys2Proof.Machine
end

