-- ==== Sys2Proof/Proofs/KioskEvents.lean ====
section
/-! PROOF. Events: what writing an event, and counting it as lost, leave of the Kiosk (R122, R123). Settles O21. -/

namespace Sys2Proof.Machine

theorem sat_eq_min (top n : Nat) : sat top n = min top n := by
  unfold sat
  split <;> omega

section event
variable {d : Dev} {f : Nat} {payload : Bytes}

/-- R123: an event with room beyond it is published with the event counter as its SEQUENCE, and LOST where one was lost before it. -/
theorem eventTo_of_room (code : Nat) (hl : 2 ≤ (d.kiosk f).level) (hr : (d.kiosk f).ready = true)
    (hroom : 128 + units payload.length ≤ free (d.kiosk f).rspTail (d.kiosk f).rspHead) (hb : (d.kiosk f).resetBusy = false) :
    d.eventTo code payload f =
      ((((d.onKiosk f fun k => { k with eventSeq := k.eventSeq + 1 }).onKiosk f fun k => { k with lostFlag := false }).publish f
        (d.kiosk f).level (2 + 4 * nb (d.kiosk f).lostFlag) code (d.kiosk f).eventSeq 0 0 payload).emit
        (.event f code (d.kiosk f).eventSeq (d.kiosk f).lostFlag payload)) := by
  simp [Dev.eventTo, Nat.not_lt.mpr hl, hr, hroom, hb]

/-- R123: an event that cannot be written is counted as lost, and EVENT_LOST is set. -/
theorem eventTo_of_no_room (code : Nat) (hl : 2 ≤ (d.kiosk f).level) (hr : (d.kiosk f).ready = true)
    (hno : ¬(128 + units payload.length ≤ free (d.kiosk f).rspTail (d.kiosk f).rspHead ∧ (d.kiosk f).resetBusy = false)) :
    d.eventTo code payload f =
      ((d.onKiosk f fun k => { k with eventSeq := k.eventSeq + 1 }).onKiosk f fun k =>
        { k with eventLost := sat 0xFFFFFFFF (k.eventLost + 1), lostFlag := true }).kioskCause f 0x40 := by
  simp [Dev.eventTo, Nat.not_lt.mpr hl, hr, hno]

/-- An event changes no Kiosk but its own. -/
theorem eventTo_kiosk_ne (d : Dev) (code : Nat) (payload : Bytes) {f g : Nat} (h : g ≠ f) :
    (d.eventTo code payload f).kiosk g = d.kiosk g := by
  unfold Dev.eventTo
  dsimp only
  split
  · rfl
  · split
    · rw [emit_kiosk, publish_kiosk_ne _ _ _ _ _ _ _ _ h, Dev.kiosk_onKiosk_ne _ _ h, Dev.kiosk_onKiosk_ne _ _ h]
    · rw [kioskCause_kiosk_ne _ _ h, Dev.kiosk_onKiosk_ne _ _ h, Dev.kiosk_onKiosk_ne _ _ h]

/-- R122: written or lost, an event advances the event counter. -/
theorem eventTo_eventSeq (code : Nat) (hl : 2 ≤ (d.kiosk f).level) (hr : (d.kiosk f).ready = true) :
    ((d.eventTo code payload f).kiosk f).eventSeq = (d.kiosk f).eventSeq + 1 := by
  by_cases h : 128 + units payload.length ≤ free (d.kiosk f).rspTail (d.kiosk f).rspHead ∧ (d.kiosk f).resetBusy = false
  · simp [eventTo_of_room code hl hr h.1 h.2, publish_kiosk]
  · simp [eventTo_of_no_room code hl hr h, kioskCause_kiosk]

end event

/-- Settles O21, by the two ends of an event: published where 128 units stay free beyond it, counted as lost else. -/
theorem eventsAreWrittenOrCountedLost : Obligations.EventsAreWrittenOrCountedLost := by
  unfold Obligations.EventsAreWrittenOrCountedLost
  intro d code f payload hl hr
  refine ⟨eventTo_eventSeq code hl hr, fun g hg => eventTo_kiosk_ne d code payload hg, eventTo_only _ _ _ _, fun hroom hb => ?written,
    fun hno => ?lost⟩
  case written =>
    rw [eventTo_of_room code hl hr hroom hb]
    refine ⟨rfl, ?_, ?_⟩ <;> simp [publish_kiosk]
  case lost =>
    have hno' : ¬(128 + units payload.length ≤ free (d.kiosk f).rspTail (d.kiosk f).rspHead ∧ (d.kiosk f).resetBusy = false) :=
      fun h => Nat.not_le.mpr hno h.1
    rw [eventTo_of_no_room code hl hr hno']
    refine ⟨?_, ?_, ?_, bit_kioskCause _ f (by decide) (by decide)⟩ <;> simp [kioskCause_kiosk, sat_eq_min]

end Sys2Proof.Machine
end

