-- ==== Sys2Proof/Proofs/KioskDoorbells.lean ====
section
/-! PROOF. The host's writes of a Kiosk's registers: a doorbell within its ring and one beyond it, and a ring reset to its end (R98, R100,
R101, R124). Settles O17. -/

namespace Sys2Proof.Machine

/-! ## A write of a Kiosk register -/

/-- Tables 4-4 and 4-5: a Kiosk's registers stand at the addresses of PF0's own copy, for every function. -/
theorem locate_kioskOff (f : Nat) {o : Nat} (ho : o < 0x4000) : (locate f 0 (kioskOff f o)).1 = .reg (0x600000 + o) := by
  unfold locate kioskOff
  by_cases hf : f = 0
  · have hd : domainOf (0x600000 + o) = some 0 := by
      unfold domainOf
      rw [if_neg (by omega), if_neg (by omega), if_neg (by omega), if_neg (by omega), if_pos (by omega)]
    simp [hf, hd]
  · simp [hf, ho]

/-- R82: the registers of a Kiosk lie in no area of a ring. -/
theorem inArea_kioskRegister {o : Nat} (h1 : 0x2000 ≤ o) (h2 : o < 0x4000) : inArea (.reg (0x600000 + o)) 4 = false := by
  have ha : areaEnd (0x600000 + o) = none := by
    unfold areaEnd
    simp only [Bool.and_eq_true, decide_eq_true_eq]
    repeat rw [if_neg (by omega)]
  simp [inArea, ha]

/-- A host write of one word of a Kiosk register is taken as it arrives (R91). -/
theorem hostWord_kiosk {d : Dev} {f o : Nat} (w : W32) (h : Reaches d f (kioskOff f o)) (h1 : 0x2000 ≤ o) (h2 : o < 0x4000)
    (h4 : o % 4 = 0) (hd : (d.fn f).disabling = false) : d.hostWord f (kioskOff f o) w.toNat = d.writeKiosk f o w.toNat := by
  have ha : kioskOff f o % 4 = 0 := by
    unfold kioskOff
    split <;> omega
  have hw : ofLe (le 4 w.toNat) = w.toNat := by
    rw [ofLe_le]
    exact Nat.mod_eq_of_lt w.isLt
  rw [hostWord_reaches _ h ha (by rw [locate_kioskOff f h2]; exact inArea_kioskRegister h1 h2), locate_kioskOff f h2]
  simp only [Dev.writePlace, Dev.writeReg, hw, hd, Bool.and_eq_true, decide_eq_true_eq, Bool.false_eq_true, if_false]
  rw [if_pos (by omega), if_neg (by omega), if_neg (by omega), Nat.add_sub_cancel_left]

/-- The row of a Kiosk register's write answers what the register's write makes of the block. -/
theorem act_hostWord_kiosk {s : State} {f o : Nat} (w : W32) (hf : f < 64) (h : Reaches s.dev f (kioskOff f o)) (h1 : 0x2000 ≤ o)
    (h2 : o < 0x4000) (h4 : o % 4 = 0) (hd : (s.dev.fn f).disabling = false) :
    act (decide (f < 64)) (fun d => d.hostWord f (kioskOff f o) w.toNat) s = .next { s with dev := s.dev.writeKiosk f o w.toNat } := by
  rw [act_ok (decide_eq_true hf), hostWord_kiosk w h h1 h2 h4 hd]

/-! ## Doorbells -/

/-- R100, R101: a rejected doorbell changes the causes and the latched value alone. -/
theorem doorbellError_kiosk (d : Dev) (f v r : Nat) :
    (d.doorbellError f v r).kiosk f =
      { d.kiosk f with errInfo := w32 (v + 0x20000 * r), cause := w32 (Nat.lor (d.kiosk f).cause.toNat 0x20) } := by
  simp only [Dev.doorbellError, kioskCause_kiosk, Dev.kiosk_onKiosk]

theorem doorbellError_kiosk_ne (d : Dev) {f g : Nat} (v r : Nat) (h : g ≠ f) : (d.doorbellError f v r).kiosk g = d.kiosk g := by
  simp only [Dev.doorbellError, kioskCause_kiosk_ne _ _ h, Dev.kiosk_onKiosk_ne _ _ h]

theorem doorbellError_only (d : Dev) (f v r : Nat) : Only [.funcs, .out] d (d.doorbellError f v r) :=
  (onKiosk_only _ _ _).to.trans (kioskCause_only _ _ _)

/-- R100, R101: a rejected doorbell moves no position, latches its value and its ring, and sets DB_ERROR. -/
theorem doorbellError_rejects (d : Dev) (f v r : Nat) (hv : v + 0x20000 * r < 2 ^ 32) :
    let k := (d.doorbellError f v r).kiosk f
    k.reqTail = (d.kiosk f).reqTail ∧ k.rspHead = (d.kiosk f).rspHead ∧ k.errInfo.toNat = v + 0x20000 * r
      ∧ bit k.cause.toNat 5 = true := by
  refine ⟨?_, ?_, ?_, bit_kioskCause _ f (by decide) (by decide)⟩ <;> rw [doorbellError_kiosk]
  simpa [w32] using hv

/-- R98: a doorbell: a move of `n` units within its `bound` changes the position by `move`, and one beyond is rejected. -/
def Dev.doorbell (d : Dev) (f n bound : Nat) (move : Kiosk → Kiosk) (value ring : Nat) : Dev :=
  if n ≤ bound then d.onKiosk f move else d.doorbellError f value ring

theorem doorbell_of_le (d : Dev) (f : Nat) {n bound : Nat} (move : Kiosk → Kiosk) (v r : Nat) (h : n ≤ bound) :
    d.doorbell f n bound move v r = d.onKiosk f move := if_pos h

theorem doorbell_of_lt (d : Dev) (f : Nat) {n bound : Nat} (move : Kiosk → Kiosk) (v r : Nat) (h : bound < n) :
    d.doorbell f n bound move v r = d.doorbellError f v r := if_neg (Nat.not_le.mpr h)

theorem doorbell_moves (d : Dev) (f : Nat) {n bound : Nat} (move : Kiosk → Kiosk) (v r : Nat) (h : n ≤ bound) :
    (d.doorbell f n bound move v r).kiosk f = move (d.kiosk f) ∧ (d.doorbell f n bound move v r).out = d.out := by
  rw [doorbell_of_le _ _ _ _ _ h]
  exact ⟨Dev.kiosk_onKiosk _ _ _, rfl⟩

theorem doorbell_kiosk_ne (d : Dev) {f g : Nat} (n bound : Nat) (move : Kiosk → Kiosk) (v r : Nat) (h : g ≠ f) :
    (d.doorbell f n bound move v r).kiosk g = d.kiosk g := by
  rcases Nat.lt_or_ge bound n with hb | hb
  · rw [doorbell_of_lt _ _ _ _ _ hb, doorbellError_kiosk_ne _ _ _ h]
  · rw [doorbell_of_le _ _ _ _ _ hb, Dev.kiosk_onKiosk_ne _ _ h]

theorem doorbell_only (d : Dev) (f n bound : Nat) (move : Kiosk → Kiosk) (v r : Nat) :
    Only [.funcs, .out] d (d.doorbell f n bound move v r) :=
  Only.ite (onKiosk_only _ _ _).to (doorbellError_only _ _ _ _)

/-- R100: a write of KIOSK_REQ_TAIL is a doorbell bounded by the free units of the request ring. -/
theorem writeReqTail_eq_doorbell {d : Dev} {f : Nat} (w : W32) (hb : (d.kiosk f).resetBusy = false) :
    d.writeReqTail f w =
      d.doorbell f (w.setWidth 16 - (d.kiosk f).reqTail).toNat (free (d.kiosk f).reqTail (d.kiosk f).reqHead)
        (fun k => { k with reqTail := w.setWidth 16 }) (w.toNat % 65536) 0 := by
  simp [Dev.writeReqTail, Dev.doorbell, hb]

/-- R101: a write of KIOSK_RSP_HEAD is a doorbell bounded by the used units of the response ring. -/
theorem writeRspHead_eq_doorbell {d : Dev} {f : Nat} (w : W32) (hb : (d.kiosk f).resetBusy = false) :
    d.writeRspHead f w =
      d.doorbell f (w.setWidth 16 - (d.kiosk f).rspHead).toNat (used (d.kiosk f).rspTail (d.kiosk f).rspHead)
        (fun k => { k with rspHead := w.setWidth 16 }) (w.toNat % 65536) 1 := by
  simp [Dev.writeRspHead, Dev.doorbell, hb]

/-- R124: the reset of a Kiosk that executes nothing ends with its rings cleared. -/
theorem ringResetEnd_of_idle {d : Dev} {f : Nat} (hb : (d.kiosk f).resetBusy = true) (he : (d.kiosk f).executing = none) :
    d.ringResetEnd f = d.onKiosk f fun k => { Kiosk.scrub k with resetBusy := false } := by
  simp [Dev.ringResetEnd, hb, he]

/-! ## The rows -/

section rows
variable {s : State} {f : Nat}

theorem exec_kioskReqTailWrite (w : W32) (hf : f < 64) (h : Reaches s.dev f (kioskOff f 0x2000)) (hd : (s.dev.fn f).disabling = false) :
    exec (.kioskReqTailWrite f w) s = .next { s with dev := s.dev.writeReqTail f w } := by
  refine (act_hostWord_kiosk w hf h (by decide) (by decide) (by decide) hd).trans ?_
  simp [Dev.writeKiosk, w32]

theorem exec_kioskRspHeadWrite (w : W32) (hf : f < 64) (h : Reaches s.dev f (kioskOff f 0x200C)) (hd : (s.dev.fn f).disabling = false) :
    exec (.kioskRspHeadWrite f w) s = .next { s with dev := s.dev.writeRspHead f w } := by
  refine (act_hostWord_kiosk w hf h (by decide) (by decide) (by decide) hd).trans ?_
  simp [Dev.writeKiosk, w32]

/-- R124: RING_RESET starts the reset of the Kiosk's rings. -/
theorem exec_ringReset (hf : f < 64) (h : Reaches s.dev f (kioskOff f 0x201C)) (hd : (s.dev.fn f).disabling = false) :
    exec (.ringReset f) s = .next { s with dev := s.dev.ringReset f } := by
  refine (act_hostWord_kiosk (1 : W32) hf h (by decide) (by decide) (by decide) hd).trans ?_
  simp [Dev.writeKiosk, bit]

theorem exec_ringResetDone (hf : f < 64) : exec (.ringResetDone f) s = .next { s with dev := s.dev.ringResetEnd f } :=
  act_ok (decide_eq_true hf) (fun d => d.ringResetEnd f) s

end rows

/-- Settles O17: each row is a doorbell, or a change of the one Kiosk that it names. -/
theorem doorbellsMovePositionsOrAreRejected : Obligations.DoorbellsMovePositionsOrAreRejected := by
  unfold Obligations.DoorbellsMovePositionsOrAreRejected
  refine ⟨fun s f w hf h hd hb => ⟨_, exec_kioskReqTailWrite w hf h hd, ?reqTail⟩,
    fun s f w hf h hd hb => ⟨_, exec_kioskRspHeadWrite w hf h hd, ?rspHead⟩,
    fun s f hf h hd => ⟨_, exec_ringReset hf h hd, ?reset⟩,
    fun s f hf hb he => ⟨_, exec_ringResetDone hf, ?resetDone⟩⟩
  case reqTail =>
    rw [writeReqTail_eq_doorbell w hb]
    refine ⟨fun hle => doorbell_moves _ _ _ _ _ hle, fun hlt => ?_, fun g hg => doorbell_kiosk_ne _ _ _ _ _ _ hg,
      doorbell_only _ _ _ _ _ _ _⟩
    rw [doorbell_of_lt _ _ _ _ _ hlt]
    obtain ⟨htail, -, herr, hcause⟩ := doorbellError_rejects s.dev f (w.toNat % 65536) 0 (by omega)
    exact ⟨htail, herr, hcause⟩
  case rspHead =>
    rw [writeRspHead_eq_doorbell w hb]
    refine ⟨fun hle => doorbell_moves _ _ _ _ _ hle, fun hlt => ?_, fun g hg => doorbell_kiosk_ne _ _ _ _ _ _ hg,
      doorbell_only _ _ _ _ _ _ _⟩
    rw [doorbell_of_lt _ _ _ _ _ hlt]
    obtain ⟨-, hhead, herr, hcause⟩ := doorbellError_rejects s.dev f (w.toNat % 65536) 1 (by omega)
    exact ⟨hhead, herr, hcause⟩
  case reset =>
    refine ⟨?_, ?_, ?_, fun g hg => Dev.kiosk_onKiosk_ne _ _ hg, onKiosk_only _ _ _⟩ <;> simp [Dev.ringReset]
  case resetDone =>
    rw [ringResetEnd_of_idle hb he]
    beta_reduce
    rw [Dev.kiosk_onKiosk]
    exact ⟨rfl, rfl, rfl, rfl, rfl, rfl, rfl, rfl, fun _ => ⟨rfl, rfl⟩, fun g hg => Dev.fn_onKiosk_ne _ _ hg, onKiosk_only _ _ _⟩

end Sys2Proof.Machine
end
